-- ==== Sys2Proof/Word.lean ====
section
/-! DEFINITION. The words of the QZ6400: bytes, the 16-, 32-, 48-, 56- and 64-bit words the manual numbers from
bit 0 (R6), the 1024-bit word that is a granary line or a vector register, and their plainest arithmetic. -/

namespace Sys2Proof

abbrev Byte := BitVec 8
abbrev W16 := BitVec 16
abbrev W32 := BitVec 32
abbrev W64 := BitVec 64
/-- A 48-bit device physical address (R266). -/
abbrev PAddr := BitVec 48
/-- A 56-bit context virtual address (R81, R275). -/
abbrev VAddr := BitVec 56
/-- A 128-byte granary line (R229), or a vector register of 32 lanes of 32 bits (R47). -/
abbrev Line := BitVec 1024

end Sys2Proof
end

