-- ==== Sys2Proof/Config.lean ====
section
/-! DEFINITION. What an implementation fixes: the sizes the manual gives this part, and the free values, which the
manual leaves open. A free value has no body: no proof can see what it is. -/

namespace Sys2Proof.Config

/-- A value the manual does not fix, one for each use: `State.spare` counts the uses (log entry 1). -/
opaque freeNat : Nat → Nat

/-- The bytes of an HSS signature over the given bytes (R478, R479): the manual names the scheme of RFC 8554 and gives
no key (log entry 2). -/
opaque hssSign : List Byte → List Byte

/-- The module's HSS public key and Lemsawyn's signature over it and the serial number (R479, log entry 2). -/
opaque endorsement : List Byte

/-- The IANA enterprise number that the Reeve reports (R459): the manual does not state it (log entry 2). -/
opaque iana : Nat

/-- The answer of the module to an MCTP control request, whose encoding the DMTF specification of R459 gives and the
manual does not (log entry 2). -/
opaque mctpAnswer : List Byte → List Byte

/-- The PLDM platform descriptor record of a record handle (R459, log entry 2). -/
opaque pdrBytes : Nat → List Byte

/-- Header fields of the frames that the module sends and the manual does not state, by the frame's packet number: the
partner's UDP port, the IPv4 identification and the IPv6 flow label (log entry 134). -/
opaque udpTo : Nat → Nat
opaque ipIdent : Nat → Nat
opaque ipFlow : Nat → Nat

/-- What the set of an island TLB that holds a page's entry depends on beside the page is not stated (log entry 136). -/
opaque tlbSet : Nat → Nat → Nat → Nat

/-- The refresh multiplier that a device of a cellar die reports at a time, under JESD209-6 (R294, log entry 135). -/
opaque deviceRefresh : Nat → Nat → Nat → Nat

/-- A core's debug dump made of LARDER_MAP, the scoreboard entries, the group slots in use and the directory entries of the
lines the core holds: *Table 13-2* names the parts and gives no layout (log entry 25). Its first byte, since the dump holds
LARDER_MAP at least and so is not empty, and the bytes after it. -/
opaque dumpFirst : Nat → List Nat → List (List Nat) → List Nat → Byte
opaque dumpBytes : Nat → List Nat → List (List Nat) → List Nat → List Byte

/-- Whether a fused multiply-add of ∞ × 0 and a quiet NaN raises NV: IEEE 754-2019 leaves it to the implementation and
R103 does not say (log entry 13). -/
opaque fmaNanInvalid : Bool

/-- Cores of the module (R15). -/
def cores : Nat := 4224
/-- Group slots of a core (R47). -/
def slots : Nat := 48
/-- Vector registers of a core (R47). -/
def vregs : Nat := 2048
/-- Entries of a store buffer (R304). -/
def sbEntries : Nat := 64
/-- Bytes of a larder (R174). -/
def larderBytes : Nat := 1048576
/-- Tallies of one hall die (R332). -/
def talliesPerHall : Nat := 6144
/-- Watches of one hall die (R332). -/
def watchesPerHall : Nat := 4096
/-- Contract major and minor version (R4). -/
def contractMajor : Nat := 1
def contractMinor : Nat := 2

end Sys2Proof.Config
end

