-- ==== Sys2Proof/Syntax.lean ====
section
/-! DEFINITION. The commands of the QZ6400: one constructor of `Instr` for each row of spec/opcode_table.json, in the
table's order. A core instruction carries the group slot that issues it and the fields of its format (R87); a
Steward command the mailbox that holds its message (R351); a frame the Folest header and payload (R391); a sideband
command its message (R460); an event the identity of the thing it happens to. -/

namespace Sys2Proof

/-- A group slot of one core: core number 0 to 4,223 (R15), slot 0 to 47 (R47). -/
structure Grp where
  core : Nat
  slot : Nat
  deriving DecidableEq, Repr

/-- The fields of a format-R instruction below its opcode and FN (R87, *Table 4-2*); `ext` is the extension word,
present exactly when EXT is 1 (R81). -/
structure RWord where
  ext : Option (BitVec 64)
  gp : BitVec 3
  gn : Bool
  c : BitVec 9
  b : BitVec 9
  a : BitVec 9
  dst : BitVec 9
  mod : BitVec 9
  deriving DecidableEq, Repr

/-- The fields of a format-I instruction (R87, *Table 4-3*). -/
structure IWord where
  ext : Option (BitVec 64)
  gp : BitVec 3
  gn : Bool
  imm : BitVec 18
  a : BitVec 9
  dst : BitVec 9
  mod : BitVec 9
  deriving DecidableEq, Repr

/-- An instruction that has an immediate twin (R88): its format-R original or its format-I twin. -/
inductive RI where
  | r (f : RWord)
  | i (f : IWord)
  deriving DecidableEq, Repr

/-- The fields of a format-M instruction (R87, *Table 4-4*). -/
structure MWord where
  ext : Option (BitVec 64)
  gp : BitVec 3
  gn : Bool
  sz : BitVec 3
  mark : BitVec 2
  scope : BitVec 2
  base : BitVec 6
  index : BitVec 9
  data : BitVec 9
  scale : BitVec 2
  imm : BitVec 18
  deriving DecidableEq, Repr

/-- The fields of a format-B instruction (R87, *Table 4-5*); `hi` is the reserved field [50:45], `lo` the reserved bit. -/
structure BWord where
  ext : Option (BitVec 64)
  gp : BitVec 3
  gn : Bool
  hi : BitVec 6
  tgt : BitVec 22
  rcv : BitVec 22
  lo : BitVec 1
  deriving DecidableEq, Repr

/-- The compare conditions of opcodes 0x13 and 0x22, in FN order (*Table 4-12*). -/
inductive Cond where
  | eq | ne | lt | le | gt | ge | ltu | geu | un | ord
  deriving DecidableEq, Repr

/-- The requester classes of *Table 9-2*. -/
inductive RClass where
  | core | pref | unit | dma | port | walk
  deriving DecidableEq, Repr

/-- What the check bits of one sector said when it was read (R434, R435, R438). -/
inductive Ecc where
  | clean | corrected | uncorrectable
  deriving DecidableEq, Repr

/-- The units that can be gated (R262, *Table 9-13*): a bin bank, a cache way or the pool way of a slice, or one
HBM channel group (R269). -/
inductive GateUnit where
  | binBank (hall bank : Nat)
  | cacheWay (hall way : Nat)
  | poolWay (hall : Nat)
  | hbmGroup (group : Nat)
  deriving DecidableEq, Repr

/-- The translation structures of *Table 10-9*, as shootdowns reach them: the instruction and data TLBs of a core, an
island TLB, the walk cache of a hall die, and the DMA TLBs of a DMA engine and of the Folest engine. -/
inductive TlbStruct where
  | core (core : Nat)
  | island (island : Nat)
  | hall (hall : Nat)
  | engine (hall engine : Nat)
  | folest
  deriving DecidableEq, Repr

/-- The end points of *Table 16-4*. -/
inductive EndPoint where
  | hbmGroup (group : Nat)
  | cellarDevice (die device : Nat)
  | binBank (hall bank : Nat)
  | tallySlice (hall : Nat)
  deriving DecidableEq, Repr

/-- What a group has sent to an end point and waits for (R312): a request or a load, by its identifier, or an entry of its
store buffer, by its place among the group's own. -/
inductive Awaited where
  | request (id : Nat)
  | load (id : Nat)
  | store (i : Nat)
  deriving DecidableEq, Repr

/-- Why the port drops a received frame (R380, R384, R385). -/
inductive DropCause where
  | tooLong | tagged | badFcs | macsec | other
  deriving DecidableEq, Repr

/-- A Folest frame from the partner (R391, *Table 14-3*): the header's fields, the payload bytes that the UDP
datagram carries after the header, and the ingress timestamp t₀ (R388). `rsvd` holds the reserved bits [223:212],
[207:192] and [95:64], in that order from the top. -/
structure Frame where
  ver : BitVec 8
  typ : BitVec 8
  length : BitVec 16
  retx : Bool
  creditReq : Bool
  resp : Bool
  ackv : Bool
  session : BitVec 32
  seq : BitVec 32
  ack : BitVec 32
  rsvd : BitVec 60
  payload : List (BitVec 8)
  t0 : Nat
  deriving DecidableEq, Repr

/-- A Lemsawyn sideband message (R460): its MCTP message tag, the header fields after CODE, which the row's name fixes, and the
payload. -/
structure SbMsg where
  tag : BitVec 3
  status : BitVec 16
  length : BitVec 16
  rsvd : BitVec 80
  payload : List (BitVec 8)
  deriving DecidableEq, Repr

/-- The commands: one constructor for each row of the table of operations and events. -/
inductive Instr where
  /-- SADD (R108): Scalar 64-bit add of SRC_A and SRC_B into DST. -/
  | sadd (g : Grp) (f : RI)
  /-- SSUB (R108): Scalar 64-bit subtract. -/
  | ssub (g : Grp) (f : RI)
  /-- SMUL (R108): Scalar multiply giving the low 64 bits. -/
  | smul (g : Grp) (f : RI)
  /-- SMULHU (R108): Scalar unsigned multiply giving the high 64 bits. -/
  | smulhu (g : Grp) (f : RI)
  /-- SMULHS (R108): Scalar signed multiply giving the high 64 bits. -/
  | smulhs (g : Grp) (f : RI)
  /-- SDIVU (R105): Scalar unsigned divide, with the division-by-zero results of R105. -/
  | sdivu (g : Grp) (f : RI)
  /-- SDIVS (R105): Scalar signed divide rounding toward zero. -/
  | sdivs (g : Grp) (f : RI)
  /-- SREMU (R105): Scalar unsigned remainder. -/
  | sremu (g : Grp) (f : RI)
  /-- SREMS (R105): Scalar signed remainder taking the dividend's sign. -/
  | srems (g : Grp) (f : RI)
  /-- SAND (R108): Scalar bitwise AND. -/
  | sand (g : Grp) (f : RI)
  /-- SOR (R108): Scalar bitwise OR; SOR ZERO, ZERO, ZERO is NOP. -/
  | sor (g : Grp) (f : RI)
  /-- SXOR (R108): Scalar bitwise XOR. -/
  | sxor (g : Grp) (f : RI)
  /-- SANDN (R108): Scalar AND with complement. -/
  | sandn (g : Grp) (f : RI)
  /-- SSHL (R105): Scalar shift left, with the count taken modulo the width. -/
  | sshl (g : Grp) (f : RI)
  /-- SSHR (R105): Scalar logical shift right. -/
  | sshr (g : Grp) (f : RI)
  /-- SSAR (R105): Scalar arithmetic shift right. -/
  | ssar (g : Grp) (f : RI)
  /-- SROR (R108): Scalar rotate right. -/
  | sror (g : Grp) (f : RI)
  /-- SMIN (R108): Scalar signed minimum. -/
  | smin (g : Grp) (f : RI)
  /-- SMAX (R108): Scalar signed maximum. -/
  | smax (g : Grp) (f : RI)
  /-- SMINU (R108): Scalar unsigned minimum. -/
  | sminu (g : Grp) (f : RI)
  /-- SMAXU (R108): Scalar unsigned maximum. -/
  | smaxu (g : Grp) (f : RI)
  /-- SSLT (R108): Scalar signed set-less-than, writing 1 or 0. -/
  | sslt (g : Grp) (f : RI)
  /-- SSLTU (R108): Scalar unsigned set-less-than. -/
  | ssltu (g : Grp) (f : RI)
  /-- SSEQ (R108): Scalar set-equal. -/
  | sseq (g : Grp) (f : RI)
  /-- SMOV (R108): Scalar copy. -/
  | smov (g : Grp) (f : RI)
  /-- SPOPC (R108): Scalar population count. -/
  | spopc (g : Grp) (f : RI)
  /-- SCLZ (R108): Scalar count of leading zeros. -/
  | sclz (g : Grp) (f : RI)
  /-- SCTZ (R108): Scalar count of trailing zeros. -/
  | sctz (g : Grp) (f : RI)
  /-- SPGET (R108): Reads a predicate mask into a scalar register. -/
  | spget (g : Grp) (f : RI)
  /-- SPSET (R86): Writes SRC_A[31:0] to all 32 bits of a predicate. -/
  | spset (g : Grp) (f : RI)
  /-- SRDCR (R107): Reads a control register into a scalar register. -/
  | srdcr (g : Grp) (f : IWord)
  /-- WRCR (R107): Writes a control register from a scalar or XIMM value. -/
  | wrcr (g : Grp) (f : IWord)
  /-- VADD (R108): Per-lane integer add. -/
  | vadd (g : Grp) (f : RI)
  /-- VSUB (R108): Per-lane integer subtract. -/
  | vsub (g : Grp) (f : RI)
  /-- VMUL (R108): Per-lane integer multiply, low part. -/
  | vmul (g : Grp) (f : RI)
  /-- VMULHU (R108): Per-lane unsigned multiply, high part. -/
  | vmulhu (g : Grp) (f : RI)
  /-- VMULHS (R108): Per-lane signed multiply, high part. -/
  | vmulhs (g : Grp) (f : RI)
  /-- VMIN (R108): Per-lane signed integer minimum. -/
  | vmin (g : Grp) (f : RI)
  /-- VMAX (R108): Per-lane signed integer maximum. -/
  | vmax (g : Grp) (f : RI)
  /-- VMINU (R108): Per-lane unsigned integer minimum. -/
  | vminu (g : Grp) (f : RI)
  /-- VMAXU (R108): Per-lane unsigned integer maximum. -/
  | vmaxu (g : Grp) (f : RI)
  /-- VAND (R108): Per-lane bitwise AND. -/
  | vand (g : Grp) (f : RI)
  /-- VOR (R108): Per-lane bitwise OR. -/
  | vor (g : Grp) (f : RI)
  /-- VXOR (R108): Per-lane bitwise XOR. -/
  | vxor (g : Grp) (f : RI)
  /-- VANDN (R108): Per-lane AND with complement. -/
  | vandn (g : Grp) (f : RI)
  /-- VSHL (R105): Per-lane shift left. -/
  | vshl (g : Grp) (f : RI)
  /-- VSHR (R105): Per-lane logical shift right. -/
  | vshr (g : Grp) (f : RI)
  /-- VSAR (R105): Per-lane arithmetic shift right. -/
  | vsar (g : Grp) (f : RI)
  /-- VPOPC (R108): Per-lane population count. -/
  | vpopc (g : Grp) (f : RI)
  /-- VCLZ (R108): Per-lane count of leading zeros. -/
  | vclz (g : Grp) (f : RI)
  /-- VBREV (R108): Per-lane bit reverse. -/
  | vbrev (g : Grp) (f : RI)
  /-- VFADD (R103): Per-lane IEEE floating-point add in FP32, FP16 or BF16. -/
  | vfadd (g : Grp) (f : RWord)
  /-- VFSUB (R103): Per-lane floating-point subtract. -/
  | vfsub (g : Grp) (f : RWord)
  /-- VFMUL (R103): Per-lane floating-point multiply. -/
  | vfmul (g : Grp) (f : RWord)
  /-- VFFMA (R103): Per-lane fused multiply-add, rounded once. -/
  | vffma (g : Grp) (f : RWord)
  /-- VFMIN (R108): Per-lane IEEE 754-2019 minimum. -/
  | vfmin (g : Grp) (f : RWord)
  /-- VFMAX (R108): Per-lane IEEE 754-2019 maximum. -/
  | vfmax (g : Grp) (f : RWord)
  /-- VFABS (R108): Per-lane floating-point absolute value. -/
  | vfabs (g : Grp) (f : RWord)
  /-- VFNEG (R108): Per-lane floating-point negate. -/
  | vfneg (g : Grp) (f : RWord)
  /-- VFCPYS (R108): Per-lane copy of sign. -/
  | vfcpys (g : Grp) (f : RWord)
  /-- VCMP (R515): Per-lane compare under the FN condition, writing a predicate. -/
  | vcmp (g : Grp) (c : Cond) (f : RWord)
  /-- VCVT (R516): Per-lane conversion between 32-bit lane TYPEs. -/
  | vcvt (g : Grp) (src : BitVec 4) (f : RWord)
  /-- VMOV (R515): Per-lane copy. -/
  | vmov (g : Grp) (f : RWord)
  /-- VSEL (R108): Per-lane select by predicate SRC_C. -/
  | vsel (g : Grp) (f : RWord)
  /-- VLANE (R108): Writes each lane's index. -/
  | vlane (g : Grp) (f : RWord)
  /-- VGET (R106): Writes one lane's value to a scalar, zero-extended. -/
  | vget (g : Grp) (f : RWord)
  /-- VSHFL (R106): Per-lane shuffle from lane SRC_B mod 32. -/
  | vshfl (g : Grp) (f : RWord)
  /-- VBCAST (R106): Broadcasts one lane's value to every active lane. -/
  | vbcast (g : Grp) (f : RWord)
  /-- VANY (R106): Writes 1 when the predicate is set in any active lane. -/
  | vany (g : Grp) (f : RWord)
  /-- VALL (R106): Writes 1 when the predicate is set in every active lane. -/
  | vall (g : Grp) (f : RWord)
  /-- VBALLOT (R106): Writes the mask of active lanes in which the predicate is set. -/
  | vballot (g : Grp) (f : RWord)
  /-- VRED_ADD (R106): 64-bit integer sum over the active lanes into a scalar. -/
  | vredAdd (g : Grp) (f : RWord)
  /-- VRED_FADD (R106): Ordered FP32 sum over the active lanes into a scalar. -/
  | vredFadd (g : Grp) (f : RWord)
  /-- VDADD (R103): FP64 add on register pairs. -/
  | vdadd (g : Grp) (f : RWord)
  /-- VDSUB (R103): FP64 subtract. -/
  | vdsub (g : Grp) (f : RWord)
  /-- VDMUL (R103): FP64 multiply. -/
  | vdmul (g : Grp) (f : RWord)
  /-- VDFMA (R103): FP64 fused multiply-add. -/
  | vdfma (g : Grp) (f : RWord)
  /-- VDMIN (R103): FP64 minimum. -/
  | vdmin (g : Grp) (f : RWord)
  /-- VDMAX (R103): FP64 maximum. -/
  | vdmax (g : Grp) (f : RWord)
  /-- VDABS (R103): FP64 absolute value. -/
  | vdabs (g : Grp) (f : RWord)
  /-- VDNEG (R103): FP64 negate. -/
  | vdneg (g : Grp) (f : RWord)
  /-- VFDIV (R103): Correctly rounded 32-bit floating-point divide. -/
  | vfdiv (g : Grp) (f : RWord)
  /-- VFSQRT (R103): Correctly rounded 32-bit square root. -/
  | vfsqrt (g : Grp) (f : RWord)
  /-- VDDIV (R103): Correctly rounded FP64 divide. -/
  | vddiv (g : Grp) (f : RWord)
  /-- VDSQRT (R103): Correctly rounded FP64 square root. -/
  | vdsqrt (g : Grp) (f : RWord)
  /-- VIDIVU (R105): Per-lane 32-bit unsigned divide. -/
  | vidivu (g : Grp) (f : RWord)
  /-- VIDIVS (R105): Per-lane 32-bit signed divide. -/
  | vidivs (g : Grp) (f : RWord)
  /-- VIREMU (R105): Per-lane 32-bit unsigned remainder. -/
  | viremu (g : Grp) (f : RWord)
  /-- VIREMS (R105): Per-lane 32-bit signed remainder. -/
  | virems (g : Grp) (f : RWord)
  /-- VDCVT (R516): Conversion to or from FP64 and 64-bit integers. -/
  | vdcvt (g : Grp) (src : BitVec 4) (f : RWord)
  /-- VDCMP (R103): FP64 compare writing a predicate. -/
  | vdcmp (g : Grp) (c : Cond) (f : RWord)
  /-- LD (R89): Per-lane load from memory, first forwarding from the group's store-buffer entries. -/
  | ld (g : Grp) (f : MWord)
  /-- ST (R304): Per-lane store into the store buffer, marked tentative. -/
  | st (g : Grp) (f : MWord)
  /-- SLD (R95): Group-level load of at most 64 bits. -/
  | sld (g : Grp) (f : MWord)
  /-- SST (R95): Group-level store. -/
  | sst (g : Grp) (f : MWord)
  /-- ATOM (R91): Per-lane atomic at the location selected by LOC. -/
  | atom (g : Grp) (f : MWord)
  /-- SATOM (R91): Group-level atomic. -/
  | satom (g : Grp) (f : MWord)
  /-- PF (R108): Prefetch into the L1 data cache and the home slice; never faults. -/
  | pf (g : Grp) (f : MWord)
  /-- LLD (R184): Per-lane larder load through the narrow view. -/
  | lld (g : Grp) (f : MWord)
  /-- LST (R184): Per-lane larder store through the narrow view. -/
  | lst (g : Grp) (f : MWord)
  /-- LLD_R (R185): Row-view load of one 512-byte larder row into a quad. -/
  | lldR (g : Grp) (f : MWord)
  /-- LST_R (R185): Row-view store of one 512-byte larder row. -/
  | lstR (g : Grp) (f : MWord)
  /-- MLD_S (R130): Loads and holds the stationary operand of a mill operation. -/
  | mldS (g : Grp) (f : RWord)
  /-- MMA_W (R122): Enqueues a weight-stationary matrix multiply on the mill. -/
  | mmaW (g : Grp) (f : RWord)
  /-- MMA_A (R122): Enqueues an activation-stationary matrix multiply on the mill. -/
  | mmaA (g : Grp) (f : RWord)
  /-- MACC_RD (R173): In debug mode, writes an accumulator tile to memory. -/
  | maccRd (g : Grp) (f : RWord)
  /-- MACC_WR (R173): In debug mode, loads an accumulator tile and drops any held operand. -/
  | maccWr (g : Grp) (f : RWord)
  /-- SIV_ISECT (R208): Enqueues a sorted-set intersection on the sieve. -/
  | sivIsect (g : Grp) (f : RWord)
  /-- SIV_UNION (R208): Enqueues a sorted-set union on the sieve. -/
  | sivUnion (g : Grp) (f : RWord)
  /-- SIV_DIFF (R208): Enqueues a sorted-set difference on the sieve. -/
  | sivDiff (g : Grp) (f : RWord)
  /-- SIV_PROBE (R214): Enqueues a hash-table probe on the sieve. -/
  | sivProbe (g : Grp) (f : RWord)
  /-- SIV_GATHER (R215): Enqueues an indexed gather on the sieve. -/
  | sivGather (g : Grp) (f : RWord)
  /-- SIV_SCATTER (R216): Enqueues an indexed scatter, plain or by near-store atomics. -/
  | sivScatter (g : Grp) (f : RWord)
  /-- TLY_ADD (R337): Adds to a tally with saturation, and fires the watches that are met. -/
  | tlyAdd (g : Grp) (f : RWord)
  /-- TLY_SUB (R337): Subtracts from a tally, setting UNDER below zero. -/
  | tlySub (g : Grp) (f : RWord)
  /-- TLY_SETMAX (R337): Raises a tally to a maximum, flagging REGRESS when the operand is lower. -/
  | tlySetmax (g : Grp) (f : RWord)
  /-- TLY_READ (R337): Reads a tally's value and flags word. -/
  | tlyRead (g : Grp) (f : RWord)
  /-- TLY_WATCH (R341): Registers a watch on a tally, waiting or returning a handle. -/
  | tlyWatch (g : Grp) (f : RWord)
  /-- TLY_CANCEL (R344): Removes a pending watch. -/
  | tlyCancel (g : Grp) (f : RWord)
  /-- BRA (R113): Relative or absolute branch, splitting the path when divergent. -/
  | bra (g : Grp) (f : BWord)
  /-- CALL (R113): Call, writing the link pair. -/
  | call (g : Grp) (f : BWord)
  /-- BRX (R114): Indirect branch with scalar or per-lane targets. -/
  | brx (g : Grp) (f : RWord)
  /-- CALLX (R114): Indirect call. -/
  | callx (g : Grp) (f : RWord)
  /-- RET (R114): Return through a link pair. -/
  | ret (g : Grp) (f : RWord)
  /-- EXIT (R54): Ends the active path's threads and frees the slot when none remain. -/
  | exitOp (g : Grp) (f : RWord)
  /-- YIELD (R61): Ends the active path's turn. -/
  | yield (g : Grp) (f : RWord)
  /-- SPIN (R62): Spin-waits while a 32-bit word equals the comparand. -/
  | spin (g : Grp) (f : RWord)
  /-- BAR_G (R64): Waits at group barrier n until every expected thread arrives. -/
  | barG (g : Grp) (f : RWord)
  /-- FENCE_ORD (R310): Ordering fence without a drain wait. -/
  | fenceOrd (g : Grp) (f : RWord)
  /-- FENCE_SEQ (R310): Fence that waits for the drain of earlier stores. -/
  | fenceSeq (g : Grp) (f : RWord)
  /-- FENCE_DONE (R310): Fence that waits for every end-point acknowledgement. -/
  | fenceDone (g : Grp) (f : RWord)
  /-- BRK (R108): Parks the group with reason DEBUG. -/
  | brk (g : Grp) (f : RWord)
  /-- PATH_SWITCH (R59): The convergence manager switches the active path after the opportunity count expires; the entry it
  activates. -/
  | pathSwitch (g : Grp) (entry : Nat)
  /-- SPIN_TIMEOUT (R62): A spin-waiting path is woken after 1,024 core cycles. -/
  | spinTimeout (g : Grp) (entry : Nat)
  /-- BARRIER_STALL (R66): The barrier watchdog count reaches its limit and the group parks with a fault. -/
  | barrierStall (g : Grp) (bar : Nat)
  /-- MISS_NOTICE (R242): A home-slice miss notice arrives at the requesting core. -/
  | missNotice (g : Grp) (load : Nat)
  /-- LOAD_DATA_ARRIVAL (R69): The missing load's data arrives, ending run-ahead and resuming the group. -/
  | loadDataArrival (g : Grp) (load : Nat)
  /-- RUN_AHEAD_LIMIT (R69): Run-ahead ends when its instruction limit or shadow registers run out. -/
  | runAheadLimit (g : Grp)
  /-- PARK_COMPLETE (R73): A park completes after its mill, sieve and store-buffer waits, writing the park record. -/
  | parkComplete (g : Grp)
  /-- GROUP_WAKE (R74): A bell reaches a WAIT-parked group, which resumes. -/
  | groupWake (watch : Nat)
  /-- REPLAY (R76): A parked group is loaded into a slot and resumes at REPLAY_PC. -/
  | replay (station inst index : Nat) (g : Grp)
  /-- INSTANCE_MIGRATE (R78): The placer moves a station instance at a task boundary. -/
  | instanceMigrate (station inst core : Nat)
  /-- CORE_RETIRE (R79): The Reeve retires a core with intact state and its instances migrate. -/
  | coreRetire (core : Nat)
  /-- STORE_DRAIN (R306): An eligible store-buffer entry is performed at its target. -/
  | storeDrain (core entry : Nat)
  /-- WRITE_ACK (R306): An end point's acknowledgement of a write or atomic reaches the core. -/
  | writeAck (g : Grp) (req : Nat)
  /-- FENCE_ENDPOINT_LOST (R312): A request's completion timeout expires and the issuing group parks with 0x0410. -/
  | fenceEndpointLost (g : Grp) (w : Awaited)
  /-- MILL_OP_START (R127): A queued mill operation starts its first pass when its stationary row is present. -/
  | millOpStart (core : Nat)
  /-- MILL_BLOCK_DRAIN (R143): A block's last add completes and its set drains to the output. -/
  | millBlockDrain (core : Nat)
  /-- MILL_RESCALE_RETRY (R146): An overflowing block reruns under the next rescale exponent. -/
  | millRescaleRetry (core : Nat)
  /-- MILL_COMPLETE (R139): The mill writes the completion word and raises DONE_TALLY. -/
  | millComplete (core cycles : Nat)
  /-- MILL_FAULT (R140): A mill operation faults, stops and cancels the group's later operations. -/
  | millFault (core : Nat) (status : BitVec 16)
  /-- SIEVE_COMPLETE (R218): The sieve writes the completion word and raises DONE_TALLY. -/
  | sieveComplete (core : Nat)
  /-- SIEVE_FAULT (R220): A sieve operation faults and the group's later operations are cancelled. -/
  | sieveFault (core : Nat) (status : BitVec 16)
  /-- DMA_TRANSFER_COMPLETE (R200): A DMA transfer's last write is performed and its tally is raised. -/
  | dmaTransferComplete (queue entry : Nat)
  /-- NEAR_STORE_ATOMIC (R224): A home slice applies a near-store atomic and acknowledges it. -/
  | nearStoreAtomic (core hall : Nat)
  /-- HOME_READ (R244): A read reaches its home slice and is served by the attribute's policy. -/
  | homeRead (cls : RClass) (core ctx : Nat) (attr : BitVec 3) (pa : BitVec 48) (ecc : Ecc)
  /-- HOME_WRITE (R244): A write reaches its home slice and is acknowledged by the attribute's policy. -/
  | homeWrite (cls : RClass) (core ctx : Nat) (attr : BitVec 3) (pa : BitVec 48) (data : List (BitVec 8))
  /-- FILL_SECTOR_ARRIVAL (R243): A sector of a fill arrives from HBM or the cellar and is forwarded. -/
  | fillSectorArrival (hall line sector : Nat) (ecc : Ecc)
  /-- VICTIM_WRITE_ACCEPTED (R240): The memory controller accepts a dirty victim and the fill's read issues. -/
  | victimWriteAccepted (hall line : Nat)
  /-- POOL_WRITE (R249): A write in an epoch reaches the home slice and is held in a pool line. -/
  | poolWrite (ctx epoch : Nat) (pa : BitVec 48) (data : List (BitVec 8))
  /-- EPOCH_OPEN (R254): Epoch page command that opens a FREE epoch as a root or child. -/
  | epochOpen (part : Nat)
  /-- EPOCH_COMMIT (R255): Epoch page command that commits an open epoch. -/
  | epochCommit (part : Nat)
  /-- EPOCH_DISCARD (R255): Epoch page command that discards an epoch and its children. -/
  | epochDiscard (part : Nat)
  /-- EPOCH_COMMAND_REFUSED (R252): A malformed epoch page store is refused with EPOCH_COMMAND. -/
  | epochCommandRefused (part : Nat)
  /-- EPOCH_SLICE_APPLY (R255): A slice receives a COMMIT or DISCARD and applies it in one granary cycle. -/
  | epochSliceApply (part epoch hall : Nat)
  /-- EPOCH_SLICE_ACK (R253): A slice acknowledgement reaches the epoch controller, which completes the command when all are in. -/
  | epochSliceAck (part epoch hall : Nat)
  /-- POOL_FOLD (R259): A slice folds committed and frees void pool lines, freeing epochs that have none left. -/
  | poolFold (hall : Nat)
  /-- UNIT_SEAL (R263): A home slice seals a granary unit or HBM channel for gating. -/
  | unitSeal (u : GateUnit)
  /-- UNIT_DRAIN_DONE (R263): The drain of a sealed unit ends and the Reeve gates it. -/
  | unitDrainDone (u : GateUnit)
  /-- UNIT_UNGATE (R265): A gated unit is powered, zeroed and unsealed. -/
  | unitUngate (u : GateUnit)
  /-- PATROL_SCRUB (R437): The patrol scrub reads and corrects the next address, poisoning an uncorrectable sector. -/
  | patrolScrub (pa : BitVec 48) (pool : Option Nat) (ecc : Ecc)
  /-- PAGE_WALK (R282): A TLB miss runs a page walk through the home slices. -/
  | pageWalk (st : TlbStruct) (ctx : Nat) (va : BitVec 64)
  /-- SHOOTDOWN (R284): A shootdown reaches a translation structure, which drops entries and drains the range. -/
  | shootdown (id : Nat) (st : TlbStruct)
  /-- SHOOTDOWN_ACK (R283): A shootdown acknowledgement reaches the Steward, which completes the change when all are in. -/
  | shootdownAck (id : Nat) (st : TlbStruct)
  /-- PAGE_MOVE_REQUEST (R287): The Reeve asks the Steward to move a page, which is marked MOVING and recalled. -/
  | pageMoveRequest (frame : BitVec 48) (group : Nat)
  /-- PAGE_COPY_DONE (R287): A page copy completes, the leaves are rewritten and waiting agents are released. -/
  | pageCopyDone (move : Nat)
  /-- MOVE_ABANDONED (R289): The destination of a move fails and every leaf is restored to the old frame. -/
  | moveAbandoned (move : Nat)
  /-- TIER_INTERVAL (R290): At the end of each 1 ms interval the Reeve reads heat tables and decides promotions and demotions. -/
  | tierInterval (part : Nat)
  /-- REFRESH_ADJUST (R293): The Reeve sets a stack's refresh rate from its temperature. -/
  | refreshAdjust (stack : Nat)
  /-- REGULATOR_WINDOW (R296): A 1 µs regulator window ends and the guarantees and BORROW adapt. -/
  | regulatorWindow (resource part : Nat) (held : Bool)
  /-- GETS (R319): A read request from an L1 data cache reaches its home directory. -/
  | gets (core line : Nat)
  /-- GETM (R320): A write request reaches the home directory. -/
  | getm (core line : Nat)
  /-- UPGRADE (R320): An S holder asks the home for M without data. -/
  | upgrade (core line : Nat)
  /-- PUTE (R319): A clean E eviction reaches the home. -/
  | pute (core line : Nat)
  /-- PUTM (R319): An M eviction with its line reaches the home. -/
  | putm (core line : Nat)
  /-- INV (R322): An invalidation reaches an agent, which answers InvAck. -/
  | invMsg (core line : Nat)
  /-- FWDGETS (R321): A forwarded read reaches the owner, which sends the line and keeps S. -/
  | fwdgets (core line : Nat)
  /-- FWDGETM (R321): A forwarded write reaches the owner, which sends the line and invalidates. -/
  | fwdgetm (core line : Nat)
  /-- INVACK (R320): An invalidation acknowledgement reaches the requester or home. -/
  | invack (core line : Nat)
  /-- DATA (R320): A line with its acknowledgement count reaches the requester. -/
  | dataMsg (core line : Nat) (evict : Option Nat)
  /-- DATAHOME (R321): An owner's copy of the line reaches the home. -/
  | datahome (core line : Nat)
  /-- DATAINFLIGHT (R322): A former owner reports a crossing eviction to the home. -/
  | datainflight (core line : Nat)
  /-- DONE (R320): The requester's Done reaches the home, which records the state and serves the next request. -/
  | doneMsg (core line : Nat)
  /-- COHERENCE_ERROR (R326): A coherence error takes the partition's domain down. -/
  | coherenceError (part die line : Nat)
  /-- CAP_READ (R32): Steward command that returns the capability block. -/
  | capRead (mb : Nat)
  /-- NOTICE_ACK (R356): Steward command that acknowledges a notice. -/
  | noticeAck (mb : Nat)
  /-- NOTICE_SEND (R356): The Steward sends the next pending notice on mailbox 63. -/
  | noticeSend
  /-- SESSION_GRACE (R377): Steward command that sets the session grace period. -/
  | sessionGrace (mb : Nat)
  /-- CTX_CREATE (R360): Steward command that creates a context. -/
  | ctxCreate (mb : Nat)
  /-- CTX_DESTROY (R375): Steward command that destroys a context through the destroy steps. -/
  | ctxDestroy (mb : Nat)
  /-- CTX_QUERY (R360): Steward command that returns the context descriptor. -/
  | ctxQuery (mb : Nat)
  /-- CTX_SET (R357): Steward command that sets priority and PINNED. -/
  | ctxSet (mb : Nat)
  /-- BELL_LOG_READ (R362): Steward command that returns bell log records. -/
  | bellLogRead (mb : Nat)
  /-- PARK_READ (R357): Steward command that returns bytes of a park record. -/
  | parkRead (mb : Nat)
  /-- MEM_CREATE (R363): Steward command that creates a memory object. -/
  | memCreate (mb : Nat)
  /-- MEM_MAP (R364): Steward command that maps an object into a context. -/
  | memMap (mb : Nat)
  /-- MEM_UNMAP (R364): Steward command that unmaps a virtual range. -/
  | memUnmap (mb : Nat)
  /-- MEM_SHARE (R364): Steward command that adds a reference for a target context. -/
  | memShare (mb : Nat)
  /-- MEM_RELEASE (R364): Steward command that removes the context's reference. -/
  | memRelease (mb : Nat)
  /-- MEM_QUERY (R357): Steward command that describes a memory object. -/
  | memQuery (mb : Nat)
  /-- COMMONS_CREATE (R428): Steward command that creates a commons. -/
  | commonsCreate (mb : Nat)
  /-- COMMONS_FILL (R365): Steward command that copies bytes into a commons. -/
  | commonsFill (mb : Nat)
  /-- COMMONS_SEAL (R46): Steward command that seals a commons and computes its digests. -/
  | commonsSeal (mb : Nat)
  /-- COMMONS_FREE (R365): Steward command that frees a commons. -/
  | commonsFree (mb : Nat)
  /-- QUEUE_CREATE (R366): Steward command that creates a SUBMIT or NOTIFY queue. -/
  | queueCreate (mb : Nat)
  /-- QUEUE_DESTROY (R369): Steward command that aborts and frees a queue. -/
  | queueDestroy (mb : Nat)
  /-- QUEUE_DOORBELL (R366): Steward command that announces a tail or consumed count. -/
  | queueDoorbell (mb : Nat)
  /-- QUEUE_QUERY (R357): Steward command that returns a queue descriptor. -/
  | queueQuery (mb : Nat)
  /-- STATION_DECLARE (R370): Steward command that declares and places a station. -/
  | stationDeclare (mb : Nat)
  /-- STATION_REMOVE (R371): Steward command that removes a station at task boundaries. -/
  | stationRemove (mb : Nat)
  /-- TALLY_ALLOC (R337): Steward command that allocates a tally. -/
  | tallyAlloc (mb : Nat)
  /-- TALLY_FREE (R348): Steward command that frees an owned tally. -/
  | tallyFree (mb : Nat)
  /-- TALLY_SET (R338): Steward command that writes a tally's value and clears its stuck flags. -/
  | tallySet (mb : Nat)
  /-- TALLY_EXPORT (R348): Steward command that exports a tally to another context. -/
  | tallyExport (mb : Nat)
  /-- TALLY_IMPORT (R348): Steward command that imports an exported tally. -/
  | tallyImport (mb : Nat)
  /-- TALLY_RELEASE (R348): Steward command that releases an imported tally. -/
  | tallyRelease (mb : Nat)
  /-- TALLY_QUERY (R357): Steward command that returns a tally's value and flags. -/
  | tallyQuery (mb : Nat)
  /-- EPOCH_ALLOT (R246): Steward command that allots epochs to a context. -/
  | epochAllot (mb : Nat)
  /-- EPOCH_RETURN (R357): Steward command that returns allotted epochs. -/
  | epochReturn (mb : Nat)
  /-- PART_POLICY (R292): Steward command that reads or writes a partition policy record. -/
  | partPolicy (mb : Nat)
  /-- PART_CONFIG (R420): Steward command that configures a partition. -/
  | partConfig (mb : Nat)
  /-- PART_QUIESCE (R424): Steward command that quiesces a partition. -/
  | partQuiesce (mb : Nat)
  /-- PART_RESUME (R425): Steward command that resumes a quiesced partition. -/
  | partResume (mb : Nat)
  /-- PART_RESET (R426): Steward command that resets a partition. -/
  | partReset (mb : Nat)
  /-- PART_MOVE_HALLS (R427): Steward command that moves hall dies between partitions. -/
  | partMoveHalls (mb : Nat)
  /-- DEBUG_DUMP (R357): Steward command that returns a core's debug dump. -/
  | debugDump (mb : Nat)
  /-- DEBUG_RESUME (R357): Steward command that resumes a DEBUG-parked group. -/
  | debugResume (mb : Nat)
  /-- TABLE_READ (R357): Steward command that returns the entries of a walk. -/
  | tableRead (mb : Nat)
  /-- DOORBELL_STORE (R366): A store to a doorbell page announces a new tail to the queue engine. -/
  | doorbellStore (queue : Nat) (tail : BitVec 64)
  /-- QUEUE_COPY (R367): Queue entry that copies SRC to DST. -/
  | queueCopy (queue entry : Nat)
  /-- QUEUE_FILL (R367): Queue entry that fills DST with a pattern. -/
  | queueFill (queue entry : Nat)
  /-- QUEUE_TO_LARDER (R367): Queue entry that copies memory into an instance's larder. -/
  | queueToLarder (queue entry : Nat)
  /-- QUEUE_FROM_LARDER (R367): Queue entry that copies an instance's larder to memory. -/
  | queueFromLarder (queue entry : Nat)
  /-- QUEUE_WAIT (R368): Queue entry that waits until a tally reaches a threshold. -/
  | queueWait (queue entry : Nat)
  /-- QUEUE_RAISE (R367): Queue entry that adds an amount to a tally. -/
  | queueRaise (queue entry : Nat)
  /-- QUEUE_NOP (R367): Queue entry that does nothing. -/
  | queueNop (queue entry : Nat)
  /-- QUEUE_ENTRY_COMPLETE (R368): A queue entry completes, setting STATUS and DONE and raising its tally, or stopping the queue. -/
  | queueEntryComplete (queue entry : Nat)
  /-- QUEUE_SLOT_ROTATE (R373): Every 1 ms the queue engine rotates queue slots among waiting queues. -/
  | queueSlotRotate (part : Nat)
  /-- NOTIFY_BELL_WRITE (R366): The Steward writes a waiting bell record into a NOTIFY ring once room frees. -/
  | notifyBellWrite (watch : Nat)
  /-- BELL_TO_STEWARD (R345): A bell with RCV 10 is appended to the context's bell log. -/
  | bellToSteward (watch : Nat)
  /-- CONTEXT_EVICT (R372): The Steward evicts a resident context. -/
  | contextEvict (ctx : Nat)
  /-- RESIDENCY_RETURN (R372): The Steward returns a context with work to residency. -/
  | residencyReturn (ctx : Nat)
  /-- CONTEXT_LOSS (R374): The Steward marks a context LOST and sends CONTEXT_LOST. -/
  | contextLoss (ctx : Nat)
  /-- DESTROY_OVERRUN (R376): A destroy step overruns its bound and escalates to the partition level. -/
  | destroyOverrun (ctx : Nat)
  /-- SESSION_GRACE_EXPIRY (R377): The grace period ends and every context is destroyed. -/
  | sessionGraceExpiry
  /-- INSTANCE_PLACED (R432): A stranded instance is placed when resources free, with notice 0x8012. -/
  | instancePlaced (station inst core : Nat)
  /-- LINK_DOWN (R381): The Ethernet link goes down and the port retrains. -/
  | linkDown
  /-- LINK_UP (R378): The Ethernet link finishes training. -/
  | linkUp (mode : Nat)
  /-- FOREIGN_FRAME (R383): A frame not from the partner is dropped and counted. -/
  | foreignFrame
  /-- ARP_REQUEST (R384): The module answers ARP for MODULE_IP. -/
  | arpRequest (partner : Bool) (ip : BitVec 128)
  /-- ND_SOLICIT (R384): The module answers IPv6 Neighbor Discovery. -/
  | ndSolicit (partner : Bool) (ip : BitVec 128)
  /-- ICMP_ECHO (R384): The module answers an echo request within its rate. -/
  | icmpEcho (partner : Bool) (data : List (BitVec 8))
  /-- LLDP_TIMER (R384): The module sends an LLDP frame every 30 s. -/
  | lldpTimer
  /-- EAPOL_MKA (R385): An MKA frame is processed and may install a SAK. -/
  | eapolMka (sak : Bool)
  /-- PTP_SYNC (R389): A Sync message is accepted and device time is corrected. -/
  | ptpSync (master : Nat)
  /-- PTP_FOLLOW_UP (R387): A Follow_Up message is accepted. -/
  | ptpFollowUp (master : Nat)
  /-- PTP_DELAY_RESP (R387): A Delay_Resp message is accepted. -/
  | ptpDelayResp (delay : Int)
  /-- PTP_ANNOUNCE (R387): An Announce message is accepted. -/
  | ptpAnnounce (interval : Nat)
  /-- PTP_HOLDOVER (R390): The announce receipt timeout expires and device time enters holdover. -/
  | ptpHoldover
  /-- FOLEST_OPEN (R393): The partner's OPEN opens a session and the module answers ACCEPT. -/
  | folestOpen (f : Frame)
  /-- FOLEST_CLOSE (R394): The partner's CLOSE ends the session after earlier frames, answered by CLOSED. -/
  | folestClose (f : Frame)
  /-- FOLEST_RESET (R395): A RESET from the partner ends the session. -/
  | folestReset (f : Frame)
  /-- FOLEST_NOP (R394): A NOP command takes its sequence number. -/
  | folestNop (f : Frame)
  /-- MAILBOX (R402): A MAILBOX frame passes its message to the Steward. -/
  | mailboxFrame (f : Frame)
  /-- DMA_WRITE (R403): A DMA_WRITE frame writes bytes into context memory. -/
  | dmaWrite (f : Frame)
  /-- DMA_READ (R404): A DMA_READ frame reads context memory and queues a response. -/
  | dmaRead (f : Frame)
  /-- INGEST (R409): An INGEST frame writes records into a stream's slots and raises P. -/
  | ingest (f : Frame)
  /-- ACK (R399): An ACK frame from the partner acknowledges the module's frames. -/
  | ackFrame (f : Frame)
  /-- NACK (R401): A NACK from the partner makes the module resend a range. -/
  | nackFrame (f : Frame)
  /-- KEEPALIVE (R416): A KEEPALIVE from the partner keeps the session alive. -/
  | keepalive (f : Frame)
  /-- RETRANSMIT_TIMEOUT (R400): The retransmission timer expires and the oldest unacknowledged frame is resent. -/
  | retransmitTimeout
  /-- DELAYED_ACK (R399): The 2 µs delayed-acknowledgement timer sends an ACK frame. -/
  | delayedAck
  /-- KEEPALIVE_TIMER (R416): The module sends a KEEPALIVE after KEEPALIVE_MS of silence. -/
  | keepaliveTimer
  /-- SESSION_TIMEOUT (R416): No valid partner frame within SESSION_TIMEOUT_MS resets the session. -/
  | sessionTimeout
  /-- BINDING_IDLE (R407): An ingest binding idle for 10 s is released. -/
  | bindingIdle (tally : BitVec 32)
  /-- EGRESS_POST (R412): A store to an egress post line queues one event frame. -/
  | egressPost (ctx line : Nat) (data : List (BitVec 8))
  /-- EVENT_FRAME_SEND (R415): A queued event frame is sent when a session and the partner's window allow. -/
  | eventFrameSend (ctx : Nat)
  /-- IDENTIFY (R460): Sideband command that returns the module's identity. -/
  | identify (m : SbMsg)
  /-- STATE_READ (R483): Sideband command that returns module and partition states. -/
  | stateRead (m : SbMsg)
  /-- MODULE_RESET (R492): Sideband command that starts a cold, warm or Reeve reset. -/
  | moduleReset (m : SbMsg)
  /-- SENSOR_READ (R457): Sideband command that returns sensor readings. -/
  | sensorRead (m : SbMsg)
  /-- POWER_CAP (R464): Sideband command that reads or writes the power cap. -/
  | powerCap (m : SbMsg)
  /-- POLICY (R461): Sideband command that reads or writes a partition policy record. -/
  | policy (m : SbMsg)
  /-- POLICY_STATE (R470): Sideband command that returns island state words. -/
  | policyState (m : SbMsg)
  /-- COUNTER_READ (R472): Sideband command that reads performance counters. -/
  | counterRead (m : SbMsg)
  /-- LIFETIME_READ (R473): Sideband command that reads lifetime counters. -/
  | lifetimeRead (m : SbMsg)
  /-- HISTOGRAM_READ (R474): Sideband command that reads a histogram. -/
  | histogramRead (m : SbMsg)
  /-- LOG_READ (R475): Sideband command that reads event records. -/
  | logRead (m : SbMsg)
  /-- PROVISION (R382): Sideband command that reads or writes the provisioning record. -/
  | provision (m : SbMsg)
  /-- MACSEC_KEY (R385): Sideband command that writes the CAK and CKN. -/
  | macsecKey (m : SbMsg)
  /-- TIME_SET (R461): Sideband command that sets device time before the first PTP lock. -/
  | timeSet (m : SbMsg)
  /-- FW_BEGIN (R477): Sideband command that opens an update and erases the inactive slot. -/
  | fwBegin (m : SbMsg)
  /-- FW_WRITE (R477): Sideband command that writes bytes of the inactive slot. -/
  | fwWrite (m : SbMsg)
  /-- FW_VERIFY (R477): Sideband command that verifies the inactive slot. -/
  | fwVerify (m : SbMsg) (sig : Bool)
  /-- FW_ACTIVATE (R477): Sideband command that marks the verified slot for a trial boot. -/
  | fwActivate (m : SbMsg)
  /-- FW_STATUS (R477): Sideband command that reports slot and SVN state. -/
  | fwStatus (m : SbMsg)
  /-- ATTEST_QUOTE (R478): Sideband command that signs a quote over a nonce. -/
  | attestQuote (m : SbMsg)
  /-- ATTEST_CERT (R479): Sideband command that returns the endorsement. -/
  | attestCert (m : SbMsg)
  /-- MEASURE_READ (R480): Sideband command that returns measurement entries. -/
  | measureRead (m : SbMsg)
  /-- MCTP_CONTROL (R459): The Reeve answers an MCTP control message. -/
  | mctpControl (data : List (BitVec 8))
  /-- GET_PDR (R459): The Reeve answers a PLDM GetPDR request. -/
  | getPdr (id : Nat)
  /-- GET_SENSOR_READING (R459): The Reeve answers a PLDM GetSensorReading request. -/
  | getSensorReading (id : Nat)
  /-- GET_STATE_SENSOR_READINGS (R459): The Reeve answers a PLDM GetStateSensorReadings request. -/
  | getStateSensorReadings (id : Nat)
  /-- SENSOR_SAMPLE (R457): The Reeve samples a sensor at its period. -/
  | sensorSample (sensor : Nat) (value : Int)
  /-- POWER_CAP_INTERVAL (R464): Every 100 µs the power loop lowers or raises island clocks against the cap. -/
  | powerCapInterval (watts : Nat)
  /-- THERMAL_THROTTLE (R465): Every 100 µs the thermal loop throttles or restores hot islands. -/
  | thermalThrottle
  /-- RUN_AHEAD_POLICY (R467): Every 1 ms the Reeve halves or doubles each island's run-ahead cap. -/
  | runAheadPolicy
  /-- PLACEMENT_PROPOSAL (R468): Every 10 ms the Reeve proposes moves away from throttled islands. -/
  | placementProposal (station inst core : Nat)
  /-- GATING_INTERVAL (R469): Every 1 s the Reeve gates idle units. -/
  | gatingInterval (u : GateUnit)
  /-- REEVE_RESTART (R471): The Reeve watchdog expires and the Reeve restarts. -/
  | reeveRestart
  /-- LIFETIME_FLUSH (R473): Every 60 s lifetime counters and histograms are written to flash. -/
  | lifetimeFlush
  /-- HISTOGRAM_TICK (R474): Every second each histogram adds 1 to the bin of the current reading. -/
  | histogramTick
  /-- COMMONS_REPAIRED (R449): A commons repair finishes, clearing REPAIRING and releasing consumers. -/
  | commonsRepaired (obj block : Nat)
  /-- CORE_STATE_LOST (R443): An uncorrectable core-state error retires the core and loses its context. -/
  | coreStateLost (core : Nat)
  /-- TALLY_CORRUPT (R443): An uncorrectable tally error makes the tally abandoned. -/
  | tallyCorrupt (tally : Nat)
  /-- ENDPOINT_DEAD (R447): The Reeve declares an end point dead, seals it and loses the contexts that map it. -/
  | endpointDead (e : EndPoint)
  /-- MODULE_FAILED (R445): A module failure stops every island and marks every partition DOWN. -/
  | moduleFailed (status : BitVec 16)
  /-- RESET_OVERRUN (R426): PART_RESET overruns its bound and the module fails. -/
  | resetOverrun (part : Nat)
  /-- MOD_PWR_EN_RISE (R482): MOD_PWR_EN goes high and rail group 1 starts. -/
  | modPwrEnRise
  /-- MOD_PWR_EN_FALL (R495): MOD_PWR_EN goes low and the module powers down in order. -/
  | modPwrEnFall
  /-- MOD_RESET_ASSERT (R505): MOD_RESET_L goes low and the module holds the boot ROM. -/
  | modResetAssert
  /-- MOD_RESET_RELEASE (R492): MOD_RESET_L is released after 10 µs and a cold bring-up starts. -/
  | modResetRelease
  /-- BOOT_VERIFY (R482): The boot ROM verifies a firmware slot and starts rail groups 2 to 4. -/
  | bootVerify (sigA sigB : Bool)
  /-- RAIL_GROUP_UP (R481): Every rail of a group is in regulation and the next group starts. -/
  | railGroupUp (group : Nat)
  /-- RAIL_FAULT (R481): A rail misses its window within 20 ms and bring-up is HELD. -/
  | railFault (rail : Nat)
  /-- LINK_TRAIN (R486): A die-to-die link training attempt completes. -/
  | linkTrain (link : Nat) (ok : Bool)
  /-- LINK_RETRY (R486): After 50 ms a failed link is trained again or the module enters HELD. -/
  | linkRetry (link : Nat)
  /-- MEMORY_TRAINING_DONE (R487): HBM and LPDDR6 training completes, excluding failed groups. -/
  | memoryTrainingDone (badGroups badDies : List Nat)
  /-- CORE_TEST_DONE (R488): The built-in core test completes and failing cores stay disabled. -/
  | coreTestDone (bad : List Nat)
  /-- PARTITION_RESTORE (R489): The Steward applies stored partition records and the module becomes READY. -/
  | partitionRestore
  /-- BOOT_TRIAL_TIMEOUT (R477): A trial slot that does not reach ready in 30 s falls back to the other slot. -/
  | bootTrialTimeout
  /-- REFCLK_LOST (R491): REFCLK100 is lost and the module fails or holds in BOOT. -/
  | refclkLost
  /-- ETHREF_LOST (R491): ETHREF is lost and the port link goes down. -/
  | ethrefLost
  /-- ETHREF_RETURN (R491): ETHREF returns and the port retrains. -/
  | ethrefReturn
  /-- INPUT_FAULT (R499): Both blades fall below 38 V or one exceeds 62 V and every rail is removed. -/
  | inputFault
  /-- INPUT_RECOVERED (R499): Both blades are back in range for 100 ms and a cold bring-up starts. -/
  | inputRecovered
  /-- BLADE_LOST (R500): One blade falls below 38 V, clocks drop and the cap becomes 4.0 kW. -/
  | bladeLost (blade : Nat)
  /-- BLADE_RETURN (R500): The lost blade is in range for 1 s and the stored cap returns. -/
  | bladeReturn (blade : Nat)
  /-- THERMAL_TRIP (R512): A sensor reaches 115 °C, THERM_TRIP_L asserts and rail groups 2 to 4 are removed. -/
  | thermalTrip (sensor : Nat)
  /-- PPS_IN_EDGE (R389): A PPS_IN rising edge disciplines device time phase when PPS_REF is set. -/
  | ppsInEdge
  /-- PPS_OUT_PULSE (R506): PPS_OUT pulses at each whole second of device time. -/
  | ppsOutPulse
  /-- JTAG_BYPASS (R509): JTAG BYPASS instruction. -/
  | jtagBypass
  /-- JTAG_IDCODE (R509): JTAG IDCODE instruction returning 0x1640_0A4D. -/
  | jtagIdcode
  /-- JTAG_SAMPLE_PRELOAD (R509): JTAG SAMPLE/PRELOAD instruction. -/
  | jtagSamplePreload
  /-- JTAG_EXTEST (R509): JTAG EXTEST on the connector pins while MOD_RESET_L is low. -/
  | jtagExtest (pins : BitVec 96)
  /-- ILLEGAL_OPCODE (R83): An instruction word whose major opcode or FN is not in Table 4-12, or whose EXT bit is wrong, raises ILLEGAL_OPCODE and parks the group. -/
  | illegalOpcode (g : Grp) (w : BitVec 64) (x : Option (BitVec 64))
  /-- QUEUE_WAIT_RETRY (R368): When no watch was free for a WAIT entry, the queue engine retries the registration every 10 µs. -/
  | queueWaitRetry (queue : Nat)
  /-- DELAY_REQ_TIMER (R387): The module sends a PTP Delay_Req message as a one-step clock at its delay request interval. -/
  | delayReqTimer
  /-- MKA_PEER_LOST (R386): The MKA peer stops being live, and the module sends and accepts only EAPOL-MKA frames until a SAK is installed again. -/
  | mkaPeerLost
  /-- INPUT_POWER_APPLIED (R498): With MOD_PWR_EN already high, rail group 1 starts 5 ms after the bulk capacitance is charged and the input reaches 40.0 V. -/
  | inputPowerApplied
  /-- DYNAMIC_ADDRESS_ASSIGNMENT (R458): The I3C bus owner assigns the Reeve's dynamic address on the sideband. -/
  | dynamicAddressAssignment (addr : BitVec 7)
  /-- RX_FRAME_DROPPED (R380): A received frame that is too long, tagged, fails its FCS, fails MACsec, or is a non-Folest protocol the module does not answer is dropped and counted. -/
  | rxFrameDropped (cause : DropCause)
  /-- JTAG_TRST (R509): JTAG_TRST_L going low resets the IEEE 1149.1 TAP. -/
  | jtagTrst
  deriving DecidableEq, Repr

end Sys2Proof
end

