-- ==== Sys2Proof/WellFormed.lean ====
section
/-! DEFINITION. The ranges a command's operands must lie in: they name things the module has (R13 to R18, R47, R332,
R352). A command outside them names nothing, and the machine lets it pass without effect (log entry 4). -/

namespace Sys2Proof

/-- A group slot the module has (R15, R47). -/
def Grp.wf (g : Grp) : Bool := decide (g.core < Config.cores) && decide (g.slot < Config.slots)

/-- An extension word is present exactly where the format R fields say so; the length of an instruction is 8 or 16
bytes (R81). -/
def RI.ext : RI → Option (BitVec 64)
  | .r f => f.ext
  | .i f => f.ext

/-- A gating unit the module has (R231, R248, R262, R268). -/
def GateUnit.wf : GateUnit → Bool
  | .binBank h b => decide (h < 12) && decide (b < 128)
  | .cacheWay h w => decide (h < 12) && decide (w < 128)
  | .poolWay h => decide (h < 12)
  | .hbmGroup g => decide (g < 96)

/-- A translation structure the module has (*Table 10-9*). -/
def TlbStruct.wf : TlbStruct → Bool
  | .core c => decide (c < Config.cores)
  | .island i => decide (i < 528)
  | .hall h => decide (h < 12)
  | .engine h n => decide (h < 12) && decide (n < 8)
  | .folest => true

/-- An end point the module has (*Table 16-4*). -/
def EndPoint.wf : EndPoint → Bool
  | .hbmGroup g => decide (g < 96)
  | .cellarDevice d k => decide (d < 2) && decide (k < 16)
  | .binBank h b => decide (h < 12) && decide (b < 128)
  | .tallySlice h => decide (h < 12)

/-- The command's operands name things the module has. -/
def Instr.wellFormed : Instr → Bool
  | .sadd g _ | .ssub g _ | .smul g _ | .smulhu g _ | .smulhs g _ | .sdivu g _ | .sdivs g _ | .sremu g _
  | .srems g _ | .sand g _ | .sor g _ | .sxor g _ | .sandn g _ | .sshl g _ | .sshr g _ | .ssar g _ | .sror g _
  | .smin g _ | .smax g _ | .sminu g _ | .smaxu g _ | .sslt g _ | .ssltu g _ | .sseq g _ | .smov g _
  | .spopc g _ | .sclz g _ | .sctz g _ | .spget g _ | .spset g _ | .srdcr g _ | .wrcr g _ | .vadd g _
  | .vsub g _ | .vmul g _ | .vmulhu g _ | .vmulhs g _ | .vmin g _ | .vmax g _ | .vminu g _ | .vmaxu g _
  | .vand g _ | .vor g _ | .vxor g _ | .vandn g _ | .vshl g _ | .vshr g _ | .vsar g _ | .vpopc g _ | .vclz g _
  | .vbrev g _ | .vfadd g _ | .vfsub g _ | .vfmul g _ | .vffma g _ | .vfmin g _ | .vfmax g _ | .vfabs g _
  | .vfneg g _ | .vfcpys g _ | .vcmp g _ _ | .vcvt g _ _ | .vmov g _ | .vsel g _ | .vlane g _ | .vget g _
  | .vshfl g _ | .vbcast g _ | .vany g _ | .vall g _ | .vballot g _ | .vredAdd g _ | .vredFadd g _ | .vdadd g _
  | .vdsub g _ | .vdmul g _ | .vdfma g _ | .vdmin g _ | .vdmax g _ | .vdabs g _ | .vdneg g _ | .vfdiv g _
  | .vfsqrt g _ | .vddiv g _ | .vdsqrt g _ | .vidivu g _ | .vidivs g _ | .viremu g _ | .virems g _
  | .vdcvt g _ _ | .vdcmp g _ _ | .ld g _ | .st g _ | .sld g _ | .sst g _ | .atom g _ | .satom g _ | .pf g _
  | .lld g _ | .lst g _ | .lldR g _ | .lstR g _ | .mldS g _ | .mmaW g _ | .mmaA g _ | .maccRd g _ | .maccWr g _
  | .sivIsect g _ | .sivUnion g _ | .sivDiff g _ | .sivProbe g _ | .sivGather g _ | .sivScatter g _
  | .tlyAdd g _ | .tlySub g _ | .tlySetmax g _ | .tlyRead g _ | .tlyWatch g _ | .tlyCancel g _ | .bra g _
  | .call g _ | .brx g _ | .callx g _ | .ret g _ | .exitOp g _ | .yield g _ | .spin g _ | .barG g _
  | .fenceOrd g _ | .fenceSeq g _ | .fenceDone g _ | .brk g _ | .pathSwitch g _ | .spinTimeout g _
  | .missNotice g _ | .loadDataArrival g _ | .runAheadLimit g | .parkComplete g | .writeAck g _
  | .fenceEndpointLost g _ | .illegalOpcode g _ _ => g.wf
  | .barrierStall g b => g.wf && decide (b < 8)
  | .groupWake _ | .dmaTransferComplete _ _ | .patrolScrub _ _ _ | .pageMoveRequest _ _ | .pageCopyDone _
  | .moveAbandoned _ | .noticeSend | .doorbellStore _ _ | .queueCopy _ _ | .queueFill _ _ | .queueToLarder _ _
  | .queueFromLarder _ _ | .queueWait _ _ | .queueRaise _ _ | .queueNop _ _ | .queueEntryComplete _ _
  | .notifyBellWrite _ | .bellToSteward _ | .sessionGraceExpiry | .linkDown | .linkUp _ | .foreignFrame
  | .arpRequest _ _ | .ndSolicit _ _ | .icmpEcho _ _ | .lldpTimer | .eapolMka _ | .ptpSync _ | .ptpFollowUp _
  | .ptpDelayResp _ | .ptpAnnounce _ | .ptpHoldover | .folestOpen _ | .folestClose _ | .folestReset _
  | .folestNop _ | .mailboxFrame _ | .dmaWrite _ | .dmaRead _ | .ingest _ | .ackFrame _ | .nackFrame _
  | .keepalive _ | .retransmitTimeout | .delayedAck | .keepaliveTimer | .sessionTimeout | .bindingIdle _
  | .identify _ | .stateRead _ | .moduleReset _ | .sensorRead _ | .powerCap _ | .policy _ | .policyState _
  | .counterRead _ | .lifetimeRead _ | .histogramRead _ | .logRead _ | .provision _ | .macsecKey _ | .timeSet _
  | .fwBegin _ | .fwWrite _ | .fwVerify _ _ | .fwActivate _ | .fwStatus _ | .attestQuote _ | .attestCert _
  | .measureRead _ | .mctpControl _ | .getPdr _ | .getSensorReading _ | .getStateSensorReadings _
  | .sensorSample _ _ | .powerCapInterval _ | .thermalThrottle | .runAheadPolicy | .reeveRestart
  | .lifetimeFlush | .histogramTick | .commonsRepaired _ _ | .tallyCorrupt _ | .moduleFailed _ | .modPwrEnRise
  | .modPwrEnFall | .modResetAssert | .modResetRelease | .bootVerify _ _ | .railGroupUp _ | .railFault _
  | .linkTrain _ _ | .linkRetry _ | .memoryTrainingDone _ _ | .coreTestDone _ | .partitionRestore
  | .bootTrialTimeout | .refclkLost | .ethrefLost | .ethrefReturn | .inputFault | .inputRecovered
  | .bladeLost _ | .bladeReturn _ | .thermalTrip _ | .ppsInEdge | .ppsOutPulse | .jtagBypass | .jtagIdcode
  | .jtagSamplePreload | .jtagExtest _ | .queueWaitRetry _ | .delayReqTimer | .mkaPeerLost | .inputPowerApplied
  | .dynamicAddressAssignment _ | .rxFrameDropped _ | .jtagTrst => true
  | .replay _ _ i g => decide (i < Config.slots) && g.wf
  | .instanceMigrate _ _ c | .coreRetire c | .storeDrain c _ | .millOpStart c | .millBlockDrain c
  | .millRescaleRetry c | .millComplete c _ | .millFault c _ | .sieveComplete c | .sieveFault c _ | .gets c _
  | .getm c _ | .upgrade c _ | .pute c _ | .putm c _ | .invMsg c _ | .fwdgets c _ | .fwdgetm c _ | .invack c _
  | .dataMsg c _ _ | .datahome c _ | .datainflight c _ | .doneMsg c _ | .instancePlaced _ _ c
  | .placementProposal _ _ c | .coreStateLost c => decide (c < Config.cores)
  | .nearStoreAtomic c h => decide (c < Config.cores) && decide (h < 12)
  | .homeRead _ _ x _ _ _ | .homeWrite _ _ x _ _ _ | .contextEvict x | .residencyReturn x | .contextLoss x
  | .destroyOverrun x | .egressPost x _ _ | .eventFrameSend x => decide (x < 4096)
  | .fillSectorArrival h _ k _ => decide (h < 12) && decide (k < 4)
  | .victimWriteAccepted h _ | .poolFold h => decide (h < 12)
  | .poolWrite x e _ _ => decide (x < 4096) && decide (e < 64)
  | .epochOpen p | .epochCommit p | .epochDiscard p | .epochCommandRefused p | .tierInterval p
  | .coherenceError p _ _ | .queueSlotRotate p | .resetOverrun p => decide (p < 12)
  | .epochSliceApply p e h | .epochSliceAck p e h => decide (p < 12) && decide (e < 64) && decide (h < 12)
  | .unitSeal u | .unitDrainDone u | .unitUngate u | .gatingInterval u => u.wf
  | .pageWalk t x _ => t.wf && decide (x < 4096)
  | .shootdown _ t | .shootdownAck _ t => t.wf
  | .refreshAdjust k => decide (k < 24)
  | .regulatorWindow r p _ => decide (r < 26) && decide (p < 12)
  | .capRead m | .noticeAck m | .sessionGrace m | .ctxCreate m | .ctxDestroy m | .ctxQuery m | .ctxSet m
  | .bellLogRead m | .parkRead m | .memCreate m | .memMap m | .memUnmap m | .memShare m | .memRelease m
  | .memQuery m | .commonsCreate m | .commonsFill m | .commonsSeal m | .commonsFree m | .queueCreate m
  | .queueDestroy m | .queueDoorbell m | .queueQuery m | .stationDeclare m | .stationRemove m | .tallyAlloc m
  | .tallyFree m | .tallySet m | .tallyExport m | .tallyImport m | .tallyRelease m | .tallyQuery m
  | .epochAllot m | .epochReturn m | .partPolicy m | .partConfig m | .partQuiesce m | .partResume m
  | .partReset m | .partMoveHalls m | .debugDump m | .debugResume m | .tableRead m => decide (m < 64)
  | .endpointDead e => e.wf

end Sys2Proof
end

