-- ==== Sys2Proof/Decode.lean ====
section
/-! DEFINITION. The words of the core instructions (chapter 4): fields, formats, the opcode table of *Table 4-12* in its
FN order, an encoder beside the decoder, and the table's own words, of which there are none. -/

namespace Sys2Proof

/-- No row of the table of operations gives bits, so no word spells a command (log entry 5). -/
def decodeTableWord (_nbits _w : Nat) : Option Instr := none

/-! ## Fields (R87, *Tables 4-2 to 4-5*) -/

def opcOf (w : BitVec 64) : Nat := (w.extractLsb' 56 8).toNat
def extOf (w : BitVec 64) : Bool := w.getLsbD 55
def fnOf (w : BitVec 64) : Nat := (w.extractLsb' 45 6).toNat

def rFields (w : BitVec 64) (x : Option (BitVec 64)) : RWord :=
  { ext := x, gp := w.extractLsb' 52 3, gn := w.getLsbD 51, c := w.extractLsb' 36 9, b := w.extractLsb' 27 9,
    a := w.extractLsb' 18 9, dst := w.extractLsb' 9 9, mod := w.extractLsb' 0 9 }

def iFields (w : BitVec 64) (x : Option (BitVec 64)) : IWord :=
  { ext := x, gp := w.extractLsb' 52 3, gn := w.getLsbD 51, imm := w.extractLsb' 27 18, a := w.extractLsb' 18 9,
    dst := w.extractLsb' 9 9, mod := w.extractLsb' 0 9 }

def mFields (w : BitVec 64) (x : Option (BitVec 64)) : MWord :=
  { ext := x, gp := w.extractLsb' 52 3, gn := w.getLsbD 51, sz := w.extractLsb' 48 3, mark := w.extractLsb' 46 2,
    scope := w.extractLsb' 44 2, base := w.extractLsb' 38 6, index := w.extractLsb' 29 9, data := w.extractLsb' 20 9,
    scale := w.extractLsb' 18 2, imm := w.extractLsb' 0 18 }

def bFields (w : BitVec 64) (x : Option (BitVec 64)) : BWord :=
  { ext := x, gp := w.extractLsb' 52 3, gn := w.getLsbD 51, hi := w.extractLsb' 45 6, tgt := w.extractLsb' 23 22,
    rcv := w.extractLsb' 1 22, lo := w.extractLsb' 0 1 }

def encR (opc : BitVec 8) (fn : BitVec 6) (f : RWord) : BitVec 64 :=
  opc ++ (if f.ext.isSome then 1#1 else 0#1) ++ f.gp ++ (if f.gn then 1#1 else 0#1) ++ fn ++ f.c ++ f.b ++ f.a ++ f.dst ++ f.mod

def encI (opc : BitVec 8) (fn : BitVec 6) (f : IWord) : BitVec 64 :=
  opc ++ (if f.ext.isSome then 1#1 else 0#1) ++ f.gp ++ (if f.gn then 1#1 else 0#1) ++ fn ++ f.imm ++ f.a ++ f.dst ++ f.mod

def encM (opc : BitVec 8) (f : MWord) : BitVec 64 :=
  opc ++ (if f.ext.isSome then 1#1 else 0#1) ++ f.gp ++ (if f.gn then 1#1 else 0#1) ++ f.sz ++ f.mark ++ f.scope ++
  f.base ++ f.index ++ f.data ++ f.scale ++ f.imm

def encB (opc : BitVec 8) (f : BWord) : BitVec 64 :=
  opc ++ (if f.ext.isSome then 1#1 else 0#1) ++ f.gp ++ (if f.gn then 1#1 else 0#1) ++ f.hi ++ f.tgt ++ f.rcv ++ f.lo

/-! ## The opcode table, each opcode's mnemonics in FN order (*Table 4-12*) -/

abbrev MkRI := Grp → RI → Instr
abbrev MkR := Grp → RWord → Instr

def condsInOrder : List Cond := [.eq, .ne, .lt, .le, .gt, .ge, .ltu, .geu, .un, .ord]

/-- Opcodes 0x01 to 0x04, 0x10 and 0x11, and their format-I twins 0x41 to 0x44, 0x50 and 0x51 (R88). -/
def mk01 : List MkRI := [.sadd, .ssub, .smul, .smulhu, .smulhs, .sdivu, .sdivs, .sremu, .srems]
def mk02 : List MkRI := [.sand, .sor, .sxor, .sandn, .sshl, .sshr, .ssar, .sror]
def mk03 : List MkRI := [.smin, .smax, .sminu, .smaxu, .sslt, .ssltu, .sseq]
def mk04 : List MkRI := [.smov, .spopc, .sclz, .sctz, .spget, .spset]
def mk10 : List MkRI := [.vadd, .vsub, .vmul, .vmulhu, .vmulhs, .vmin, .vmax, .vminu, .vmaxu]
def mk11 : List MkRI := [.vand, .vor, .vxor, .vandn, .vshl, .vshr, .vsar, .vpopc, .vclz, .vbrev]
def mk12 : List MkR := [.vfadd, .vfsub, .vfmul, .vffma, .vfmin, .vfmax, .vfabs, .vfneg, .vfcpys]
def mk13 : List MkR := condsInOrder.map fun c g f => .vcmp g c f
def mk14 : List MkR := (List.range 7).map fun n g f => .vcvt g (BitVec.ofNat 4 n) f
def mk15 : List MkR := [.vmov, .vsel, .vlane, .vget]
def mk16 : List MkR := [.vshfl, .vbcast, .vany, .vall, .vballot, .vredAdd, .vredFadd]
def mk20 : List MkR := [.vdadd, .vdsub, .vdmul, .vdfma, .vdmin, .vdmax, .vdabs, .vdneg]
def mk21 : List MkR := [.vfdiv, .vfsqrt, .vddiv, .vdsqrt, .vidivu, .vidivs, .viremu, .virems]
def mk22 : List MkR := (List.range 11).map fun n g f => .vdcvt g (BitVec.ofNat 4 n) f
def mk22b : List MkR := condsInOrder.map fun c g f => .vdcmp g c f
def mk34 : List MkR := [.mldS, .mmaW, .mmaA]
def mk34b : List MkR := [.maccRd, .maccWr]
def mk35 : List MkR := [.sivIsect, .sivUnion, .sivDiff, .sivProbe, .sivGather, .sivScatter]
def mk38 : List MkR := [.tlyAdd, .tlySub, .tlySetmax, .tlyRead, .tlyWatch, .tlyCancel]
def mk3B : List MkR := [.brx, .callx, .ret, .exitOp, .yield, .spin, .barG]
def mk3C : List MkR := [.fenceOrd, .fenceSeq, .fenceDone]

/-- The format-M opcodes 0x28 to 0x32. -/
def mkM : List (Grp → MWord → Instr) := [.ld, .st, .sld, .sst, .atom, .satom, .pf, .lld, .lst, .lldR, .lstR]

/-- Where the extension word stands: forbidden, allowed, required (R83, *Table 4-6*). -/
inductive ExtRule where
  | never | may | must
  deriving DecidableEq, Repr

/-- The rule of an opcode and FN. -/
def extRule (opc fn : Nat) : ExtRule :=
  if opc = 0x2C ∨ opc = 0x2D then .must
  else if opc = 0x3B then (if fn = 0 ∨ fn = 2 then .must else .never)
  else if opc ≤ 0x04 ∨ (0x10 ≤ opc ∧ opc ≤ 0x13) ∨ opc = 0x15 ∨ opc = 0x16 then .may
  else if 0x41 ≤ opc ∨ opc = 0x05 ∨ opc = 0x3D ∨ opc = 0x38 ∨ opc = 0x39 ∨ opc = 0x3A then .may
  else if 0x28 ≤ opc ∧ opc ≤ 0x32 then .may
  else .never

def extOk (opc fn : Nat) (present : Bool) : Bool :=
  match extRule opc fn with
  | .never => !present
  | .may => true
  | .must => present

/-- Is this opcode and FN of format R, and what does it make? -/
def mkR? (opc fn : Nat) : Option MkR :=
  match opc with
  | 0x12 => mk12[fn]?
  | 0x13 => mk13[fn]?
  | 0x14 => mk14[fn]?
  | 0x15 => mk15[fn]?
  | 0x16 => mk16[fn]?
  | 0x20 => mk20[fn]?
  | 0x21 => mk21[fn]?
  | 0x22 => if fn < 16 then mk22[fn]? else mk22b[fn - 16]?
  | 0x34 => if fn < 8 then mk34[fn]? else mk34b[fn - 8]?
  | 0x35 => mk35[fn]?
  | 0x38 => mk38[fn]?
  | 0x3B => mk3B[fn]?
  | 0x3C => mk3C[fn]?
  | 0x3E => if fn = 0 then some Instr.brk else none
  | _ => none

/-- The originals of the format-I twins. -/
def mkRI? (opc fn : Nat) : Option MkRI :=
  match opc with
  | 0x01 => mk01[fn]?
  | 0x02 => mk02[fn]?
  | 0x03 => mk03[fn]?
  | 0x04 => mk04[fn]?
  | 0x10 => mk10[fn]?
  | 0x11 => mk11[fn]?
  | _ => none

/-- The instruction of a base word and the extension word that follows it when EXT is set; none where R83 gives
ILLEGAL_OPCODE. -/
def decodeCore (g : Grp) (w : BitVec 64) (x : Option (BitVec 64)) : Option Instr :=
  let opc := opcOf w
  let fn := fnOf w
  if extOf w != x.isSome then none
  else if 0x28 ≤ opc ∧ opc ≤ 0x32 then
    if extOk opc 0 x.isSome then (mkM[opc - 0x28]?).map fun c => c g (mFields w x) else none
  else if opc = 0x39 then some (.bra g (bFields w x))
  else if opc = 0x3A then some (.call g (bFields w x))
  else if !extOk opc fn x.isSome then none
  else if opc = 0x05 then (if fn = 0 then some (.srdcr g (iFields w x)) else none)
  else if opc = 0x3D then (if fn = 0 then some (.wrcr g (iFields w x)) else none)
  else if 0x41 ≤ opc then (mkRI? (opc - 0x40) fn).map fun c => c g (.i (iFields w x))
  else match mkRI? opc fn with
    | some c => some (c g (.r (rFields w x)))
    | none => (mkR? opc fn).map fun c => c g (rFields w x)

def encRI (opc : BitVec 8) (fn : BitVec 6) : RI → BitVec 64 × Option (BitVec 64)
  | .r f => (encR opc fn f, f.ext)
  | .i f => (encI (opc + 0x40) fn f, f.ext)

/-- The FN of a condition (*Table 4-12*). -/
def Cond.fn : Cond → BitVec 6
  | .eq => 0
  | .ne => 1
  | .lt => 2
  | .le => 3
  | .gt => 4
  | .ge => 5
  | .ltu => 6
  | .geu => 7
  | .un => 8
  | .ord => 9

/-- The words of a core instruction; none for the other commands, which have no words. -/
def encodeCore : Instr → Option (BitVec 64 × Option (BitVec 64))
  | .sadd _ f => some (encRI 0x01 0 f)
  | .ssub _ f => some (encRI 0x01 1 f)
  | .smul _ f => some (encRI 0x01 2 f)
  | .smulhu _ f => some (encRI 0x01 3 f)
  | .smulhs _ f => some (encRI 0x01 4 f)
  | .sdivu _ f => some (encRI 0x01 5 f)
  | .sdivs _ f => some (encRI 0x01 6 f)
  | .sremu _ f => some (encRI 0x01 7 f)
  | .srems _ f => some (encRI 0x01 8 f)
  | .sand _ f => some (encRI 0x02 0 f)
  | .sor _ f => some (encRI 0x02 1 f)
  | .sxor _ f => some (encRI 0x02 2 f)
  | .sandn _ f => some (encRI 0x02 3 f)
  | .sshl _ f => some (encRI 0x02 4 f)
  | .sshr _ f => some (encRI 0x02 5 f)
  | .ssar _ f => some (encRI 0x02 6 f)
  | .sror _ f => some (encRI 0x02 7 f)
  | .smin _ f => some (encRI 0x03 0 f)
  | .smax _ f => some (encRI 0x03 1 f)
  | .sminu _ f => some (encRI 0x03 2 f)
  | .smaxu _ f => some (encRI 0x03 3 f)
  | .sslt _ f => some (encRI 0x03 4 f)
  | .ssltu _ f => some (encRI 0x03 5 f)
  | .sseq _ f => some (encRI 0x03 6 f)
  | .smov _ f => some (encRI 0x04 0 f)
  | .spopc _ f => some (encRI 0x04 1 f)
  | .sclz _ f => some (encRI 0x04 2 f)
  | .sctz _ f => some (encRI 0x04 3 f)
  | .spget _ f => some (encRI 0x04 4 f)
  | .spset _ f => some (encRI 0x04 5 f)
  | .vadd _ f => some (encRI 0x10 0 f)
  | .vsub _ f => some (encRI 0x10 1 f)
  | .vmul _ f => some (encRI 0x10 2 f)
  | .vmulhu _ f => some (encRI 0x10 3 f)
  | .vmulhs _ f => some (encRI 0x10 4 f)
  | .vmin _ f => some (encRI 0x10 5 f)
  | .vmax _ f => some (encRI 0x10 6 f)
  | .vminu _ f => some (encRI 0x10 7 f)
  | .vmaxu _ f => some (encRI 0x10 8 f)
  | .vand _ f => some (encRI 0x11 0 f)
  | .vor _ f => some (encRI 0x11 1 f)
  | .vxor _ f => some (encRI 0x11 2 f)
  | .vandn _ f => some (encRI 0x11 3 f)
  | .vshl _ f => some (encRI 0x11 4 f)
  | .vshr _ f => some (encRI 0x11 5 f)
  | .vsar _ f => some (encRI 0x11 6 f)
  | .vpopc _ f => some (encRI 0x11 7 f)
  | .vclz _ f => some (encRI 0x11 8 f)
  | .vbrev _ f => some (encRI 0x11 9 f)
  | .vfadd _ f => some (encR 0x12 0 f, f.ext)
  | .vfsub _ f => some (encR 0x12 1 f, f.ext)
  | .vfmul _ f => some (encR 0x12 2 f, f.ext)
  | .vffma _ f => some (encR 0x12 3 f, f.ext)
  | .vfmin _ f => some (encR 0x12 4 f, f.ext)
  | .vfmax _ f => some (encR 0x12 5 f, f.ext)
  | .vfabs _ f => some (encR 0x12 6 f, f.ext)
  | .vfneg _ f => some (encR 0x12 7 f, f.ext)
  | .vfcpys _ f => some (encR 0x12 8 f, f.ext)
  | .vmov _ f => some (encR 0x15 0 f, f.ext)
  | .vsel _ f => some (encR 0x15 1 f, f.ext)
  | .vlane _ f => some (encR 0x15 2 f, f.ext)
  | .vget _ f => some (encR 0x15 3 f, f.ext)
  | .vshfl _ f => some (encR 0x16 0 f, f.ext)
  | .vbcast _ f => some (encR 0x16 1 f, f.ext)
  | .vany _ f => some (encR 0x16 2 f, f.ext)
  | .vall _ f => some (encR 0x16 3 f, f.ext)
  | .vballot _ f => some (encR 0x16 4 f, f.ext)
  | .vredAdd _ f => some (encR 0x16 5 f, f.ext)
  | .vredFadd _ f => some (encR 0x16 6 f, f.ext)
  | .vdadd _ f => some (encR 0x20 0 f, f.ext)
  | .vdsub _ f => some (encR 0x20 1 f, f.ext)
  | .vdmul _ f => some (encR 0x20 2 f, f.ext)
  | .vdfma _ f => some (encR 0x20 3 f, f.ext)
  | .vdmin _ f => some (encR 0x20 4 f, f.ext)
  | .vdmax _ f => some (encR 0x20 5 f, f.ext)
  | .vdabs _ f => some (encR 0x20 6 f, f.ext)
  | .vdneg _ f => some (encR 0x20 7 f, f.ext)
  | .vfdiv _ f => some (encR 0x21 0 f, f.ext)
  | .vfsqrt _ f => some (encR 0x21 1 f, f.ext)
  | .vddiv _ f => some (encR 0x21 2 f, f.ext)
  | .vdsqrt _ f => some (encR 0x21 3 f, f.ext)
  | .vidivu _ f => some (encR 0x21 4 f, f.ext)
  | .vidivs _ f => some (encR 0x21 5 f, f.ext)
  | .viremu _ f => some (encR 0x21 6 f, f.ext)
  | .virems _ f => some (encR 0x21 7 f, f.ext)
  | .mldS _ f => some (encR 0x34 0 f, f.ext)
  | .mmaW _ f => some (encR 0x34 1 f, f.ext)
  | .mmaA _ f => some (encR 0x34 2 f, f.ext)
  | .sivIsect _ f => some (encR 0x35 0 f, f.ext)
  | .sivUnion _ f => some (encR 0x35 1 f, f.ext)
  | .sivDiff _ f => some (encR 0x35 2 f, f.ext)
  | .sivProbe _ f => some (encR 0x35 3 f, f.ext)
  | .sivGather _ f => some (encR 0x35 4 f, f.ext)
  | .sivScatter _ f => some (encR 0x35 5 f, f.ext)
  | .tlyAdd _ f => some (encR 0x38 0 f, f.ext)
  | .tlySub _ f => some (encR 0x38 1 f, f.ext)
  | .tlySetmax _ f => some (encR 0x38 2 f, f.ext)
  | .tlyRead _ f => some (encR 0x38 3 f, f.ext)
  | .tlyWatch _ f => some (encR 0x38 4 f, f.ext)
  | .tlyCancel _ f => some (encR 0x38 5 f, f.ext)
  | .brx _ f => some (encR 0x3B 0 f, f.ext)
  | .callx _ f => some (encR 0x3B 1 f, f.ext)
  | .ret _ f => some (encR 0x3B 2 f, f.ext)
  | .exitOp _ f => some (encR 0x3B 3 f, f.ext)
  | .yield _ f => some (encR 0x3B 4 f, f.ext)
  | .spin _ f => some (encR 0x3B 5 f, f.ext)
  | .barG _ f => some (encR 0x3B 6 f, f.ext)
  | .fenceOrd _ f => some (encR 0x3C 0 f, f.ext)
  | .fenceSeq _ f => some (encR 0x3C 1 f, f.ext)
  | .fenceDone _ f => some (encR 0x3C 2 f, f.ext)
  | .brk _ f => some (encR 0x3E 0 f, f.ext)
  | .maccRd _ f => some (encR 0x34 8 f, f.ext)
  | .maccWr _ f => some (encR 0x34 9 f, f.ext)
  | .vcmp _ c f => some (encR 0x13 c.fn f, f.ext)
  | .vdcmp _ c f => some (encR 0x22 (c.fn + 16) f, f.ext)
  | .vcvt _ t f => some (encR 0x14 (t.setWidth 6) f, f.ext)
  | .vdcvt _ t f => some (encR 0x22 (t.setWidth 6) f, f.ext)
  | .srdcr _ f => some (encI 0x05 0 f, f.ext)
  | .wrcr _ f => some (encI 0x3D 0 f, f.ext)
  | .bra _ f => some (encB 0x39 f, f.ext)
  | .call _ f => some (encB 0x3A f, f.ext)
  | .ld _ f => some (encM 0x28 f, f.ext)
  | .st _ f => some (encM 0x29 f, f.ext)
  | .sld _ f => some (encM 0x2A f, f.ext)
  | .sst _ f => some (encM 0x2B f, f.ext)
  | .atom _ f => some (encM 0x2C f, f.ext)
  | .satom _ f => some (encM 0x2D f, f.ext)
  | .pf _ f => some (encM 0x2E f, f.ext)
  | .lld _ f => some (encM 0x2F f, f.ext)
  | .lst _ f => some (encM 0x30 f, f.ext)
  | .lldR _ f => some (encM 0x31 f, f.ext)
  | .lstR _ f => some (encM 0x32 f, f.ext)
  | _ => none

end Sys2Proof
end

