-- ==== Sys2Proof/Machine/State.lean ====
section
/-! DEFINITION. The state of one QZ6400 module as plain data, the reasons a step can stop, and the state after reset.
A `Table` is a list of (key, value) pairs with strictly rising keys in which the default value is never listed; the
operations over it stand in Machine/Bits.lean. Fields marked MODEL are the model's own bookkeeping (log entry named). -/

namespace Sys2Proof.Machine

abbrev Table (α : Type) := List (Nat × α)

/-! ## Cores (chapters 3 to 8) -/

/-- The kind of a divergence stack entry (*Table 3-4*). A BARRIER entry remembers its identifier, a WATCH entry its
watch and the operand that receives the bell status, a SPIN entry the line it waits on, or none once an event of R62
has woken it. -/
inductive PathKind where
  | run
  | join
  | barrier (id : Nat)
  | watch (watch : Nat) (dst : BitVec 9)
  | spin (line : Option Nat)
  deriving DecidableEq, Repr

/-- What became of a path's last issue opportunity (R59): nothing that bars it; it could not issue, with the operand codes
whose values had not arrived, if that was why; or it stood at a backward branch with its turn used up. -/
inductive Turn where
  | go
  | stalled (regs : List Nat)
  | backward
  deriving DecidableEq, Repr

/-- A divergence stack entry (*Table 3-4*, R55 to R59). -/
structure Path where
  pc : VAddr
  mask : BitVec 32
  parent : Option Nat
  kind : PathKind
  wait : Nat
  turn : Turn
  deriving DecidableEq, Repr

/-- The state of one group barrier: arrived threads, and the watchdog count as it stood when the cycle count of the core's
island was `since` (R64 to R66). -/
structure Barrier where
  arrived : BitVec 32
  count : Nat
  since : Nat
  deriving DecidableEq, Repr

/-- What a park takes a group back to when a load has not completed: the group's own state when that load issued (R72).
MODEL: kept with the load (log entry 9). -/
structure Snap where
  live : W32
  barWdog : Nat
  runAheadMax : BitVec 12
  bars : Table Barrier
  preds : Table W32
  sregs : Table W64
  vfile : Table Line
  stack : Table Path
  active : Option Nat
  opp : Nat
  deriving DecidableEq, Repr

/-- A load whose data is not yet in the core (R67, R69, R241): its destination, and for each lane the address; bytes
already forwarded from the store buffer (R305) are kept in `known`; `noticed` once its home has sent a miss notice. -/
structure PendingLoad where
  id : Nat
  seq : Nat
  pc : VAddr
  dst : BitVec 9
  sz : BitVec 3
  scalar : Bool
  addrs : List (Nat × VAddr × PAddr)
  known : List Host.Cell
  acq : Bool
  noticed : Bool
  snap : Snap
  deriving DecidableEq, Repr

/-- A request a core has sent to an end point and that is not acknowledged (R310, R312): a write, or one lane's
near-store atomic (`atom`) with the operand that receives its old value. -/
structure Req where
  id : Nat
  seq : Nat
  atom : Bool
  pa : PAddr
  lane : Nat
  dst : Option (BitVec 9)
  sz : BitVec 3
  acq : Bool
  answer : Option W64
  deriving DecidableEq, Repr

/-- Run-ahead of a group (R67 to R69): the missing load, the resume point, the shadow registers, and which operand
codes hold an invalid value. -/
structure RunAhead where
  load : Nat
  resume : VAddr
  sregs : Table W64
  vregs : Table Line
  preds : Table W32
  stack : Table Path
  active : Option Nat
  writtenS : List Nat
  writtenV : List Nat
  invalid : List Nat
  issued : Nat
  deriving DecidableEq, Repr

/-- A park that is under way (R73): reason code of *Table 3-8*, status, FAULT_ADDR and AUXILIARY. -/
structure ParkReq where
  reason : BitVec 8
  status : W16
  addr : VAddr
  aux : W64
  deriving DecidableEq, Repr

/-- What a resident group is doing. -/
inductive GroupMode where
  | running
  | waitParked
  | parking (p : ParkReq)
  | stopped
  deriving DecidableEq, Repr

/-- One group of 32 threads (R52 to R66, R72). Register files are tables by register number whose unlisted registers
are zero (R53). -/
structure Group where
  ctx : Nat
  gen : Nat
  station : Nat
  inst : Nat
  index : Nat
  vregs : Nat
  live : W32
  barWdog : Nat
  runAheadMax : BitVec 12
  bars : Table Barrier
  preds : Table W32
  sregs : Table W64
  vfile : Table Line
  stack : Table Path
  active : Option Nat
  opp : Nat
  mode : GroupMode
  debug : Bool
  bell : Bool
  raEnded : Bool
  ra : Option RunAhead
  loads : List PendingLoad
  units : List Nat
  reqs : List Req
  nextId : Nat
  seq : Nat
  ordSeq : Nat
  deriving DecidableEq, Repr

/-- A store buffer entry (R304): one 128-byte line, its byte mask and data. `after` is the youngest sequence number
of the group whose stores must be performed before it (fences and release marks, R308, R99). -/
structure SbEntry where
  slot : Nat
  ctx : Nat
  seq : Nat
  after : Nat
  va : VAddr
  line : Nat
  mask : BitVec 128
  data : Line
  attr : BitVec 3
  epoch : Option Nat
  size : Nat
  deriving DecidableEq, Repr

/-- A scoreboard entry (*Table 7-3*). -/
structure Score where
  write : Bool
  unit : BitVec 2
  slot : BitVec 6
  start : BitVec 14
  last : BitVec 14
  seq : Nat
  deriving DecidableEq, Repr

/-- The exact value of a mill element or product: a dyadic rational m × 2^e, an infinity or a NaN (R148 to R159). -/
inductive MVal where
  | fin (m e : Int)
  | inf (neg : Bool)
  | nan
  deriving DecidableEq, Repr

/-- A held stationary operand and its tag (R130), with the group that owns it (R132) and the operation that loaded it. -/
structure Held where
  slot : Nat
  ctx : Nat
  gen : Nat
  seq : Nat
  tile : VAddr
  modeA : Bool
  arrange : BitVec 2
  elems : List (List MVal)
  deriving DecidableEq, Repr

/-- The row hoppers H0 to H31 (R133): by row, up to 16 beats, each an element group for that row of each array; the operation
whose beats they are. -/
structure Hoppers where
  seq : Nat
  rows : List (List (List (List MVal)))
  deriving DecidableEq, Repr

/-- A certificate that is still accumulating over the blocks that cover its sub-tile (R169). -/
structure CertAcc where
  bound : W32
  side : W32
  resid : W32
  flags : W16
  deriving DecidableEq, Repr

/-- A mill operation in the queue (R138): the instruction, the descriptors as checked at acceptance (R124), the
progress through its blocks and the completion word's fields (*Table 5-5*). -/
structure MillOp where
  slot : Nat
  ctx : Nat
  gen : Nat
  seq : Nat
  fn : Nat
  pc : VAddr
  dst : BitVec 9
  desc : BitVec 512
  xTile : BitVec 512
  wTile : BitVec 512
  outTile : BitVec 512
  started : Bool
  reused : Bool
  stat : List (List MVal)
  block : Nat
  k : Nat
  overflowed : Bool
  retries : Nat
  maxK : Nat
  nan : Bool
  ftz : Bool
  sat : Bool
  certs : Table CertAcc
  deriving DecidableEq, Repr

/-- A sieve operation in the queue (R203, R204), with its descriptors as checked at acceptance (R207). -/
structure SieveOp where
  slot : Nat
  ctx : Nat
  gen : Nat
  seq : Nat
  fn : Nat
  pc : VAddr
  dst : BitVec 9
  desc : BitVec 512
  aTile : BitVec 512
  bTile : BitVec 512
  outTile : BitVec 512
  deriving DecidableEq, Repr

/-- The states of an L1 line other than I (R317). -/
inductive Mesi where
  | s | e | m
  deriving DecidableEq, Repr

/-- A line held in an L1 data cache (R317). -/
structure L1Line where
  st : Mesi
  data : Line
  commons : Bool
  deriving DecidableEq, Repr

/-- A miss outstanding at a core: what it waits for (R320). `acks` is known once the Data or grant has come. -/
structure Mshr where
  grant : Option Mesi
  data : Line
  need : Nat
  got : Nat
  deriving DecidableEq, Repr

/-- A near-store atomic on its way from a core to a home slice (R223, R225); `req` is the request that waits for its
answer, none once the group has been lost or has discarded it (R72, R227, R312). -/
structure NsReq where
  slot : Nat
  ctx : Nat
  req : Option Nat
  pa : PAddr
  va : VAddr
  aop : BitVec 8
  sz : BitVec 3
  val : W64
  cmp : W64
  epoch : Option Nat
  attr : BitVec 3
  deriving DecidableEq, Repr

/-- The units of one core (R47) that hold state between instructions. `late` lists the requests, by slot and identifier,
that were discarded and whose answer is still to come (R312), `notes` the lines of the miss notices that have come (R242). -/
structure Core where
  sb : List SbEntry
  scores : List Score
  seq : Nat
  millQ : List MillOp
  held : Option Held
  hoppers : Option Hoppers
  accum : Table (BitVec 128)
  liveSet : Bool
  sieveQ : List SieveOp
  larder : List Host.Cell
  larderPoison : List Nat
  l1 : Table L1Line
  mshr : Table Mshr
  nsa : List NsReq
  late : List (Nat × Nat)
  notes : List Nat
  prefs : List Nat
  deriving DecidableEq, Repr

/-! ## Granary, translation and coherence (chapters 9 to 11) -/

/-- A valid line of a cache way (R238, R240); its data is the home view of memory (log entry 6). -/
structure CLine where
  line : Nat
  way : Nat
  dirty : Bool
  deriving DecidableEq, Repr

/-- A request that has joined an outstanding fill (R241): a read of one sector, or a write of bytes of the line. -/
inductive Joined where
  | read (core ctx sector : Nat)
  | write (core ctx pa : Nat) (data : List Byte)
  deriving DecidableEq, Repr

/-- An outstanding fill of a slice (R240 to R243): its way, the dirty victim whose write the memory controller has not
accepted, the sector it was asked for, the sectors that have come, the requests that joined, in arrival order, and whether
a write leaves the line dirty. -/
structure Fill where
  line : Nat
  way : Nat
  victim : Option Nat
  first : Nat
  got : BitVec 4
  joined : List Joined
  dirty : Bool
  deriving DecidableEq, Repr

/-- What a pool line belongs to (R248, R255). -/
inductive PoolTag where
  | held (epoch : Nat)
  | committed (epoch : Nat)
  | void (epoch : Nat)
  deriving DecidableEq, Repr

/-- A pool line of a tentative pool (R248). -/
structure PoolLine where
  line : Nat
  tag : PoolTag
  mask : BitVec 128
  seq : Nat
  data : Line
  poisoned : Bool
  deriving DecidableEq, Repr

/-- One granary slice: GRANARY_SPLIT and GRANARY_WAYMASK (*Tables 9-1, 9-3*), its valid cache lines most recently used
first, outstanding fills, and its tentative pool. -/
structure Slice where
  tent : Bool
  binWays : Nat
  wayMask : BitVec 128
  lines : List CLine
  fills : List Fill
  pool : List PoolLine
  poolSeq : Nat
  deriving DecidableEq, Repr

/-- How far a gating unit is out of service (R263, R447). -/
inductive SealState where
  | closed | gated | dead
  deriving DecidableEq, Repr

inductive EpochState where
  | free | opened | closing | folding | reclaiming
  deriving DecidableEq, Repr

/-- A COMMIT or DISCARD in progress at the epoch controller (R255). -/
structure EpochCmd where
  commit : Bool
  ctx : Nat
  tally : W32
  apply : List Nat
  ack : List Nat
  status : W16
  deriving DecidableEq, Repr

/-- One epoch of a partition (R246, *Table 9-9*). -/
structure Epoch where
  owner : Option Nat
  state : EpochState
  overflow : Bool
  poisoned : Bool
  parent : Option Nat
  last : W16
  cmd : Option EpochCmd
  deriving DecidableEq, Repr

/-- A store that has reached the epoch controller and waits its turn (R253). -/
structure EpochStore where
  ctx : Nat
  offset : Nat
  size : Nat
  word : W64
  deriving DecidableEq, Repr

/-- A group table entry (*Table 10-3*). -/
structure GroupEntry where
  mode : BitVec 4
  part : BitVec 8
  deriving DecidableEq, Repr

/-- A TLB entry (R281): a leaf entry found for an address-space identifier. -/
structure TlbEntry where
  st : TlbStruct
  fetch : Bool
  asid : Nat
  level : Nat
  vpn : Nat
  leaf : W64
  deriving DecidableEq, Repr

/-- A pointer entry held by a walk cache (R282). -/
structure WalkEntry where
  hall : Nat
  asid : Nat
  level : Nat
  vpn : Nat
  entry : W64
  deriving DecidableEq, Repr

/-- What the Steward does when a shootdown's last acknowledgement arrives (R283 step 5): answer the command with a place
in the order of arrival, also free the frame of a removed station's declaration copy, let a page be copied, or go on with a
destroy. -/
inductive After where
  | respond (ticket : Nat)
  | removed (ticket base : Nat)
  | move (id : Nat)
  | destroy (ctx : Nat)
  deriving DecidableEq, Repr

/-- A shootdown in progress (R283): `todo` has not dropped its entries yet, `acks` has not acknowledged yet. -/
structure Shoot where
  id : Nat
  asid : Nat
  lo : Nat
  hi : Nat
  todo : List TlbStruct
  acks : List TlbStruct
  after : After
  deriving DecidableEq, Repr

/-- A page move in progress (R287). -/
structure Move where
  id : Nat
  src : PAddr
  dst : PAddr
  size : Nat
  part : Nat
  promote : Bool
  copying : Bool
  deriving DecidableEq, Repr

/-- The kinds of coherence message (*Table 11-7*). -/
inductive MsgKind where
  | getS | getM | upgrade | putE | putM | inv | fwdGetS | fwdGetM | invAck | data | dataHome | dataInFlight | done
  deriving DecidableEq, Repr

/-- A coherence message in flight; `src`, `dst` and `requester` are core numbers, or none for the home. `pref` marks a
prefetch's request (*Table 9-2*). -/
structure Msg where
  kind : MsgKind
  line : Nat
  src : Option Nat
  dst : Option Nat
  requester : Option Nat
  data : Line
  count : Nat
  dirty : Bool
  grant : Mesi
  pref : Bool
  deriving DecidableEq, Repr

/-- The sharers of a directory entry (*Table 11-6*). -/
inductive DirState where
  | i
  | ptrs (cores : List Nat)
  | coarse (dies : BitVec 48)
  | owned (core : Nat)
  deriving DecidableEq, Repr

/-- The transaction a BUSY entry is handling (R320 to R322): the requester, none for the home itself; the state it grants;
the owner the request was forwarded to; the line of a PutM that the home holds; the InvAcks the home still awaits; whether
the owner's copy for the home is still to come; and whether the requester's Done has come. -/
structure Txn where
  core : Option Nat
  grant : Mesi
  owner : Option Nat
  put : Option Line
  acks : Nat
  copy : Bool
  done : Bool
  deriving DecidableEq, Repr

/-- A directory entry (R318, R320): state, transaction in progress, queued requests in arrival order, and when the entry
was last used (R319). Requests in an entry in I with nothing in progress wait for an entry of the set. -/
structure DirEntry where
  st : DirState
  busy : Option Txn
  waiting : List Msg
  used : Nat
  deriving DecidableEq, Repr

/-- A bandwidth regulator (*Table 10-14*, R295 to R297); `used` counts the bytes charged in the window that runs. -/
structure Regulator where
  guar : Nat
  borrow : Nat
  lock : Bool
  used : Nat
  eff : Nat
  waits : Nat
  calm : Nat
  deriving DecidableEq, Repr

/-- The refresh state of one HBM stack (R293, R294): rate multiplier 1, 2 or 4, and whether the 105 °C limit holds. -/
structure Refresh where
  rate : Nat
  halved : Bool
  deriving DecidableEq, Repr

/-- A partition's migration state (R290, R291); `demoting` from when the free frames fall below the reserve until they
reach twice it. -/
structure Tier where
  threshold : Nat
  heldIntervals : Nat
  calmIntervals : Nat
  moved : Nat
  interval : Nat
  held : Bool
  demoting : Bool
  deriving DecidableEq, Repr

/-! ## Tallies and watches (chapter 12) -/

/-- One tally (R332 to R338, R348). `tag` 0 and not allocated at reset. -/
structure Tally where
  alloc : Bool
  tag : Nat
  value : Nat
  sat : Bool
  under : Bool
  regress : Bool
  abandoned : Bool
  owner : Option Nat
  exports : List Nat
  imports : List Nat
  part : Nat
  corrupt : Bool
  deriving DecidableEq, Repr

/-- A bell record (*Table 12-6*). -/
structure BellRec where
  value : W64
  time : W64
  watch : W32
  tally : W32
  arg : W32
  status : W16
  flags : BitVec 8
  deriving DecidableEq, Repr

/-- Who a watch's bell goes to (*Table 12-5*): the waiting path of a group, a NOTIFY queue, the Steward, the partner;
the Steward form may release a WAIT entry of a SUBMIT queue. -/
inductive Receiver where
  | path (station inst index : Nat)
  | queue (queue : Nat)
  | steward
  | submitWait (queue : Nat)
  | partner
  deriving DecidableEq, Repr

/-- One watch (R339 to R344). `bell` is the bell of a fired watch that its receiver has not accepted yet (R343). -/
structure Watch where
  alloc : Bool
  tag : Nat
  tally : Nat
  ctx : Nat
  threshold : Nat
  eq : Bool
  rcv : Receiver
  arg : W32
  order : Nat
  part : Nat
  bell : Option BellRec
  deriving DecidableEq, Repr

/-! ## The Steward (chapters 13 and 15) -/

/-- A BUSY mailbox (R352): the request's bytes, its place in the order of arrival (R353), whether the command has begun a
wait, and the sequence number of the response frame once it has been sent. -/
structure Mailbox where
  msg : List Byte
  order : Nat
  waiting : Bool
  response : Option W32
  deriving DecidableEq, Repr

inductive CtxState where
  | active | lost | destroying
  deriving DecidableEq, Repr

/-- A context (R359 to R362, *Table 13-3*), with the epoch page's refusal word (*Table 9-10*) and the egress page's
counts (R412). -/
structure Context where
  gen : Nat
  part : Nat
  state : CtxState
  resident : Bool
  residentSince : Nat
  pinned : Bool
  prio : Nat
  root : PAddr
  capPage : PAddr
  lossStatus : W16
  lossCore : Nat
  lossStation : W32
  lossTime : Nat
  lossAddr : W64
  bellCount : Nat
  bellLog : List BellRec
  refStatus : W16
  refCount : Nat
  refEpoch : BitVec 6
  evCount : Nat
  evDropped : Nat
  evFlag : Bool
  destroyMb : Option Nat
  escalated : Bool
  deriving DecidableEq, Repr

/-- A loss that has arisen and that the Steward has not carried out yet (R374); `logged` when the event log has it already
(R448). -/
structure Loss where
  ctx : Nat
  gen : Nat
  status : W16
  core : Nat
  station : W32
  addr : W64
  logged : Bool
  deriving DecidableEq, Repr

/-- A memory object or a commons (R363 to R365, R428). `pages` are the physical addresses of its pages in order. -/
structure Obj where
  tag : Nat
  bytes : Nat
  kind : Nat
  page : Nat
  nomove : Bool
  part : Nat
  refs : List Nat
  pages : List PAddr
  commons : Bool
  refPages : List PAddr
  digestBase : PAddr
  isSealed : Bool
  failed : Bool
  badRef : List Nat
  deriving DecidableEq, Repr

/-- A leaf entry that the Steward has written for a context (R364): where it lies and what it maps. -/
structure LeafRec where
  ctx : Nat
  va : Nat
  level : Nat
  entry : PAddr
  obj : Option Nat
  page : Nat
  deriving DecidableEq, Repr

/-- A range of a carve-out that is in use: page frames of objects, page tables, save areas and capability pages. -/
structure Extent where
  base : Nat
  size : Nat
  ctx : Option Nat
  deriving DecidableEq, Repr

/-- The progress of a SUBMIT ring entry (R368): its own work is done with a status (and the address a fault names), a
larder transfer still holds its scoreboard entry (core and sequence), a WAIT has not had its bell, or it has completed. -/
inductive EntryPhase where
  | running (status : W16) (addr : Nat)
  | larder (core seq : Nat)
  | waiting
  | finished
  deriving DecidableEq, Repr

/-- A queue (R366 to R369, *Table 13-6*). -/
structure Queue where
  tag : Nat
  ctx : Nat
  loc : Nat
  notify : Bool
  ring : VAddr
  log2 : Nat
  prio : Nat
  head : Nat
  tail : Nat
  p : W32
  c : W32
  stopped : Option W16
  slot : Option Nat
  since : Nat
  entries : Table EntryPhase
  deriving DecidableEq, Repr

/-- A station (R370, R371): the fields of its declaration that the device uses later, and the declaration's bytes. -/
structure Station where
  tag : Nat
  ctx : Nat
  loc : Nat
  groups : Nat
  vregs : Nat
  insts : Nat
  mill : Nat
  lane : Nat
  spread : Bool
  pack : Bool
  exclusive : Bool
  near : Option Nat
  halls : BitVec 12
  entry : VAddr
  decl : List Byte
  declPage : PAddr
  save : List PAddr
  removing : Option Nat
  deriving DecidableEq, Repr

/-- A station instance: its core when it is on one and the one it was on last, whether it has been on one, its larder
base, its larder copy while it is off (R371, R372), and when it left which core for another (R433). -/
structure Inst where
  core : Option Nat
  last : Nat
  placed : Bool
  base : Nat
  saved : List Host.Cell
  savedPoison : List Nat
  stranded : Bool
  left : Table Nat
  deriving DecidableEq, Repr

/-- A park record (R75), kept as the group it stores and the header's own fields (log entry 8); `resume` is set by the
debugger's resume command. -/
structure Parked where
  station : Nat
  inst : Nat
  index : Nat
  reason : BitVec 8
  status : W16
  pc : VAddr
  time : Nat
  addr : VAddr
  core : Nat
  aux : W64
  resume : Bool
  grp : Group
  deriving DecidableEq, Repr

/-- A notice (R356). -/
structure Notice where
  code : W16
  ctx : Nat
  gen : Nat
  status : W16
  handle : W32
  time : Nat
  addr : W64
  deriving DecidableEq, Repr

/-- The partition states (*Table 15-1*). -/
inductive PartState where
  | unconfigured | running | quiesced | down
  deriving DecidableEq, Repr

/-- A partition: its record (*Table 15-2*) and policy records (*Tables 10-11, 11-3, 17-5*). -/
structure Partition where
  state : PartState
  halls : BitVec 12
  binWays : Nat
  tent : Bool
  refAdd : Nat
  cellar : Nat
  tallyQuota : Nat
  watchQuota : Nat
  masks : BitVec 128
  modes : BitVec 192
  tier : W64
  fence : W64
  reeve : W64
  quiesceMb : Option Nat
  deriving DecidableEq, Repr

/-! ## The port (chapter 14) -/

/-- A sequenced frame of the module that is not acknowledged (R396, R400): `sent` once the window and the link have let it
out, `time` when it was queued (*Table 14-3*), `tries` its resends. -/
structure TxFrame where
  seq : W32
  typ : BitVec 8
  resp : Bool
  payload : List Byte
  ctx : Option Nat
  time : Nat
  sent : Bool
  sentAt : Nat
  tries : Nat
  sacked : Bool
  deriving DecidableEq, Repr

/-- The open session (R393 to R401). -/
structure Session where
  id : W32
  rxNext : W32
  held : List Frame
  txNext : W32
  unacked : List TxFrame
  partnerAck : W32
  rwnd : Nat
  sinceAck : Nat
  ackDue : Bool
  deriving DecidableEq, Repr

/-- A bound ingest stream (R406, R407, R410). -/
structure Binding where
  ctx : Nat
  gen : Nat
  record : VAddr
  ring : VAddr
  log2 : Nat
  size : Nat
  len : Nat
  p : W32
  c : W32
  limit : Nat
  due : Bool
  last : Nat
  deriving DecidableEq, Repr

/-- A queued event frame (*Table 14-8*). -/
structure EvFrame where
  ctx : Nat
  gen : Nat
  bell : Bool
  tag : Nat
  serial : W32
  dropped : Bool
  time : Nat
  payload : List Byte
  deriving DecidableEq, Repr

/-- The Ethernet port, its time base and its transport state. `prov` is the provisioning record in force since the last
module reset; the timer fields are those in force since the session opened (R382). `graceFrom` and the `last` fields say when
the session ended, when the module last sent anything, when a valid frame of the partner, a Sync and an LLDP frame last
were, in nanoseconds of `Power.up` (*Table 14-9*, R390, R384). -/
structure Port where
  prov : BitVec 1024
  link : Bool
  mode : Nat
  sak : Bool
  mkaLive : Bool
  locked : Bool
  everLocked : Bool
  slow : Nat
  delay : Int
  announce : Nat
  txPn : Nat
  session : Option Session
  lastSession : W32
  rto : Nat
  retryLimit : Nat
  violLimit : Nat
  violWindow : Nat
  keepalive : Nat
  timeout : Nat
  violations : List Nat
  bindings : List Binding
  events : List EvFrame
  graceOn : Bool
  graceFrom : Nat
  lastTx : Nat
  lastRx : Nat
  lastSync : Nat
  lastLldp : Nat
  nacks : Table Nat
  echoes : Table Nat
  deriving DecidableEq, Repr

/-! ## The Reeve (chapters 16 and 17) -/

/-- An event record (*Table 16-6*). -/
structure EventRec where
  level : BitVec 8
  status : W16
  unit : BitVec 8
  die : BitVec 8
  index : W16
  part : BitVec 4
  ctx : Option (Nat × Nat)
  virt : Option VAddr
  merged : Bool
  lost : Bool
  time : Nat
  phys : PAddr
  repeats : Nat
  detail : W64
  seq : Nat
  deriving DecidableEq, Repr

/-- A measurement entry (*Table 17-11*). -/
structure Measure where
  index : Nat
  time : Nat
  kind : Nat
  part : W16
  code : W32
  digest : BitVec 256
  deriving DecidableEq, Repr

/-- A core island (*Table 17-6*, R463 to R467): the clock step the power loop gives it and the one the thermal loop allows
it, 42 being no limit; `cycles` were counted up to `since`, in nanoseconds since
the last reset (R107, CR_CYCLES); intervals below 97 °C; the
second of its last recorded throttle. -/
structure Island where
  power : Nat
  heat : Nat
  raCap : Nat
  cycles : Nat
  since : Nat
  coolFor : Nat
  throttledAt : Option Nat
  fetched : Nat
  useful : Nat
  deriving DecidableEq, Repr

/-- A performance counter (*Table 17-8*). -/
structure Counter where
  value : Nat
  wraps : Nat
  ovf : Bool
  deriving DecidableEq, Repr

/-- A lifetime counter (R473). -/
structure Life where
  value : Nat
  stuck : Bool
  deriving DecidableEq, Repr

/-- What the flash holds, and the Reeve's working copies that are written to it later (R456, R473 to R480). -/
structure Flash where
  prov : BitVec 1024
  ckn : List Byte
  cak : BitVec 256
  slotA : List Host.Cell
  slotB : List Host.Cell
  activeB : Bool
  trial : Option Bool
  minSvn : Nat
  life : Table Life
  hist : Table Nat
  events : List EventRec
  severe : List EventRec
  measures : List Measure
  measureCount : Nat
  chain : BitVec 256
  cap : Nat
  parts : Table Partition
  regs : Table Regulator
  deriving DecidableEq, Repr

/-- The Reeve's own working state. -/
structure Reeve where
  life : Table Life
  hist : Table Nat
  sensors : Table Int
  coolant : Table Nat
  islands : Table Island
  capped : Bool
  underFor : Nat
  unmet : Bool
  fwOpen : Bool
  verified : Option Bool
  fallback : Bool
  alert : Bool
  eventsLost : Bool
  quotes : List Nat
  i3c : Option (BitVec 7)
  powerWatts : Nat
  joules : Nat
  deriving DecidableEq, Repr

/-! ## Power, clocks, reset and pins (chapters 18 and 19) -/

/-- The module states of *Table 18-2*; `off` is the absence of module power (R27). -/
inductive ModState where
  | off | boot | training | ready | held | failed | resetting
  deriving DecidableEq, Repr

/-- The JTAG instructions that the locked port accepts (R509). -/
inductive JtagInstr where
  | bypass | idcode | sample | extest
  deriving DecidableEq, Repr

/-- Power, references, bring-up and pins (R481 to R512): nanoseconds since MOD_PWR_EN or the last reset, the lost blade, the
rail groups in regulation, the firmware slot that runs, and the trained links. -/
structure Power where
  st : ModState
  failure : W16
  linkMask : W32
  up : Nat
  pwrEn : Bool
  resetLow : Bool
  inputOk : Bool
  lostBlade : Option Nat
  rails : Nat
  refclk : Bool
  ethref : Bool
  slot : Option Bool
  links : List Nat
  attempts : Table Nat
  retrying : List Nat
  memReady : Bool
  coresTested : Bool
  trip : Bool
  jtag : JtagInstr
  jtagUnlocked : Bool
  deriving DecidableEq, Repr

/-! ## What leaves the module -/

/-- What a step sends: frames with their Ethernet, IP and UDP headers in `lead`, sideband and JTAG answers, pin events, and the answers of home slices. MODEL: the log of
outputs, newest first (log entry 3). -/
inductive Out where
  | frame (lead : List Byte) (typ : BitVec 8) (retx resp ackv : Bool) (session seq ack : W32) (time : W64) (payload : List Byte)
  | arpReply (ip : BitVec 128)
  | ndReply (ip : BitVec 128)
  | echoReply (data : List Byte)
  | lldp (mac : BitVec 48)
  | mka (requestSak : Bool)
  | delayReq (time : W64)
  | sideband (tag : BitVec 3) (code : W16) (status : W16) (payload : List Byte)
  | mctp (data : List Byte)
  | pldm (kind : Nat) (id : Nat) (data : List Byte)
  | jtag (instr : JtagInstr) (data : List Byte)
  | pps (time : W64)
  | home (core ctx : Nat) (status : W16) (data : Line)
  | walk (ctx : Nat) (status : W16) (leaf : W64)
  | miss (core : Nat) (line : Nat)
  | inBand
  deriving DecidableEq, Repr

/-! ## The module -/

/-- The state of the module. -/
structure State where
  pending : List Instr
  time : Nat
  timeMilli : Nat
  spare : Nat
  out : List Out
  orderC : Bool
  serial : W64
  mac : BitVec 48
  disabled : List Nat
  failedCores : List Nat
  retired : List Nat
  capGen : Nat
  mem : List Host.Cell
  poison : List Nat
  cores : Table Core
  groups : Table Group
  parked : List Parked
  slices : Table Slice
  seals : List (GateUnit × SealState)
  idle : List (GateUnit × Nat)
  deadEps : List EndPoint
  epochs : Table Epoch
  epochQ : Table (List EpochStore)
  hbmGroups : Table GroupEntry
  cellarGroups : Table GroupEntry
  excluded : List Nat
  excludedDies : List Nat
  tlb : List TlbEntry
  walkCache : List WalkEntry
  shoots : List Shoot
  nextShoot : Nat
  moves : List Move
  nextMove : Nat
  heat : Table (List (Nat × Nat))
  lastHeat : Table Nat
  cold : Table Nat
  demoted : Table Nat
  tiers : Table Tier
  regs : Table Regulator
  refresh : Table Refresh
  net : List Msg
  dir : Table DirEntry
  dirClock : Nat
  tallies : Table Tally
  watches : Table Watch
  watchOrder : Nat
  bells : List Nat
  mailboxes : Table Mailbox
  contexts : Table Context
  lossQ : List Loss
  repairs : List (Nat × Nat)
  objs : Table Obj
  objTags : Table Nat
  leaves : List LeafRec
  extents : List Extent
  cursors : Table Nat
  queues : Table Queue
  queueTags : Table Nat
  stations : Table Station
  stationTags : Table Nat
  insts : Table Inst
  notices : List Notice
  noticeOut : Option (W32 × Notice)
  noticeTag : Nat
  noticeLost : Bool
  grace : Nat
  genNext : Nat
  genEnd : Nat
  lastGen : Table Nat
  mailOrder : Nat
  parts : Table Partition
  counters : Table Counter
  port : Port
  flash : Flash
  reeve : Reeve
  power : Power
  deriving DecidableEq, Repr

/-! ## Why a step can stop -/

/-- The reasons a step can stop the module with a fault. -/
inductive Fault where
  /-- Raised by no meaning: every error the manual describes is a state the module goes on from (a park, a lost
  context, a partition that is DOWN, a FAILED module). Kept because the host's interface has a fault type. Safe. -/
  | undescribed
  deriving DecidableEq, Repr

/-- The reasons a command has no outcome. -/
inductive Refusal where
  /-- Raised by `exec` for a row of the table that has no meaning in this model yet. Safe. -/
  | notModelled (mnemonic : String)
  deriving DecidableEq, Repr

/-! ## Reset -/

/-- A core's units after reset (R493, *Table 18-6*): empty. -/
def Core.reset : Core :=
  { sb := [], scores := [], seq := 0, millQ := [], held := none, hoppers := none, accum := [], liveSet := false, sieveQ := [],
    larder := [], larderPoison := [], l1 := [], mshr := [], nsa := [], late := [], notes := [], prefs := [] }

/-- A slice after reset: *Tables 9-1 and 9-3*. -/
def Slice.reset : Slice :=
  { tent := false, binWays := 0, wayMask := 0xFFFF_FFFF_FFFF_FFFF_FFFF_FFFF_FFFF#128, lines := [], fills := [],
    pool := [], poolSeq := 0 }

/-- An epoch after reset: FREE and allotted to nobody (*Table 9-9*). -/
def Epoch.reset : Epoch :=
  { owner := none, state := .free, overflow := false, poisoned := false, parent := none, last := 0, cmd := none }

def GroupEntry.reset : GroupEntry := { mode := 0, part := 0xFF }

def DirEntry.reset : DirEntry := { st := .i, busy := none, waiting := [], used := 0 }

def Refresh.reset : Refresh := { rate := 1, halved := false }

/-- A tally that has never been allocated: its first allocation gives TAG 0x0001 (R334, log entry 11). -/
def Tally.reset : Tally :=
  { alloc := false, tag := 0, value := 0, sat := false, under := false, regress := false, abandoned := false,
    owner := none, exports := [], imports := [], part := 0, corrupt := false }

def Watch.reset : Watch :=
  { alloc := false, tag := 0, tally := 0, ctx := 0, threshold := 0, eq := false, rcv := .steward, arg := 0, order := 0,
    part := 0, bell := none }

/-- REEVE_POLICY at its reset values (*Table 17-5*): CLK_MIN 16, CLK_MAX 34, RA_CAP_MAX 0x400, RA_CAP_MIN 0x040,
PLACE_ENABLE, GATE_ENABLE and POWER_WEIGHT 128. -/
def reevePolicyReset : W64 :=
  BitVec.ofNat 64 (16 * 2 ^ 52 + 34 * 2 ^ 46 + 0x400 * 2 ^ 32 + 0x40 * 2 ^ 20 + 2 ^ 18 + 2 ^ 17 + 128 * 2 ^ 8)

/-- TIER_POLICY at its reset values (*Table 10-11*). -/
def tierPolicyReset : W64 :=
  BitVec.ofNat 64 (2 ^ 56 + 5 * 2 ^ 48 + 16 * 2 ^ 40 + 64 * 2 ^ 32 + 2 * 2 ^ 24 + 16 * 2 ^ 16)

/-- FENCE_POLICY at its reset value, 1,000 µs (*Table 11-3*). -/
def fencePolicyReset : W64 := 1000#64

def Partition.reset : Partition :=
  { state := .unconfigured, halls := 0, binWays := 0, tent := false, refAdd := 0, cellar := 0, tallyQuota := 0, watchQuota := 0,
    masks := 0, modes := 0, tier := tierPolicyReset, fence := fencePolicyReset, reeve := reevePolicyReset,
    quiesceMb := none }

def Regulator.reset : Regulator := { guar := 0, borrow := 0, lock := false, used := 0, eff := 0, waits := 0, calm := 0 }

def Tier.reset : Tier :=
  { threshold := 16, heldIntervals := 0, calmIntervals := 0, moved := 0, interval := 0, held := false, demoting := false }

/-- A core island after reset: clock step 16, run-ahead cap 0x400 (*Table 17-6*). -/
def Island.reset : Island :=
  { power := 16, heat := 42, raCap := 0x400, cycles := 0, since := 0, coolFor := 0, throttledAt := none, fetched := 0, useful := 0 }

def Counter.reset : Counter := { value := 0, wraps := 0, ovf := false }
def Life.reset : Life := { value := 0, stuck := false }

/-- The provisioning record with the defaults of *Table 14-2*; byte i lies at bits [8i+7:8i]. Fields without a default
are zero (log entry 12). -/
def provReset : BitVec 1024 :=
  (0x1F40#1024 <<< (8 * 0x06)) ||| (20000#1024 <<< (8 * 0x30)) ||| (12#1024 <<< (8 * 0x34)) |||
  (64#1024 <<< (8 * 0x36)) ||| (1000#1024 <<< (8 * 0x38)) ||| (10#1024 <<< (8 * 0x3C)) ||| (100#1024 <<< (8 * 0x40))

def Port.reset : Port :=
  { prov := provReset, link := false, mode := 0, sak := false, mkaLive := false, locked := false, everLocked := false,
    slow := 0, delay := 0, announce := 0, txPn := 0, session := none, lastSession := 0, rto := 20000, retryLimit := 12, violLimit := 64,
    violWindow := 1000, keepalive := 10, timeout := 100, violations := [], bindings := [], events := [],
    graceOn := false, graceFrom := 0, lastTx := 0, lastRx := 0, lastSync := 0, lastLldp := 0, nacks := [], echoes := [] }

/-- The flash of a module that has recorded nothing yet: erased slots, the provisioning defaults, the power cap's reset
value 84 (8.4 kW, R464), the context generation counter at 1 (R359) and the event sequence at 0 (log entry 12). -/
def Flash.reset : Flash :=
  { prov := provReset, ckn := [], cak := 0, slotA := [], slotB := [], activeB := false, trial := none, minSvn := 0,
    life := [(4, { value := 1, stuck := false })], hist := [], events := [], severe := [], measures := [],
    measureCount := 0, chain := 0, cap := 84, parts := [], regs := [] }

def Reeve.reset : Reeve :=
  { life := [(4, { value := 1, stuck := false })], hist := [], sensors := [], coolant := [], islands := [], capped := false,
    underFor := 0, unmet := false, fwOpen := false, verified := none, fallback := false, alert := false, eventsLost := false,
    quotes := [], i3c := none, powerWatts := 0, joules := 0 }

/-- Power good, MOD_PWR_EN high, MOD_RESET_L just released, rail group 1 in regulation: the boot ROM runs (BOOT). -/
def Power.reset : Power :=
  { st := .boot, failure := 0, linkMask := 0, up := 0, pwrEn := true, resetLow := false,
    inputOk := true, lostBlade := none, rails := 1, refclk := true, ethref := true, slot := none,
    links := [], attempts := [], retrying := [], memReady := false, coresTested := false, trip := false, jtag := .idcode, jtagUnlocked := false }

/-- The module right after a cold module reset (R492, R493): state BOOT, nothing configured, memory listing nothing. -/
def State.reset : State :=
  { pending := [], time := 0, timeMilli := 0, spare := 0, out := [], orderC := false, serial := 0, mac := 0,
    disabled := [], failedCores := [], retired := [], capGen := 1, mem := [], poison := [], cores := [], groups := [],
    parked := [], slices := [], seals := [], idle := [], deadEps := [], epochs := [], epochQ := [], hbmGroups := [],
    cellarGroups := [], excluded := [], excludedDies := [], tlb := [], walkCache := [], shoots := [], nextShoot := 0,
    moves := [], nextMove := 0, heat := [], lastHeat := [], cold := [], demoted := [], tiers := [], regs := [], refresh := [],
    net := [], dir := [], dirClock := 0, tallies := [], watches := [], watchOrder := 0, bells := [], mailboxes := [],
    contexts := [], lossQ := [], repairs := [], objs := [], objTags := [], leaves := [], extents := [], cursors := [], queues := [],
    queueTags := [], stations := [], stationTags := [], insts := [], notices := [], noticeOut := none, noticeTag := 0,
    noticeLost := false, grace := 10, genNext := 1, genEnd := 1, lastGen := [], mailOrder := 0, parts := [],
    counters := [], port := Port.reset, flash := Flash.reset, reeve := Reeve.reset, power := Power.reset }

end Sys2Proof.Machine
end

