-- ==== Sys2Proof/Machine/Bits.lean ====
section
/-! DEFINITION. Tables, bytes, bit fields, lanes and lines: the plain helpers of the machine (R5, R6). -/

namespace Sys2Proof.Machine

/-! ## Tables: rising keys, the default never listed -/

/-- The value listed for a key. -/
def tfind {α : Type} : Table α → Nat → Option α
  | [], _ => none
  | (k, v) :: t, n => if k = n then some v else tfind t n

/-- List a value for a key, keeping the keys rising. -/
def tput {α : Type} : Table α → Nat → α → Table α
  | [], k, v => [(k, v)]
  | (a, w) :: t, k, v => if a < k then (a, w) :: tput t k v else if a = k then (k, v) :: t else (k, v) :: (a, w) :: t

/-- List nothing for a key. -/
def tdel {α : Type} (t : Table α) (k : Nat) : Table α := t.filter fun e => decide (e.1 ≠ k)

/-- The value of a key, the default where none is listed. -/
def tget {α : Type} (d : α) (t : Table α) (k : Nat) : α := (tfind t k).getD d

/-- Give a key a value; the default is never listed. -/
def tset {α : Type} [DecidableEq α] (d : α) (t : Table α) (k : Nat) (v : α) : Table α :=
  if v = d then tdel t k else tput t k v

/-- The canonical form: strictly rising keys, no entry equal to the default. -/
def Rising {α : Type} : Table α → Prop
  | [] => True
  | [_] => True
  | a :: b :: t => a.1 < b.1 ∧ Rising (b :: t)

def NoDefault {α : Type} (d : α) (t : Table α) : Prop := ∀ e ∈ t, e.2 ≠ d

/-- Keep the values that satisfy a test, and map values. -/
def tmap {α : Type} (f : Nat → α → α) (t : Table α) : Table α := t.map fun e => (e.1, f e.1 e.2)

def tfilter {α : Type} (f : Nat → α → Bool) (t : Table α) : Table α := t.filter fun e => f e.1 e.2

/-- The lowest of `n` numbers from `i` upward that satisfies a test. -/
def lowestFrom (f : Nat → Bool) : Nat → Nat → Option Nat
  | 0, _ => none
  | n + 1, i => if f i then some i else lowestFrom f n (i + 1)

/-- The lowest number below `n` that satisfies a test. -/
def lowest (n : Nat) (f : Nat → Bool) : Option Nat := lowestFrom f n 0

/-- Insert and remove in a list without repeats. -/
def addOnce {α : Type} [DecidableEq α] (x : α) (l : List α) : List α := if x ∈ l then l else l ++ [x]

/-- The element at a position. -/
def nth? {α : Type} : List α → Nat → Option α
  | [], _ => none
  | x :: _, 0 => some x
  | _ :: t, n + 1 => nth? t n

/-- Replace the element at a position. -/
def setNth {α : Type} : List α → Nat → α → List α
  | [], _, _ => []
  | _ :: t, 0, y => y :: t
  | x :: t, n + 1, y => x :: setNth t n y

/-- Drop the element at a position. -/
def dropNth {α : Type} : List α → Nat → List α
  | [], _ => []
  | _ :: t, 0 => t
  | x :: t, n + 1 => x :: dropNth t n

/-! ## Bit fields, little-endian bytes -/

/-- Bits [hi:lo] of a word, bit 0 the least significant (R6). -/
def bits {n : Nat} (w : BitVec n) (hi lo : Nat) : Nat := (w.toNat / 2 ^ lo) % 2 ^ (hi - lo + 1)

/-- Bits [hi:lo] of a number. -/
def nbits (w hi lo : Nat) : Nat := (w / 2 ^ lo) % 2 ^ (hi - lo + 1)

def bit {n : Nat} (w : BitVec n) (i : Nat) : Bool := w.getLsbD i

/-- The number `v` placed with its bit 0 at bit `lo`, `len` bits wide. -/
def place (v lo len : Nat) : Nat := (v % 2 ^ len) * 2 ^ lo

/-- The number as bits [hi:lo] of a 64-bit word. -/
def fld (v hi lo : Nat) : Nat := place v lo (hi - lo + 1)

/-- The signed value of the low `n` bits. -/
def sext (n : Nat) (v : Nat) : Int := (BitVec.ofNat n v).toInt

/-- `n` bytes of a number, lowest first (R6). -/
def leBytes : Nat → Nat → List Byte
  | 0, _ => []
  | n + 1, v => BitVec.ofNat 8 v :: leBytes n (v / 256)

/-- The number whose bytes are given lowest first. -/
def leNat : List Byte → Nat
  | [] => 0
  | b :: t => b.toNat + 256 * leNat t

/-- The bytes of a bit vector of whole bytes, lowest first. -/
def vecBytes {n : Nat} (w : BitVec n) : List Byte := leBytes (n / 8) w.toNat

/-- `n` bytes from offset `o` of a byte list, zeros beyond its end. -/
def slice (bs : List Byte) (o n : Nat) : List Byte :=
  let t := (bs.drop o).take n
  t ++ List.replicate (n - t.length) 0

/-- The number in `n` bytes from offset `o`. -/
def le (bs : List Byte) (o n : Nat) : Nat := leNat (slice bs o n)

/-- Overwrite bytes of a list from offset `o`. -/
def patch (bs : List Byte) (o : Nat) (new : List Byte) : List Byte :=
  bs.take o ++ new ++ bs.drop (o + new.length)

def zeros (n : Nat) : List Byte := List.replicate n 0

def w32 (n : Nat) : W32 := BitVec.ofNat 32 n
def w64 (n : Nat) : W64 := BitVec.ofNat 64 n
def va (n : Nat) : VAddr := BitVec.ofNat 56 n

def allOnes32 : W32 := 0xFFFF_FFFF#32

/-! ## Lanes and lines -/

/-- Lane `i` of a vector register (R47). -/
def laneOf (v : Line) (i : Nat) : W32 := v.extractLsb' (32 * i) 32

/-- The number made of `n` fields of `k` bits, field 0 lowest. -/
def packFields (k : Nat) (f : Nat → Nat) : Nat → Nat
  | 0 => 0
  | n + 1 => packFields k f n + place (f n) (k * n) k

/-- A vector register from its lanes. -/
def lanes (f : Nat → W32) : Line := BitVec.ofNat 1024 (packFields 32 (fun i => (f i).toNat) 32)

/-- The lanes of `new` where the mask is set, of `old` elsewhere (R94). -/
def mergeLanes (mask : W32) (old new : Line) : Line :=
  lanes fun i => if bit mask i then laneOf new i else laneOf old i

/-- Byte `i` of a line. -/
def lineByte (l : Line) (i : Nat) : Byte := l.extractLsb' (8 * i) 8

/-- A line from its bytes. -/
def lineOf (f : Nat → Byte) : Line := BitVec.ofNat 1024 (packFields 8 (fun i => (f i).toNat) 128)

/-- The set bits of a mask, lowest first. -/
def maskList (m : W32) : List Nat := (List.range 32).filter fun i => bit m i

/-- A mask from a test on lanes. -/
def maskOf (f : Nat → Bool) : W32 := BitVec.ofNat 32 (packFields 1 (fun i => if f i then 1 else 0) 32)

/-- The number of set bits. -/
def popCount {n : Nat} (w : BitVec n) : Nat := ((List.range n).filter fun i => bit w i).length

/-- The lowest set bit. -/
def lowBit (m : W32) : Nat := (maskList m).headD 32

/-- The zeros above the highest set bit; the width for zero. -/
def clz {n : Nat} (w : BitVec n) : Nat := if w = 0 then n else n - 1 - Nat.log2 w.toNat

/-- The zeros below the lowest set bit; the width for zero. -/
def ctz {n : Nat} (w : BitVec n) : Nat := ((List.range n).find? fun i => bit w i).getD n

/-- ⌈a / b⌉. -/
def cdiv (a b : Nat) : Nat := (a + b - 1) / b

/-- A value held between two limits. -/
def clamp (lo hi v : Nat) : Nat := if v < lo then lo else if hi < v then hi else v

end Sys2Proof.Machine
end

