-- ==== Sys2Proof/Machine/Ops.lean ====
section
/-! DEFINITION. The named operations over the module's state that the meanings share: cores and groups, physical
addresses and home slices, memory and its coherent view, tentative regions, translation, event records and losses. -/

namespace Sys2Proof.Machine

/-! ## Cores, groups, contexts -/

def State.core (s : State) (c : Nat) : Core := tget Core.reset s.cores c
def State.setCore (s : State) (c : Nat) (k : Core) : State := { s with cores := tset Core.reset s.cores c k }
def State.modCore (s : State) (c : Nat) (f : Core → Core) : State := s.setCore c (f (s.core c))

/-- The key of a group slot (R47). -/
def gkey (g : Grp) : Nat := g.core * 48 + g.slot
def State.group? (s : State) (g : Grp) : Option Group := tfind s.groups (gkey g)
def State.setGroup (s : State) (g : Grp) (k : Group) : State := { s with groups := tput s.groups (gkey g) k }
/-- A group leaves its slot; an operand it held in the mill is dropped (R132). -/
def State.dropGroup (s : State) (g : Grp) : State :=
  let drop := fun (k : Core) => match k.held with
    | some h => if h.slot = g.slot then { k with held := none } else k
    | none => k
  { s.modCore g.core drop with groups := tdel s.groups (gkey g) }
def State.modGroup (s : State) (g : Grp) (f : Group → Group) : State :=
  match s.group? g with
  | none => s
  | some k => s.setGroup g (f k)

def State.ctx? (s : State) (c : Nat) : Option Context := tfind s.contexts c
def State.setCtx (s : State) (c : Nat) (k : Context) : State := { s with contexts := tput s.contexts c k }
def State.modCtx (s : State) (c : Nat) (f : Context → Context) : State :=
  match s.ctx? c with
  | none => s
  | some k => s.setCtx c (f k)
def State.part (s : State) (p : Nat) : Partition := tget Partition.reset s.parts p
def State.setPart (s : State) (p : Nat) (k : Partition) : State := { s with parts := tset Partition.reset s.parts p k }
def State.ctxPart (s : State) (c : Nat) : Nat := ((s.ctx? c).map (·.part)).getD 12
def State.slice (s : State) (h : Nat) : Slice := tget Slice.reset s.slices h
def State.setSlice (s : State) (h : Nat) (k : Slice) : State := { s with slices := tset Slice.reset s.slices h k }
def State.epoch (s : State) (e : Nat) : Epoch := tget Epoch.reset s.epochs e
def State.setEpoch (s : State) (e : Nat) (k : Epoch) : State := { s with epochs := tset Epoch.reset s.epochs e k }
def State.emit (s : State) (o : Out) : State := { s with out := o :: s.out }

/-- Device time in nanoseconds as 64 bits (R9). -/
def State.now (s : State) : Nat := s.time % 2 ^ 64

/-- The next value the manual leaves open (log entry 1). -/
def State.freeVal (s : State) : State × Nat := ({ s with spare := s.spare + 1 }, Config.freeNat s.spare)

/-- The module has come up and has power: its cores, slices and memories exist (R27, *Table 18-2*). -/
def State.inService (s : State) : Bool := decide (s.power.st = .ready) || decide (s.power.st = .failed)

/-! ## Where things lie (R14, R15, R268, R270) -/

def dieOfCore (c : Nat) : Nat := c / 88
def islandOfCore (c : Nat) : Nat := c / 88 * 11 + c % 88 / 8
def hallOfCore (c : Nat) : Nat := c / 352
/-- The hall die that carries an HBM group's stack. -/
def hallOfGroup (g : Nat) : Nat := g / 8
/-- The hall die whose slice controls a tally or a watch (R332). -/
def hallOfTally (n : Nat) : Nat := n / Config.talliesPerHall
def hallOfWatch (w : Nat) : Nat := w / Config.watchesPerHall
def partHalls (p : Partition) : List Nat := (List.range 12).filter fun h => p.halls.getLsbD h
/-- The partition whose hall dies include a hall die (R419). -/
def State.partOfHall (s : State) (h : Nat) : Option Nat :=
  lowest 12 fun p => decide ((s.part p).state ≠ .unconfigured) && (s.part p).halls.getLsbD h
/-- A core that takes part in work: enabled at test, not retired, not failed its built-in test (R16, R33, R488). -/
def State.coreEnabled (s : State) (c : Nat) : Bool :=
  decide (c < Config.cores) && !(s.disabled.contains c || s.failedCores.contains c || s.retired.contains c)
def partCores (s : State) (p : Nat) : List Nat :=
  (List.range Config.cores).filter fun c => (s.part p).halls.getLsbD (hallOfCore c) && s.coreEnabled c

/-- What a physical address names (*Tables 10-1 and 10-2*). -/
inductive Place where
  | hbm (group channel : Nat)
  | cellar (group die device : Nat)
  | bin (hall off : Nat)
  | doorbell (slot off : Nat)
  | epochPage (ctx off : Nat)
  | egress (off : Nat)
  | tallyWindow (n off : Nat)
  | nothing
  deriving DecidableEq, Repr

/-- The channel of an HBM address, one of its stack's 32 (R268): 8q + r[14:12]. -/
def hbmChannel (pa : Nat) : Nat :=
  let r := pa % 0xC_0000_0000
  8 * (r / 0x3_0000_0000) + r / 4096 % 8

/-- The place of a physical address (R266 to R270); `c` is true on a QZ6400-C (R2). -/
def placeOf (c : Bool) (pa : Nat) : Place :=
  if pa < 0x0120_0000_0000 then .hbm (pa / 0x3_0000_0000) (hbmChannel pa)
  else if 0x0400_0000_0000 ≤ pa && pa < (if c then 0x0580_0000_0000 else 0x0700_0000_0000) then
    let o := pa - 0x0400_0000_0000
    let g := o / 0x3_0000_0000
    let die := if g < (if c then 64 else 128) then 0 else 1
    .cellar g die (if c then o / 4096 % 8 else o / 4096 % 16)
  else if 0x0800_0000_0000 ≤ pa && pa < 0x0803_0000_0000 then
    .bin ((pa - 0x0800_0000_0000) / 2 ^ 30) ((pa - 0x0800_0000_0000) % 2 ^ 30)
  else if 0x0C00_0000_0000 ≤ pa && pa < 0x0C00_0100_0000 then
    .doorbell ((pa - 0x0C00_0000_0000) / 65536) (pa % 65536)
  else if 0x0C00_1000_0000 ≤ pa && pa < 0x0C00_2000_0000 then
    .epochPage ((pa - 0x0C00_1000_0000) / 65536) (pa % 65536)
  else if 0x0C00_2000_0000 ≤ pa && pa < 0x0C00_3000_0000 then .egress (pa - 0x0C00_2000_0000)
  else if 0x0C00_3000_0000 ≤ pa && pa < 0x0C00_3009_0000 then
    .tallyWindow ((pa - 0x0C00_3000_0000) / 8) (pa % 8)
  else .nothing

def State.placeOf (s : State) (pa : Nat) : Place := Machine.placeOf s.orderC pa

def Place.isDevice : Place → Bool
  | .doorbell _ _ | .epochPage _ _ | .egress _ | .tallyWindow _ _ => true
  | _ => false

def State.hbmEntry (s : State) (g : Nat) : GroupEntry := tget GroupEntry.reset s.hbmGroups g
def State.cellarEntry (s : State) (g : Nat) : GroupEntry := tget GroupEntry.reset s.cellarGroups g
def lineNo (pa : Nat) : Nat := pa / 128
def sectorNo (pa : Nat) : Nat := pa / 32

/-- Is the address in a COMMONS or COMMONS_REF group (R272)? -/
def State.commonsAddr (s : State) (pa : Nat) : Bool :=
  match s.placeOf pa with
  | .hbm g _ => decide ((s.hbmEntry g).mode = 4)
  | .cellar g _ _ => decide ((s.cellarEntry g).mode = 5)
  | _ => false

/-- Does an address lie in a commons that has FAILED (R451)? -/
def State.failedCommons (s : State) (pa : Nat) : Bool :=
  s.objs.any fun e => e.2.commons && e.2.failed && e.2.pages.any fun a => decide (a.toNat / 65536 = pa / 65536)

/-- The candidate of the home-slice hash among `n` (R233). -/
def homeHash (line n : Nat) : Nat := (line * 0x9E37_79B9_7F4A_7C15) % 2 ^ 64 / 2 ^ 32 * n / 2 ^ 32

/-- The home slice of a physical address (R232, R274). Groups that no carve-out owns are hashed over all twelve. -/
def State.homeOf (s : State) (pa : Nat) : Nat :=
  let spread := fun (p : Nat) =>
    let hs := partHalls (s.part p)
    (nth? hs (homeHash (lineNo pa) hs.length)).getD (homeHash (lineNo pa) 12)
  match s.placeOf pa with
  | .hbm g _ =>
    let e := s.hbmEntry g
    if e.mode = 1 then hallOfGroup g else if e.mode = 2 then spread e.part.toNat else homeHash (lineNo pa) 12
  | .cellar g _ _ =>
    let e := s.cellarEntry g
    if e.mode = 3 then spread e.part.toNat else homeHash (lineNo pa) 12
  | .bin h _ => h
  | _ => homeHash (lineNo pa) 12

/-- How far a gating unit is out of service. -/
def State.seal? (s : State) (u : GateUnit) : Option SealState := (s.seals.find? fun e => e.1 = u).map (·.2)
def State.setSeal (s : State) (u : GateUnit) (v : Option SealState) : State :=
  let rest := s.seals.filter fun e => decide (e.1 ≠ u)
  { s with seals := match v with
    | none => rest
    | some x => rest ++ [(u, x)] }

/-- The bank of a bin offset (R231). -/
def binBank (off : Nat) : Nat := 16 * (off / 2 ^ 26) + off / 128 % 16

/-- The status with which a home slice answers a request it performs nothing of: UNPOPULATED, NOT_BIN, SEALED,
ENDPOINT_DEAD, or 0x0000 when it performs it (R236, R264, R266, R447). -/
def State.homeStatus (s : State) (pa : Nat) : W16 :=
  let sealOf := fun u => match s.seal? u with
    | none => (0 : W16)
    | some .dead => 0x0714
    | some _ => 0x0407
  match s.placeOf pa with
  | .nothing => 0x0411
  | .hbm g _ => sealOf (.hbmGroup g)
  | .cellar _ die dev => if s.deadEps.contains (.cellarDevice die dev) then 0x0714 else 0
  | .bin h off =>
    if (s.slice h).binWays * 2 ^ 26 ≤ off then 0x0408 else sealOf (.binBank h (binBank off))
  | _ => 0

/-! ## Memory: the home's copy and the coherent view (chapters 9 and 11) -/

def State.byte (s : State) (pa : Nat) : Byte := tget 0 s.mem pa
def State.setByte (s : State) (pa : Nat) (b : Byte) : State := { s with mem := tset 0 s.mem pa b }

/-- Write bytes from an address upward. -/
def putBytes (m : List Host.Cell) : Nat → List Byte → List Host.Cell
  | _, [] => m
  | pa, b :: t => tset 0 (putBytes m (pa + 1) t) pa b

/-- The home's copy of a line. -/
def State.memLine (s : State) (l : Nat) : Line := lineOf fun i => s.byte (128 * l + i)

def L1Line.dirtyOwner (x : L1Line) : Bool := decide (x.st ≠ .s)

/-- The data of a line in an L1 cache that owns it (R317). -/
def State.ownerData (s : State) (l : Nat) : Option Line :=
  s.cores.findSome? fun e => match tfind e.2.l1 l with
    | some x => if x.dirtyOwner then some x.data else none
    | none => none

/-- A directory entry, keyed by line (R318). -/
def State.dirEntry (s : State) (l : Nat) : DirEntry := tget DirEntry.reset s.dir l

/-- The data of a line on its way with its ownership: in a miss register, a message, or held at the home (R320 to R322). -/
def State.flightData (s : State) (l : Nat) : Option Line :=
  match s.cores.findSome? fun e => match tfind e.2.mshr l with
    | some m => match m.grant with
      | some .s | none => none
      | some _ => some m.data
    | none => none with
  | some d => some d
  | none => match (s.net.find? fun m => decide (m.line = l) &&
      (decide (m.kind = .data ∧ m.grant ≠ .s) || decide (m.kind = .putM) || decide (m.kind = .dataHome))).map (·.data) with
    | some d => some d
    | none => (s.dirEntry l).busy.bind (·.put)

/-- The line as every observer of the partition sees it (R302): the owner's copy, else the copy on its way, else the
home's. -/
def State.cohLine (s : State) (l : Nat) : Line :=
  (s.ownerData l).getD ((s.flightData l).getD (s.memLine l))

/-- Does any cache hold the line, or is it on its way? -/
def State.lineShared (s : State) (l : Nat) : Bool :=
  s.cores.any (fun e => (tfind e.2.l1 l).isSome || (tfind e.2.mshr l).isSome) || s.net.any (fun m => decide (m.line = l)) ||
  ((s.dirEntry l).busy.bind (·.put)).isSome

/-- One byte of the coherent view. -/
def State.cohByte (s : State) (pa : Nat) : Byte :=
  if s.lineShared (lineNo pa) then lineByte (s.cohLine (lineNo pa)) (pa % 128) else s.byte pa

/-- Wake the spin-waiting paths of a core whose word lies in a line (R62); a path that becomes ready ends its group's
run-ahead (R69). -/
def wakeSpins (s : State) (c l : Nat) : State :=
  { s with groups := tmap (fun k g => if k / 48 = c ∧ (g.stack.any fun e => decide (e.2.kind = .spin (some l))) = true then
      { g with
        stack := tmap (fun _ p => if p.kind = .spin (some l) then { p with kind := .spin none, wait := 0 } else p) g.stack
        ra := none }
      else g) s.groups }

/-- Remove a core's copy of a line (R322, R323). -/
def dropCopy (l : Nat) (s : State) (c : Nat) : State :=
  match tfind (s.core c).l1 l with
  | none => s
  | some _ => wakeSpins (s.modCore c fun k => { k with l1 := tdel k.l1 l }) c l

/-- Write an entry and make it the most recently used one; an entry in I with nothing in progress is free. -/
def State.setDir (s : State) (l : Nat) (d : DirEntry) : State :=
  let d' := if d.st = .i ∧ d.busy = none ∧ d.waiting = [] then DirEntry.reset else { d with used := s.dirClock }
  { s with dir := tset DirEntry.reset s.dir l d', dirClock := s.dirClock + 1 }

/-- The home takes the line back from every cache: FwdGetM for the home or Inv (R323); an eviction of it that is on its
way is dropped (R322). The home's copy becomes the coherent line. While another transaction of the line is in progress
the caches keep their copies: the write that follows is ordered before that transaction (`refreshFlight`, log entry 7). -/
def recallLine (s : State) (l : Nat) : State :=
  if s.lineShared l then
    let d := s.cohLine l
    let s1 := { s with mem := putBytes s.mem (128 * l) ((List.range 128).map (lineByte d)) }
    if (s1.dirEntry l).busy.isSome then s1 else
    let s2 := (s.cores.map (·.1)).foldl (dropCopy l) s1
    let s3 := { s2 with net := s2.net.filter fun (m : Msg) => !(decide (m.line = l) && (decide (m.kind = MsgKind.putE) || decide (m.kind = MsgKind.putM))) }
    s3.setDir l { s3.dirEntry l with st := .i }
  else s

/-- The copies of a line that a transaction in progress holds or moves take the home's bytes: the write is ordered before
that transaction (log entry 7). -/
def refreshFlight (s : State) (l : Nat) : State :=
  if s.lineShared l then
    let d := s.memLine l
    let s1 := { s with
      net := s.net.map fun (m : Msg) => if m.line = l then { m with data := d } else m
      cores := tmap (fun _ k => { k with
        mshr := tmap (fun n (m : Mshr) => if n = l then { m with data := d } else m) k.mshr
        l1 := tmap (fun n (x : L1Line) => if n = l then { x with data := d } else x) k.l1 }) s.cores }
    (s1.cores.filter fun e => (tfind e.2.l1 l).isSome).foldl (fun s e => wakeSpins s e.1 l) s1
  else s

/-- The line numbers of a range of bytes. -/
def linesOf (pa n : Nat) : List Nat :=
  if n = 0 then [] else (List.range (lineNo (pa + n - 1) - lineNo pa + 1)).map (lineNo pa + ·)

/-- The sector numbers of a range of bytes. -/
def sectorsOf (pa n : Nat) : List Nat :=
  if n = 0 then [] else (List.range (sectorNo (pa + n - 1) - sectorNo pa + 1)).map (sectorNo pa + ·)

/-- A write of all 32 bytes of a sector clears its poison, a write of fewer leaves it (R439). -/
def clearPoison (p : List Nat) (pa n : Nat) : List Nat :=
  p.filter fun k => !(decide (pa ≤ 32 * k) && decide (32 * k + 32 ≤ pa + n))

/-! ## Events and counters (R453, R454, R472, R473) -/

/-- Raise a lifetime counter of the working copy; it sticks at its maximum (R473). -/
def lifeAdd (s : State) (k n : Nat) : State :=
  let c := tget Life.reset s.reeve.life k
  let v := if c.value + n < 2 ^ 64 - 1 then c.value + n else 2 ^ 64 - 1
  { s with reeve := { s.reeve with
    life := tset Life.reset s.reeve.life k { value := v, stuck := c.stuck || decide (v = 2 ^ 64 - 1) } } }

/-- Nanoseconds since power-up, which no correction of device time touches: what timers run by. -/
def State.clock (s : State) : Nat := s.power.up

/-- An island takes the lower of its two clocks (R465). -/
def Island.clock (i : Island) : Nat := min i.power i.heat

/-- Cycles of a core's island since module reset: counted cycles plus those of the current clock step of 50 MHz. -/
def islandCycles (s : State) (core : Nat) : Nat :=
  let i := tget Island.reset s.reeve.islands (islandOfCore core)
  i.cycles + (s.clock - i.since) * i.clock / 20

def lastN {α : Type} (n : Nat) (l : List α) : List α := l.drop (l.length - n)

/-- Append an event record, or merge a CORRECTED one into the previous record (R453, R454, R475). -/
def logEvent (s : State) (r : EventRec) : State :=
  let merge := match s.flash.events.getLast? with
    | none => none
    | some p => if r.level = 0 ∧ p.level = 0 ∧ p.unit = r.unit ∧ p.die = r.die ∧ p.index = r.index ∧ p.phys = r.phys ∧
        r.time < p.time + 1000000000 then some p else none
  match merge with
  | some p => { s with flash := { s.flash with
      events := s.flash.events.dropLast ++ [{ p with merged := true, repeats := min (p.repeats + 1) 4294967295 }] } }
  | none =>
    let n := (tget Life.reset s.reeve.life 3).value
    let r' := { r with seq := n, lost := s.reeve.eventsLost }
    let f := s.flash
    lifeAdd { s with
      reeve := { s.reeve with eventsLost := false }
      flash := { f with
        events := lastN 2097152 (f.events ++ [r'])
        severe := if r.level = 2 ∨ r.level = 3 ∨ r.level = 4 then lastN 16384 (f.severe ++ [r']) else f.severe } } 3 1

/-- A plain event record (*Table 16-6*). -/
def mkEvent (s : State) (level : BitVec 8) (status : W16) (unit die : BitVec 8) (index : W16) : EventRec :=
  { level := level, status := status, unit := unit, die := die, index := index, part := 0xF, ctx := none, virt := none,
    merged := false, lost := false, time := s.now, phys := 0, repeats := 1, detail := 0, seq := 0 }

def event (s : State) (level : BitVec 8) (status : W16) (unit die : BitVec 8) (index : W16) : State :=
  logEvent s (mkEvent s level status unit die index)

/-- An event that names a context and a physical address. -/
def eventCtx (s : State) (level : BitVec 8) (status : W16) (unit die : BitVec 8) (index : W16) (ctx pa : Nat)
    (detail : W64) : State :=
  logEvent s { mkEvent s level status unit die index with
    ctx := (s.ctx? ctx).map fun c => (ctx, c.gen)
    part := match s.ctx? ctx with
      | some c => BitVec.ofNat 4 c.part
      | none => 0xF
    phys := BitVec.ofNat 48 pa, detail := detail }

/-- DETAIL of a poison event is the syndrome, which the model leaves free (*Table 16-6*, log entry 1). -/
def withSyndrome (s : State) (r : EventRec) : State :=
  let (s1, n) := s.freeVal
  logEvent s1 { r with detail := w64 n }

/-- Raise a lifetime counter; the Reeve records 0x0817 when it first sticks (R473). -/
def lifeUp (s : State) (k n : Nat) : State :=
  let was := (tget Life.reset s.reeve.life k).stuck
  let s1 := lifeAdd s k n
  if (tget Life.reset s1.reeve.life k).stuck && !was then event s1 5 0x0817 0x0D 0x41 (BitVec.ofNat 16 k) else s1

/-- The key of a performance counter (*Table 17-9*): unit kind, unit, number. -/
def counterKey (kind unit num : Nat) : Nat := (kind * 65536 + unit) * 65536 + num

/-- Count in a performance counter of 48 bits; a wrap is recorded (R472). -/
def countUp (s : State) (kind unit num n : Nat) : State :=
  let k := counterKey kind unit num
  let c := tget Counter.reset s.counters k
  let v := c.value + n
  let c1 : Counter := { value := v % 2 ^ 48, wraps := min (c.wraps + v / 2 ^ 48) 0x7FFF, ovf := c.ovf || decide (2 ^ 48 ≤ v) }
  let s1 := { s with counters := tset Counter.reset s.counters k c1 }
  if 2 ^ 48 ≤ v then
    logEvent s1 { mkEvent s1 5 0x0810 0x0D 0x41 0xFFFF with detail := w64 k }
  else s1

/-! ## Tentative regions (R246 to R261) -/

/-- The pool lines of a line at its home slice. -/
def State.poolOf (s : State) (pa : Nat) : List PoolLine :=
  (s.slice (s.homeOf pa)).pool.filter fun p => decide (p.line = lineNo pa)

/-- Is the line held (R249, R251)? -/
def State.isHeld (s : State) (pa : Nat) : Bool := !(s.poolOf pa).isEmpty

/-- Newest sequence first. -/
def newestFirst (ps : List PoolLine) : List PoolLine := ps.foldr (fun p acc =>
  (acc.takeWhile fun q => decide (p.seq < q.seq)) ++ p :: (acc.dropWhile fun q => decide (p.seq < q.seq))) []

/-- Does a slice still show an epoch's own lines? While the epoch is OPEN, and while it is CLOSING until the slice has
applied the command (R250, R256, log entry 130). -/
def State.viewOpen (s : State) (e h : Nat) : Bool :=
  decide ((s.epoch e).state = .opened) || (decide ((s.epoch e).state = .closing) && (match (s.epoch e).cmd with
    | some c => c.apply.contains h
    | none => false))

/-- The pool lines that a read looks in, in order (R250); `e` is the epoch's index, 64 × partition + number. -/
def State.viewOf (s : State) (pa : Nat) (e : Option Nat) : List PoolLine :=
  let ps := s.poolOf pa
  let own := match e with
    | none => []
    | some n =>
      if s.viewOpen n (s.homeOf pa) then
        newestFirst (ps.filter fun p => decide (p.tag = .held n)) ++
        (match (s.epoch n).parent with
         | none => []
         | some q => newestFirst (ps.filter fun p => decide (p.tag = .held (n / 64 * 64 + q))))
      else []
  own ++ newestFirst (ps.filter fun p => match p.tag with
    | .committed _ => true
    | _ => false)

/-- One byte as a read in an epoch, or a plain read, sees it (R250). -/
def State.readByte (s : State) (e : Option Nat) (pa : Nat) : Byte :=
  match (s.viewOf pa e).find? fun p => p.mask.getLsbD (pa % 128) with
  | some p => lineByte p.data (pa % 128)
  | none => s.cohByte pa

def State.read (s : State) (e : Option Nat) (pa n : Nat) : List Byte := (List.range n).map fun i => s.readByte e (pa + i)

/-- Is a byte of the range in a poisoned sector, or in a pool line of the view that is POISONED (R438, R440)? -/
def State.poisoned (s : State) (e : Option Nat) (pa n : Nat) : Bool :=
  (sectorsOf pa n).any (fun k => s.poison.contains k) ||
  ((linesOf pa n).any fun l => (s.viewOf (128 * l) e).any fun p => p.poisoned)

/-- The poison of a line's sectors after a pool line has been folded into it: a poisoned pool line poisons the sectors it
writes, a sound one clears those it writes whole (R438, R439). -/
def foldPoison (poison : List Nat) (p : PoolLine) : List Nat :=
  (List.range 4).foldl (fun ps k =>
    let bytes := (List.range 32).filter fun i => p.mask.getLsbD (32 * k + i)
    if p.poisoned && !bytes.isEmpty then addOnce (4 * p.line + k) ps
    else if bytes.length = 32 then ps.filter fun x => decide (x ≠ 4 * p.line + k)
    else ps) poison

/-- Fold one committed pool line into its committed line (R251, R259). -/
def foldOne (s : State) (p : PoolLine) : State :=
  let s1 := recallLine s p.line
  let held := (List.range 128).filter fun i => p.mask.getLsbD i
  let m := held.foldl (fun m i => tset 0 m (128 * p.line + i) (lineByte p.data i)) s1.mem
  { s1 with mem := m, poison := foldPoison s1.poison p }

/-- A FOLDING or RECLAIMING epoch becomes FREE when no slice holds a pool line of it (R259). -/
def sweepEpochs (s : State) : State :=
  let busy := fun (n : Nat) => s.slices.any fun e => e.2.pool.any fun p => match p.tag with
    | .held k | .committed k | .void k => decide (k = n)
  { s with epochs := tfilter (fun _ v => decide (v ≠ Epoch.reset)) (tmap (fun n v =>
      if (v.state = .folding ∨ v.state = .reclaiming) ∧ v.cmd = none ∧ ¬ busy n = true then
        { v with state := .free, overflow := false, poisoned := false, parent := none } else v) s.epochs) }

/-- Fold the committed pool lines of a line, oldest first, and drop them from the pool. -/
def foldCommitted (s : State) (h l : Nat) : State :=
  let isC := fun (p : PoolLine) => decide (p.line = l) && (match p.tag with
    | .committed _ => true
    | _ => false)
  let ps := (newestFirst ((s.slice h).pool.filter isC)).reverse
  let s1 := ps.foldl foldOne s
  if ps.isEmpty then s1 else sweepEpochs (s1.setSlice h { s1.slice h with pool := (s1.slice h).pool.filter fun p => !isC p })

/-- Write bytes plainly at their homes (R249, R251, R323): every cached copy is removed first, committed pool lines of
a held line are folded first, whole sectors lose their poison. -/
def State.write (s : State) (pa : Nat) (bs : List Byte) : State :=
  let ls := linesOf pa bs.length
  let s1 := ls.foldl recallLine s
  let s2 := ls.foldl (fun s l => foldCommitted s (s.homeOf (128 * l)) l) s1
  let s3 := { s2 with mem := putBytes s2.mem pa bs, poison := clearPoison s2.poison pa bs.length }
  ls.foldl refreshFlight s3

/-- The index of an epoch's parent. -/
def State.parentOf (s : State) (e : Nat) : Option Nat := (s.epoch e).parent.map fun q => e / 64 * 64 + q

/-- Has a DISCARD of the epoch's parent already voided its lines in a slice (R255)? -/
def State.parentVoided (s : State) (e h : Nat) : Bool :=
  decide ((s.epoch e).state = .reclaiming) || (match s.parentOf e with
    | none => false
    | some q => match (s.epoch q).cmd with
      | some c => !c.commit && !c.apply.contains h
      | none => false)

/-- What a slice answers a write in an epoch before it acts: EPOCH_CLOSED when the epoch is not OPEN, or its parent's
DISCARD has voided it here (R257, log entry 131); SEALED or ENDPOINT_DEAD for its pool way (R264, R447). -/
def State.poolStatus (s : State) (e h : Nat) : W16 :=
  if (s.epoch e).state ≠ .opened ∨ s.parentVoided e h = true then 0x0409
  else match s.seal? (.poolWay h) with
    | none => 0
    | some .dead => 0x0714
    | some _ => 0x0407

/-- Is an address on a page whose move has begun (R261, R288)? -/
def State.pageMoving (s : State) (pa : Nat) : Bool :=
  s.moves.any fun m => decide (m.src.toNat ≤ pa) && decide (pa < m.src.toNat + m.size)

/-- Is an address on a page that is being copied (R287 step 4)? -/
def State.pageCopying (s : State) (pa : Nat) : Bool :=
  s.moves.any fun m => m.copying && decide (m.src.toNat ≤ pa) && decide (pa < m.src.toNat + m.size)

/-- Write the bytes of one line in an epoch (R249, R257, R258). -/
def poolWriteLine (s : State) (e l : Nat) (mask : BitVec 128) (data : Line) : State × W16 :=
  let h := s.homeOf (128 * l)
  let ep := s.epoch e
  if s.poolStatus e h ≠ 0 then (s, s.poolStatus e h) else
  let s1 := if s.isHeld (128 * l) then s else recallLine s l
  let sl := s1.slice h
  let mine := newestFirst (sl.pool.filter fun p => decide (p.line = l) && decide (p.tag = .held e))
  let mix := fun (old : Line) => lineOf fun i => if mask.getLsbD i then lineByte data i else lineByte old i
  match mine with
  | p :: _ =>
    let p' := { p with mask := p.mask ||| mask, data := mix p.data }
    (countUp (s1.setSlice h { sl with pool := sl.pool.map fun q => if q = p then p' else q }) 1 h 4 1, 0)
  | [] =>
    if 524288 ≤ sl.pool.length then (countUp (s.setEpoch e { ep with overflow := true }) 1 h 7 1, 0) else
    let nl : PoolLine := { line := l, tag := .held e, mask := mask, seq := sl.poolSeq, data := mix 0, poisoned := false }
    let s2 := s1.setSlice h { sl with pool := sl.pool ++ [nl], poolSeq := sl.poolSeq + 1 }
    (countUp s2 1 h 4 1, 0)

/-- Write bytes in an epoch, line by line; the first status other than 0x0000 is the write's. -/
def State.poolWrite (s : State) (e pa : Nat) (bs : List Byte) : State × W16 :=
  (linesOf pa bs.length).foldl (fun (acc : State × W16) l =>
    if acc.2 ≠ 0 then acc else
    let inb := fun i => decide (pa ≤ 128 * l + i) && decide (128 * l + i < pa + bs.length)
    poolWriteLine acc.1 e l (BitVec.ofNat 128 (packFields 1 (fun i => if inb i then 1 else 0) 128))
      (lineOf fun i => if inb i then (nth? bs (128 * l + i - pa)).getD 0 else 0)) (s, 0)

/-- A write of an agent that does not cache, plain or in an epoch (R249, R323). -/
def State.unitWrite (s : State) (e : Option Nat) (pa : Nat) (bs : List Byte) : State × W16 :=
  match e with
  | none => (s.write pa bs, 0)
  | some n => s.poolWrite n pa bs

/-! ## Losses and notices (R356, R374) -/

/-- Queue a notice; past 4,096 unacknowledged ones it is discarded and the next one sent says so (R356). -/
def notify (s : State) (n : Notice) : State :=
  if 4096 ≤ s.notices.length + (if s.noticeOut.isSome then 1 else 0) then { s with noticeLost := true }
  else { s with notices := s.notices ++ [n] }

def noticeOf (s : State) (code : W16) (ctx gen : Nat) (status : W16) (handle : W32) (addr : W64) : Notice :=
  { code := code, ctx := ctx, gen := gen, status := status, handle := handle, time := s.now, addr := addr }

/-- A loss of a context has arisen; the Steward carries it out at CONTEXT_LOSS (R374). -/
def addLoss (s : State) (ctx : Nat) (status : W16) (core : Nat) (station : W32) (addr : W64) (logged : Bool) : State :=
  match s.ctx? ctx with
  | none => s
  | some c => { s with lossQ := s.lossQ ++
      [{ ctx := ctx, gen := c.gen, status := status, core := core, station := station, addr := addr, logged := logged }] }

/-- A loss whose event record the Steward's step writes. -/
def lose (s : State) (ctx : Nat) (status : W16) (core : Nat) (station : W32) (addr : W64) : State :=
  addLoss s ctx status core station addr false

/-- A loss that no core caused: core 0xFFFF, station 0 (*Table 13-4*). -/
def loseCtx (s : State) (ctx : Nat) (status : W16) (addr : Nat) : State := lose s ctx status 0xFFFF 0 (w64 addr)

end Sys2Proof.Machine
end

