-- ==== Sys2Proof/Machine/Homes.lean ====
section
/-! DEFINITION. What a request meets at its home slice: lookups, fills and evictions by class and attribute (R237 to R244),
the coherence messages, and the home's own transactions, which take a line back from the L1 data caches before a requester
that does not cache acts on it (R319 to R323). The data of cache lines is the home view of memory (log entry 6). -/

namespace Sys2Proof.Machine

/-! ## Ways and sets (R235, R237 to R239) -/

/-- The set of a line (R238). -/
def setOf (l : Nat) : Nat := (l % 2 ^ 19) ^^^ (l / 2 ^ 19 % 2 ^ 19) ^^^ (l / 2 ^ 38 % 8)

/-- The lowest bit of a class's mask in GRANARY_WAYMASK (*Table 9-3*). -/
def maskBase : RClass → Nat
  | .core => 0
  | .pref => 16
  | .unit => 32
  | .dma => 48
  | .port => 64
  | .walk => 80

/-- A way that is neither a bin way nor the pool (R235). -/
def Slice.isCache (sl : Slice) (w : Nat) : Bool := decide (sl.binWays ≤ w) && !(sl.tent && w == 15)

/-- The cache ways that a class's mask names (R237). -/
def State.maskWays (s : State) (h : Nat) (cls : RClass) (commons : Bool) : List Nat :=
  let sl := s.slice h
  (List.range 16).filter fun w => sl.isCache w && sl.wayMask.getLsbD ((if commons then 96 else maskBase cls) + w)

/-- The cache ways in which a fill may allocate: named by the mask and not sealed (R237, R263). -/
def State.fillWays (s : State) (h : Nat) (cls : RClass) (commons : Bool) : List Nat :=
  (s.maskWays h cls commons).filter fun w => (s.seal? (.cacheWay h w)).isNone

/-- The way a fill takes: the lowest one whose set holds no line, else the least recently used of the permitted (R239).
Answers the way and the victim. -/
def pickWay (sl : Slice) (ways : List Nat) (l : Nat) : Option (Nat × Option CLine) :=
  let here := sl.lines.filter fun x => decide (setOf x.line = setOf l)
  let taken := sl.fills.filter fun f => decide (setOf f.line = setOf l)
  let busy := fun w => taken.any fun f => f.way == w
  match ways.find? fun w => !(here.any fun x => decide (x.way = w)) && !busy w with
  | some w => some (w, none)
  | none => (here.reverse.find? fun x => ways.contains x.way && !busy x.way).map fun x => (x.way, some x)

/-- The key of a regulator: resource 0 to 23 a stack, 24 and 25 CL0 and CL1 (*Table 13-2*). -/
def regKey (resource part : Nat) : Nat := 16 * resource + part

/-- The resource whose regulators count the traffic of an address (R295). -/
def State.resourceOf (s : State) (pa : Nat) : Option Nat :=
  match s.placeOf pa with
  | .hbm g _ => some (g / 4)
  | .cellar _ die _ => some (24 + die)
  | _ => none

/-- The partition that owns the group of an address (*Table 10-3*). -/
def State.groupOwner (s : State) (pa : Nat) : Nat :=
  match s.placeOf pa with
  | .hbm g _ => (s.hbmEntry g).part.toNat
  | .cellar g _ _ => (s.cellarEntry g).part.toNat
  | _ => 0xFF

/-- Charge bytes of memory traffic to a partition (R295). -/
def chargePart (s : State) (part pa n : Nat) : State :=
  match s.resourceOf pa with
  | some r =>
    let x := tget Regulator.reset s.regs (regKey r part)
    { s with regs := tset Regulator.reset s.regs (regKey r part) { x with used := x.used + n } }
  | none => s

/-- Charge a fill, write-back or memory write: to the partition that owns the group, for a commons to the partition whose
request it serves, that of the core's hall die (R295). -/
def charge (s : State) (core pa n : Nat) : State :=
  if s.groupOwner pa < 12 then chargePart s (s.groupOwner pa) pa n
  else match s.partOfHall (hallOfCore core) with
    | some p => chargePart s p pa n
    | none => s

/-- Count a fill in the heat table of the slice: 8,192 frames of a partition, least recently filled last (R290). -/
def addHeat (s : State) (h pa : Nat) : State :=
  if 12 ≤ s.groupOwner pa then s else
  let key := 16 * h + s.groupOwner pa
  let t := tget [] s.heat key
  let f := pa / 65536
  let n := ((t.find? fun e => decide (e.1 = f)).map (·.2)).getD 0
  { s with heat := tset [] s.heat key (((f, n + 1) :: t.filter fun e => decide (e.1 ≠ f)).take 8192) }

/-- The line that a fill has to write to memory before it may read (R240). -/
def dirtyVictim (way : Nat × Option CLine) : Option Nat := way.2.bind fun v => if v.dirty then some v.line else none

/-- Start a fill whose requested sector is `first` (R239, R240, R243): a clean victim is dropped, a dirty one stays until
its write is accepted. -/
def startFill (s : State) (h l : Nat) (way : Nat × Option CLine) (first : Nat) (joined : List Joined) (dirty : Bool) : State :=
  let sl := s.slice h
  let f : Fill := { line := l, way := way.1, victim := dirtyVictim way, first := first, got := 0, joined := joined, dirty := dirty }
  let lines := match way.2, dirtyVictim way with
    | some v, none => sl.lines.filter fun x => decide (x.line ≠ v.line)
    | _, _ => sl.lines
  let s1 := addHeat (countUp (s.setSlice h { sl with lines := lines, fills := sl.fills ++ [f] }) 1 h 1 1) h (128 * l)
  if (dirtyVictim way).isSome then countUp s1 1 h 2 1 else s1

/-- Install a line that is written whole: no fill reads memory, but a dirty victim is written out first (R240, R244). -/
def installWhole (s : State) (h l : Nat) (way : Nat × Option CLine) (dirty : Bool) : State :=
  let sl := s.slice h
  match dirtyVictim way with
  | some v =>
    let f : Fill := { line := l, way := way.1, victim := some v, first := 0, got := 15, joined := [], dirty := dirty }
    countUp (s.setSlice h { sl with fills := sl.fills ++ [f] }) 1 h 2 1
  | none =>
    let lines := match way.2 with
      | some v => sl.lines.filter fun x => decide (x.line ≠ v.line)
      | none => sl.lines
    s.setSlice h { sl with lines := { line := l, way := way.1, dirty := dirty } :: lines }

/-- Drop a line from the cache ways of a slice; a dirty one is written to memory first. -/
def dropLine (s : State) (h l : Nat) : State :=
  let sl := s.slice h
  let s1 := s.setSlice h { sl with lines := sl.lines.filter fun x => decide (x.line ≠ l) }
  if (sl.lines.any fun x => decide (x.line = l) && x.dirty) = true then charge s1 0 (128 * l) 128 else s1

/-- Make a line the most recently used one, dirty when it was written. -/
def touchLine (s : State) (h l : Nat) (dirty : Bool) : State :=
  let sl := s.slice h
  match sl.lines.find? fun x => decide (x.line = l) with
  | some x => s.setSlice h { sl with lines := { x with dirty := x.dirty || dirty } :: sl.lines.filter fun y => decide (y.line ≠ l) }
  | none => s

/-- A line of a slice, valid in a cache way. -/
def Slice.hit (sl : Slice) (l : Nat) : Option CLine := sl.lines.find? fun x => decide (x.line = l)
/-- The outstanding fill of a line. -/
def Slice.filling (sl : Slice) (l : Nat) : Option Fill := sl.fills.find? fun f => decide (f.line = l)

/-- The line is the victim of a fill whose write the memory controller has not accepted: a write to it waits (R240). -/
def State.victimBusy (s : State) (l : Nat) : Bool := (s.slice (s.homeOf (128 * l))).fills.any fun f => decide (f.victim = some l)

/-- The home slice tells a core that its read, or its prefetch, is being filled from memory (R242). -/
def missNotice (s : State) (cls : RClass) (core l : Nat) : State :=
  if cls = .core ∨ cls = .pref then (s.modCore core fun k => { k with notes := addOnce l k.notes }).emit (.miss core l) else s

/-! ## A read and a write that reach a slice (*Table 9-4*) -/

/-- What a read of a class and attribute leaves in its home slice: a hit is the most recently used line, a miss fills and
allocates for a write-back or write-through page, an uncached page's line is written back and invalidated. Bins and device
pages have no cache line. -/
def homeRead (s : State) (cls : RClass) (core attr pa : Nat) : State :=
  let h := s.homeOf pa
  let l := lineNo pa
  let sl := s.slice h
  let far := fun (_ : Unit) =>
    match sl.hit l with
    | some _ => if attr = 3 then dropLine s h l else countUp (touchLine s h l false) 1 h 0 1
    | none =>
      match sl.filling l with
      | some f => if f.got.getLsbD (pa % 128 / 32) then s else missNotice s cls core l
      | none =>
        match (if attr ≤ 1 then pickWay sl (s.fillWays h cls (s.commonsAddr pa)) l else none) with
        | some w => missNotice (charge (startFill s h l w (pa % 128 / 32) [] false) core pa 128) cls core l
        | none => charge (addHeat s h pa) core pa 128
  match s.placeOf pa with
  | .hbm _ _ | .cellar _ _ _ => far ()
  | _ => s

/-- Does a write of a class and attribute leave its line dirty in the slice? A class whose mask names no cache way behaves
as write-around (R237). -/
def State.writesBack (s : State) (h : Nat) (cls : RClass) (attr pa : Nat) : Bool :=
  decide (attr = 0) && !(s.maskWays h cls (s.commonsAddr pa)).isEmpty

/-- What a write of `n` bytes that misses leaves in the slice: it allocates for a write-back or write-through page, with a
fill unless it writes the whole line; a line that is being filled keeps the mark. -/
def writeMiss (s : State) (cls : RClass) (attr pa n : Nat) : State :=
  let h := s.homeOf pa
  let l := lineNo pa
  let sl := s.slice h
  let wb := s.writesBack h cls attr pa
  if 2 ≤ attr then charge s 0 pa n else
  match sl.filling l with
  | some _ => s.setSlice h { sl with fills := sl.fills.map fun (f : Fill) => if f.line = l then { f with dirty := f.dirty || wb } else f }
  | none =>
    match pickWay sl (s.fillWays h cls (s.commonsAddr pa)) l with
    | none => charge s 0 pa n
    | some w =>
      let s1 := if wb then s else charge s 0 pa n
      if n = 128 then installWhole s1 h l w wb else charge (startFill s1 h l w (pa % 128 / 32) [] wb) 0 pa 128

/-- What a write of `n` bytes of one line leaves in its home slice. A write that hits a line of a sealed way first writes
the line to memory and invalidates it, and is then a miss (R263). -/
def homeWrite (s : State) (cls : RClass) (attr pa n : Nat) : State :=
  let h := s.homeOf pa
  let l := lineNo pa
  let far := fun (_ : Unit) =>
    match (s.slice h).hit l with
    | some x =>
      if attr = 3 then charge (dropLine s h l) 0 pa n
      else if (s.seal? (.cacheWay h x.way)).isSome then writeMiss (dropLine s h l) cls attr pa n
      else
        let wb := s.writesBack h cls attr pa
        let s1 := countUp (touchLine s h l wb) 1 h 0 1
        if wb then s1 else charge s1 0 pa n
    | none => writeMiss s cls attr pa n
  match s.placeOf pa with
  | .hbm _ _ | .cellar _ _ _ => far ()
  | _ => s

/-! ## Coherence messages (*Table 11-7*) -/

def mkMsg (kind : MsgKind) (line : Nat) (src dst requester : Option Nat) (data : Line) (count : Nat) (dirty : Bool)
    (grant : Mesi) : Msg :=
  { kind := kind, line := line, src := src, dst := dst, requester := requester, data := data, count := count,
    dirty := dirty, grant := grant, pref := false }

def send (s : State) (m : Msg) : State := { s with net := s.net ++ [m] }

/-- The cores that an invalidation goes to: the pointers, or every enabled core of the marked dies (R318). -/
def State.sharers (s : State) (d : DirState) (c : Option Nat) : List Nat :=
  match d with
  | .ptrs cs => cs.filter fun x => decide (some x ≠ c)
  | .coarse m => (List.range Config.cores).filter fun x => m.getLsbD (dieOfCore x) && s.coreEnabled x && decide (some x ≠ c)
  | _ => []

/-- Write a directory entry without making it the most recently used one; an entry in I with nothing in progress is free. -/
def State.markDir (s : State) (l : Nat) (d : DirEntry) : State :=
  let d' := if d.st = .i ∧ d.busy = none ∧ d.waiting = [] then DirEntry.reset else d
  { s with dir := tset DirEntry.reset s.dir l d' }

/-! ## The home's own transactions (R319 to R323) -/

/-- May a requester that does not cache act on a line now? No transaction is in progress, for a read no cache owns the
line, for a write no cache holds it and it is not a victim on its way to memory (R240, R320, R323). -/
def State.homeIdle (s : State) (l : Nat) (write : Bool) : Bool :=
  let d := s.dirEntry l
  d.busy.isNone && (match d.st with
    | .i => true
    | .owned _ => false
    | .ptrs _ | .coarse _ => !write) && !(write && s.victimBusy l)

/-- The home takes a line back for itself: FwdGetS or FwdGetM to its owner, or Inv to its sharers. The entry is BUSY until
the home's own last answer (R320, R323). With a transaction in progress the request waits its turn. -/
def homeCall (s : State) (l : Nat) (write : Bool) : State :=
  let d := s.dirEntry l
  let txn := fun (o : Option Nat) (n : Nat) =>
    ({ core := none, grant := if write then .m else .s, owner := o, put := none, acks := n, copy := o.isSome, done := false } : Txn)
  match d.busy with
  | some _ => s
  | none =>
    match d.st with
    | .owned o =>
      send (s.markDir l { d with busy := some (txn (some o) 0) })
        (mkMsg (if write then .fwdGetM else .fwdGetS) l none (some o) none 0 0 false (if write then .m else .s))
    | .i => s
    | x =>
      if write = false then s else
      match s.sharers x none with
      | [] => s.markDir l { d with st := .i }
      | cs => cs.foldl (fun s c => send s (mkMsg .inv l none (some c) none 0 0 false .s))
          (s.markDir l { d with busy := some (txn none cs.length) })

/-- A requester that does not cache claims a line: it may act now, or the home has begun to take the line back, and the
request is made again (log entry 19). -/
def claimLine (s : State) (l : Nat) (write : Bool) : State × Bool :=
  if s.homeIdle l write then (s, true) else (homeCall s l write, false)

/-- Claim every line of a range. -/
def claimRange (s : State) (pa n : Nat) (write : Bool) : State × Bool :=
  (linesOf pa n).foldl (fun (acc : State × Bool) l =>
    let (s1, ok) := claimLine acc.1 l write
    (s1, acc.2 && ok)) (s, true)

end Sys2Proof.Machine
end

