-- ==== Sys2Proof/Machine/Walks.lean ====
section
/-! DEFINITION. Translation: page tables and their walks, walk caches, translation lookaside buffers, and the permissions of
an access (R275 to R282). -/

namespace Sys2Proof.Machine

/-! ## Page tables, walks and TLBs (R275 to R282) -/

def leafV (e : W64) : Bool := e.getLsbD 0
def leafIs (e : W64) : Bool := e.getLsbD 2
def leafFrame (e : W64) : Nat := bits e 47 16 * 65536
def leafR (e : W64) : Bool := e.getLsbD 48
def leafW (e : W64) : Bool := e.getLsbD 49
def leafX (e : W64) : Bool := e.getLsbD 50
def leafAttr (e : W64) : Nat := bits e 53 51
def leafMoving (e : W64) : Bool := e.getLsbD 54
def leafNoMove (e : W64) : Bool := e.getLsbD 55
def leafCommons (e : W64) : Bool := e.getLsbD 56
def leafEp (e : W64) : Bool := e.getLsbD 57
def leafEpoch (e : W64) : Nat := bits e 63 58

/-- The lowest virtual address bit a level translates (*Table 10-5*); below it lies the page offset. -/
def levelShift : Nat → Nat
  | 0 => 16
  | 1 => 21
  | 2 => 30
  | 3 => 39
  | _ => 48

def levelIndex (level v : Nat) : Nat :=
  match level with
  | 0 => v / 2 ^ 16 % 32
  | 1 => v / 2 ^ 21 % 512
  | 2 => v / 2 ^ 30 % 512
  | 3 => v / 2 ^ 39 % 512
  | _ => v / 2 ^ 48 % 256

/-- The size of a level's table in bytes. -/
def tableSize : Nat → Nat
  | 0 => 256
  | 4 => 2048
  | _ => 4096

def isWindow (c : Bool) (pa : Nat) : Bool := (placeOf c pa).isDevice

/-- A valid entry is malformed by its own fields (R278). -/
def malformed (c : Bool) (level : Nat) (e : W64) : Bool :=
  if leafIs e then
    let f := leafFrame e
    level == 4 || level == 3 || decide (bits e 15 3 ≠ 0) || e.getLsbD 1 || decide (f % 2 ^ levelShift level ≠ 0) ||
    decide (4 < leafAttr e) || (decide (leafAttr e = 4) != isWindow c f) || (leafW e && !leafR e) ||
    (leafX e && decide (leafAttr e = 4)) || (leafCommons e && (leafW e || decide (leafAttr e ≠ 0))) ||
    (leafEp e && (decide (leafAttr e ≠ 2) || leafCommons e)) || (!leafEp e && decide (leafEpoch e ≠ 0)) ||
    (leafMoving e && level == 2)
  else
    level == 0 || decide (bits e 63 48 ≠ 0) || decide (bits e 7 3 ≠ 0) || e.getLsbD 1 ||
    decide (bits e 47 8 * 256 % tableSize (level - 1) ≠ 0)

/-- What a walk ends in. -/
inductive Walk where
  | leaf (level : Nat) (at_ : Nat) (e : W64)
  | invalid
  | malformed (at_ : Nat)
  | poisoned
  | rejected (status : W16) (at_ : Nat)
  deriving DecidableEq, Repr

/-- Read one table entry through the granary (R282). -/
def State.tableEntry (s : State) (pa : Nat) : W64 := w64 (leNat (s.read none pa 8))

/-- Walk the levels that are left from a table (R275 to R278). -/
def walkFrom (s : State) (v : Nat) : List Nat → Nat → Walk
  | [], _ => .invalid
  | level :: rest, table =>
    let pa := table + 8 * levelIndex level v
    if s.homeStatus pa ≠ 0 then .rejected (s.homeStatus pa) pa
    else if s.poisoned none pa 8 then .poisoned
    else
      let e := s.tableEntry pa
      if !leafV e then .invalid
      else if malformed s.orderC level e then .malformed pa
      else if leafIs e then .leaf level pa e
      else walkFrom s v rest (bits e 47 8 * 256)

def State.walk (s : State) (ctx v : Nat) : Walk :=
  match s.ctx? ctx with
  | none => .invalid
  | some c => if 2 ^ 56 ≤ v then .invalid else walkFrom s v [4, 3, 2, 1, 0] c.root.toNat

/-! ## The walk cache (R281, R282) -/

/-- The hall die whose walkers serve a structure; HD1 serves the gate die (*Table 10-9*). -/
def hallOfStruct : TlbStruct → Nat
  | .core c => hallOfCore c
  | .island i => i / 44
  | .hall h | .engine h _ => h
  | .folest => 1

/-- A pointer entry enters the walk cache of a hall die; a full cache drops the entry that a free value chooses (log
entry 1). -/
def walkInstall (s : State) (e : WalkEntry) : State :=
  let mine := s.walkCache.filter fun x => decide (x.hall = e.hall)
  if mine.length < 1024 then { s with walkCache := s.walkCache ++ [e] }
  else
    let (s1, n) := s.freeVal
    match nth? mine (n % mine.length) with
    | none => { s1 with walkCache := s1.walkCache ++ [e] }
    | some d => { s1 with walkCache := s1.walkCache.erase d ++ [e] }

/-- Walk the levels that are left, reading each entry through its home slice with class WALK (R282), and taking pointer entries from the walk cache where it holds them. -/
def walkerFrom (s0 : State) (hall ctx v : Nat) : List Nat → Nat → State × Walk
  | [], _ => (s0, .invalid)
  | level :: rest, table =>
    match s0.walkCache.find? fun x => decide (x.hall = hall) && decide (x.asid = ctx) && decide (x.level = level) &&
        decide (x.vpn = v / 2 ^ levelShift level) with
    | some x => walkerFrom s0 hall ctx v rest (bits x.entry 47 8 * 256)
    | none =>
      let pa := table + 8 * levelIndex level v
      if s0.homeStatus pa ≠ 0 then (s0, .rejected (s0.homeStatus pa) pa) else
      let s := homeRead s0 .walk (352 * hall) 0 pa
      if s.poisoned none pa 8 then (s, .poisoned)
      else
        let e := s.tableEntry pa
        if !leafV e then (s, .invalid)
        else if malformed s.orderC level e then (s, .malformed pa)
        else if leafIs e then (s, .leaf level pa e)
        else
          let x : WalkEntry := { hall := hall, asid := ctx, level := level, vpn := v / 2 ^ levelShift level, entry := e }
          walkerFrom (walkInstall s x) hall ctx v rest (bits e 47 8 * 256)

/-- A walk for an agent that one structure serves, by the walkers of its hall die (R281, R282). -/
def walker (s : State) (st : TlbStruct) (ctx v : Nat) : State × Walk :=
  match s.ctx? ctx with
  | none => (s, .invalid)
  | some c => if 2 ^ 56 ≤ v then (s, .invalid) else walkerFrom s (hallOfStruct st) ctx v [4, 3, 2, 1, 0] c.root.toNat

/-- The entries that a structure holds (*Table 10-9*), for an island TLB those of one of its 256 sets of 8. -/
def tlbLimit : TlbStruct → Bool → Nat
  | .core _, true => 32
  | .core _, false => 96
  | .island _, _ => 8
  | .hall _, _ => 0
  | _, _ => 256

/-- A TLB hit of a structure, or of the island TLB behind a core. -/
def State.tlbFind (s : State) (st : TlbStruct) (fetch : Bool) (ctx v : Nat) : Option TlbEntry :=
  let hit := fun (t : TlbStruct) (f : Bool) => s.tlb.find? fun e => decide (e.st = t) && (e.fetch == f) &&
    decide (e.asid = ctx) && decide (e.vpn = v / 2 ^ levelShift e.level)
  match st with
  | .core c => match hit st fetch with
    | some e => some e
    | none => hit (.island (islandOfCore c)) false
  | _ => hit st false

/-- Do two entries compete for room? In an island TLB those of one set do (log entry 136). -/
def sameTlbSet (st : TlbStruct) (a b : TlbEntry) : Bool :=
  match st with
  | .island _ => decide (Config.tlbSet a.asid a.level a.vpn % 256 = Config.tlbSet b.asid b.level b.vpn % 256)
  | _ => true

/-- Install a leaf in a structure; a full structure drops the entry that a free value chooses (log entry 1). -/
def tlbInstall (s : State) (st : TlbStruct) (fetch : Bool) (e : TlbEntry) : State :=
  let mine := s.tlb.filter fun x => decide (x.st = st) && (x.fetch == fetch) && sameTlbSet st x e
  if mine.length < tlbLimit st fetch then { s with tlb := s.tlb ++ [e] }
  else
    let (s1, n) := s.freeVal
    match nth? mine (n % mine.length) with
    | none => { s1 with tlb := s1.tlb ++ [e] }
    | some d => { s1 with tlb := s1.tlb.erase d ++ [e] }

/-- A walk's leaf enters the structures that asked for it; a MOVING leaf never does (R280 to R282). -/
def tlbFill (s : State) (st : TlbStruct) (fetch : Bool) (ctx v level : Nat) (e : W64) : State :=
  let mk := fun t f => ({ st := t, fetch := f, asid := ctx, level := level, vpn := v / 2 ^ levelShift level, leaf := e } : TlbEntry)
  match st with
  | .hall _ => s
  | .core c =>
    let i := TlbStruct.island (islandOfCore c)
    let s1 := tlbInstall s st fetch (mk st fetch)
    if s1.tlb.contains (mk i false) then s1 else tlbInstall s1 i false (mk i false)
  | _ => tlbInstall s st false (mk st false)

/-- What an access needs of its page (R279). -/
inductive Need where
  | r | w | rw | x
  deriving DecidableEq, Repr

def permitted (need : Need) (e : W64) : Bool :=
  match need with
  | .r => leafR e
  | .w => leafW e
  | .rw => leafR e && leafW e
  | .x => leafX e

/-- What a translation answers. -/
inductive Tr where
  | ok (pa : Nat) (leaf : W64)
  | moving
  | fault (status : W16)
  deriving DecidableEq, Repr

/-- The physical address of a virtual one under a leaf at a level. -/
def leafAddr (level v : Nat) (e : W64) : Nat := leafFrame e + v % 2 ^ levelShift level

/-- A unit of a hall die, the gate die or the Steward's own access loses a context: the event names the unit and where the
request went (R374, R448). A request of a context that is DESTROYING is dropped and records nothing. -/
def loseBy (s : State) (u : BitVec 8 × BitVec 8 × W16) (ctx : Nat) (status : W16) (v : Nat) : State :=
  match s.ctx? ctx with
  | none => s
  | some c =>
    if c.state = .destroying then s else
    let pa := match s.walk ctx v with
      | .leaf level _ e => leafAddr level v e
      | _ => 0
    let r := { mkEvent s 2 status u.1 u.2.1 u.2.2 with
      ctx := some (ctx, c.gen), part := BitVec.ofNat 4 c.part, phys := BitVec.ofNat 48 pa, virt := some (BitVec.ofNat 56 v) }
    addLoss (if status = 0x0701 then withSyndrome s r else logEvent s r) ctx status 0xFFFF 0 (w64 v) true

/-- UNIT, DIE and INDEX of a DMA engine, the port and a walker (*Table 16-6*). -/
def unitOfStruct : TlbStruct → BitVec 8 × BitVec 8 × W16
  | .engine h k => (0x0A, BitVec.ofNat 8 h, BitVec.ofNat 16 k)
  | .folest => (0x0E, 0x40, 0xFFFF)
  | st => (0x0B, BitVec.ofNat 8 (hallOfStruct st), 0xFFFF)

/-- Record a malformed entry (R278, status 0x0712). -/
def tableMalformed (s : State) (ctx pa : Nat) : State := eventCtx s 2 0x0712 0x0B 0xFF 0xFFFF ctx pa 0

/-- Translate for an agent and check the permission it needs (R279, R280): a TLB hit, else a walk whose leaf is
installed. -/
def translate (s : State) (st : TlbStruct) (fetch : Bool) (ctx v : Nat) (need : Need) : State × Tr :=
  let check := fun (s : State) (level : Nat) (e : W64) =>
    if permitted need e then (s, Tr.ok (leafAddr level v e) e) else (s, Tr.fault 0x0402)
  if 2 ^ 56 ≤ v then (s, .fault 0x0401) else
  match s.tlbFind st fetch ctx v with
  | some e => check s e.level e.leaf
  | none =>
    let (s1, w) := walker s st ctx v
    match w with
    | .leaf level _ e => if leafMoving e then (s1, .moving) else check (tlbFill s1 st fetch ctx v level e) level e
    | .invalid => (s1, .fault 0x0401)
    | .malformed pa => (tableMalformed s1 ctx pa, .fault 0x0401)
    | .poisoned => (s1, .fault 0x0701)
    | .rejected st _ => (s1, .fault st)

/-- The epoch an access through a leaf is in (R247), as an index of `State.epochs`. -/
def State.epochOf (s : State) (ctx : Nat) (e : W64) : Option Nat :=
  if leafEp e then some (64 * s.ctxPart ctx + leafEpoch e) else none

end Sys2Proof.Machine
end

