-- ==== Sys2Proof/Machine/Signals.lean ====
section
/-! DEFINITION. Tallies, watches, bells and the event frames that bells and egress stores queue (chapter 12, R412 to
R415). -/

namespace Sys2Proof.Machine

/-! ## Event frames -/

/-- Bytes of the event frames that the gate die holds, queued or unacknowledged (R414). -/
def State.eventBytes (s : State) : Nat :=
  (s.port.events.map fun e => 24 + e.payload.length).foldl (· + ·) 0 +
  (match s.port.session with
   | none => 0
   | some x => ((x.unacked.filter fun f => decide (f.typ = 0x06)).map (·.payload.length)).foldl (· + ·) 0)

/-- Event frames of a context that are queued or unacknowledged (R412, offset 0x8010). -/
def State.evPending (s : State) (ctx : Nat) : Nat :=
  (s.port.events.filter fun e => decide (e.ctx = ctx)).length +
  (match s.port.session with
   | none => 0
   | some x => (x.unacked.filter fun f => decide (f.ctx = some ctx)).length)

/-- Queue one event frame of a context, or drop it at a limit (R412 to R414). -/
def queueEvent (s : State) (ctx : Nat) (bell : Bool) (tag : Nat) (payload : List Byte) : State :=
  match s.ctx? ctx with
  | none => s
  | some c =>
    if c.state = .destroying then s else
    if 2048 ≤ s.evPending ctx ∨ 62 * 2 ^ 20 < s.eventBytes + 24 + payload.length then
      s.setCtx ctx { c with evCount := c.evCount + 1, evDropped := min (c.evDropped + 1) (2 ^ 64 - 1), evFlag := true }
    else
      let f : EvFrame := { ctx := ctx, gen := c.gen, bell := bell, tag := tag, serial := w32 c.evCount, dropped := c.evFlag, time := s.now, payload := payload }
      { s.setCtx ctx { c with evCount := c.evCount + 1, evFlag := false } with
        port := { s.port with events := s.port.events ++ [f] } }

/-! ## Handles (R334, R335) -/

def tallyHandle (n tag : Nat) : Nat := n * 32768 + tag
def watchHandle (w tag : Nat) : Nat := w * 65536 + tag
def State.tally (s : State) (n : Nat) : Tally := tget Tally.reset s.tallies n
def State.setTally (s : State) (n : Nat) (t : Tally) : State := { s with tallies := tset Tally.reset s.tallies n t }
def State.watch (s : State) (w : Nat) : Watch := tget Watch.reset s.watches w
def State.setWatch (s : State) (w : Nat) (x : Watch) : State := { s with watches := tset Watch.reset s.watches w x }

/-- The tally a handle names for a context: allocated with that TAG, owned or imported (R335). -/
def State.tallyOf (s : State) (ctx h : Nat) : Option Nat :=
  let n := h / 32768
  let t := s.tally n
  if h < 2 ^ 32 ∧ t.alloc = true ∧ t.tag = h % 32768 ∧ (t.owner = some ctx ∨ ctx ∈ t.imports) then some n else none

/-- Pending watches of a tally, in the order they were registered. -/
def State.watchesOn (s : State) (n : Nat) : List (Nat × Watch) :=
  let ws := s.watches.filter fun e => e.2.alloc && decide (e.2.tally = n) && e.2.bell.isNone
  ws.foldr (fun p acc => (acc.takeWhile fun q => decide (q.2.order < p.2.order)) ++
    p :: (acc.dropWhile fun q => decide (q.2.order < p.2.order))) []

/-- A tally that ADD, SUB and SETMAX leave alone (R338). -/
def Tally.stuck (t : Tally) : Bool := t.sat || t.under
def Tally.frozen (t : Tally) : Bool := t.stuck || t.abandoned

/-- The flags word (*Table 12-3*). -/
def State.tallyFlags (s : State) (n ctx : Nat) : Nat :=
  let t := s.tally n
  let b := fun (x : Bool) (i : Nat) => if x then 2 ^ i else 0
  b t.sat 0 + b t.under 1 + b t.regress 2 + b t.abandoned 3 + b (t.imports.contains ctx) 4 +
  min (s.watchesOn n).length 255 * 2 ^ 16

/-! ## Firing (R340, R343, R345) -/

/-- A bell record as 32 bytes (*Table 12-6*). -/
def bellBytes (r : BellRec) : List Byte :=
  [1, r.flags] ++ vecBytes r.status ++ vecBytes r.arg ++ vecBytes r.tally ++ vecBytes r.watch ++ vecBytes r.time ++ vecBytes r.value

/-- A watch entry returns to the pool; its TAG is kept for the next allocation (R334, R343). -/
def freeWatch (s : State) (w : Nat) : State :=
  { s.setWatch w { Watch.reset with tag := (s.watch w).tag } with bells := s.bells.filter fun x => decide (x ≠ w) }

/-- A watch fires with a bell status: it is no longer pending and holds its bell until the receiver accepts it. A bell
to the partner is queued or dropped at once (R343, R413, R414). -/
def fire (s0 : State) (w : Nat) (status : W16) : State :=
  let s := countUp s0 1 (hallOfWatch w) 6 1
  let x := s.watch w
  let t := s.tally x.tally
  let r : BellRec :=
    { value := w64 t.value, time := w64 s.now, watch := w32 (watchHandle w x.tag),
      tally := w32 (tallyHandle x.tally t.tag), arg := x.arg, status := status,
      flags := BitVec.ofNat 8 (s.tallyFlags x.tally x.ctx) }
  match x.rcv with
  | .partner => freeWatch (queueEvent s x.ctx true 0 (bellBytes r)) w
  | _ => { s.setWatch w { x with bell := some r } with bells := s.bells ++ [w] }

/-- ABANDONED takes precedence over SATURATED, and both over being met (R340). -/
def fireStatus (t : Tally) : W16 := if t.abandoned then 0x0604 else if t.stuck then 0x0603 else 0

def watchMet (x : Watch) (v : Nat) : Bool := if x.eq then decide (v = x.threshold) else decide (x.threshold ≤ v)

/-- Evaluate the pending watches of a tally after an operation (R339, R340). -/
def evalWatches (s : State) (n : Nat) : State :=
  let t := s.tally n
  let st := fireStatus t
  (s.watchesOn n).foldl (fun s e => if t.frozen || watchMet e.2 t.value then fire s e.1 st else s) s

inductive TallyOp where
  | add | sub | setmax
  deriving DecidableEq, Repr

/-- What an operation leaves in a live tally (*Table 12-4*). -/
def Tally.apply (t : Tally) (op : TallyOp) (v : Nat) : Tally :=
  match op with
  | .add => if 2 ^ 64 - 1 ≤ t.value + v then { t with value := 2 ^ 64 - 1, sat := true } else { t with value := t.value + v }
  | .sub => if v ≤ t.value then { t with value := t.value - v } else { t with value := 0, under := true }
  | .setmax =>
    if t.value < v then { t with value := v, sat := t.sat || decide (v = 2 ^ 64 - 1) }
    else if v < t.value then { t with regress := true }
    else { t with sat := t.sat || decide (v = 2 ^ 64 - 1) }

/-- Apply an operation at the tally slice: a stuck or abandoned tally is unchanged, otherwise the watches are evaluated
(R337 to R340). -/
def tallyApply (s : State) (n : Nat) (op : TallyOp) (v : Nat) : State :=
  let t := s.tally n
  let s1 := countUp s 1 (hallOfTally n) 5 1
  if t.frozen then s1 else evalWatches (s1.setTally n (t.apply op v)) n

/-- Raise a DONE_TALLY on behalf of a context: 0 is none, an invalid handle drops the raise and is recorded (R335). -/
def raiseTally (s : State) (ctx h v : Nat) : State :=
  if h = 0 then s else
  match s.tallyOf ctx h with
  | some n => tallyApply s n .add v
  | none => eventCtx s 2 0x0601 0x08 (BitVec.ofNat 8 (hallOfTally (h / 32768))) (BitVec.ofNat 16 (h / 32768 % Config.talliesPerHall)) ctx 0 (w64 h)

/-- Every pending watch of a tally that satisfies a test fires. -/
def fireAll (s : State) (n : Nat) (f : Watch → Bool) (status : W16) : State :=
  (s.watchesOn n).foldl (fun s e => if f e.2 then fire s e.1 status else s) s

/-- The tally becomes abandoned: ABANDONED is set and every pending watch fires with 0x0604 (R349). -/
def abandon (s : State) (n : Nat) : State :=
  fireAll (s.setTally n { s.tally n with abandoned := true }) n (fun _ => true) 0x0604

/-- A tally entry returns to the pool when no owner and no importer holds it (R348); a corrupt entry never does before
module reset (R443). -/
def poolTally (s : State) (n : Nat) : State :=
  let t := s.tally n
  if t.owner.isNone && t.imports.isEmpty && !t.corrupt then s.setTally n { Tally.reset with tag := t.tag } else s

/-- Advance a tag of `top` values, never 0 (R334). -/
def nextTag (top tag : Nat) : Nat := if top ≤ tag then 1 else tag + 1

/-- Watches that count against a partition's quota. -/
def State.watchesOfPart (s : State) (p : Nat) : Nat := (s.watches.filter fun e => e.2.alloc && decide (e.2.part = p)).length

/-- The local index of a NOTIFY queue of a context. -/
def State.notifyQueue (s : State) (ctx loc : Nat) : Option Nat :=
  (s.queues.find? fun e => decide (e.2.ctx = ctx) && decide (e.2.loc = loc) && e.2.notify).map (·.1)

/-- Register a watch on a tally: the free watch of its slice, or WATCH_FULL (R341). Answers the watch. A watch that is
met, or whose tally is stuck or abandoned, fires at once (R340). -/
def register (s : State) (n ctx threshold : Nat) (eq : Bool) (rcv : Receiver) (arg : W32) : State × Option Nat :=
  let p := s.ctxPart ctx
  let h := hallOfTally n
  match (List.range Config.watchesPerHall).find? fun i => !(s.watch (h * Config.watchesPerHall + i)).alloc with
  | none => (s, none)
  | some i =>
    if (s.part p).watchQuota ≤ s.watchesOfPart p then (s, none) else
    let w := h * Config.watchesPerHall + i
    let x : Watch :=
      { alloc := true, tag := nextTag 0xFFFF (s.watch w).tag, tally := n, ctx := ctx, threshold := threshold,
        eq := eq, rcv := rcv, arg := arg, order := s.watchOrder, part := p, bell := none }
    let s1 := { s.setWatch w x with watchOrder := s.watchOrder + 1 }
    let t := s.tally n
    (if t.frozen || watchMet x t.value then fire s1 w (fireStatus t) else s1, some w)

/-- Does a bell go to the Steward (RCV 10)? -/
def Receiver.toSteward : Receiver → Bool
  | .steward | .submitWait _ => true
  | _ => false

/-- Do two watches ring at one receiver (*Table 12-5*)? Every bell with RCV 10 goes to the one Steward. -/
def Watch.sameReceiver (a b : Watch) : Bool :=
  (a.rcv.toSteward && b.rcv.toSteward) || (decide (a.rcv = b.rcv) && decide (a.ctx = b.ctx))

/-- Is a fired watch the first of its receiver among the bells of its slice (R346)? -/
def State.firstBell (s : State) (w : Nat) : Bool :=
  (s.bells.find? fun v => (s.watch v).sameReceiver (s.watch w) && decide (hallOfWatch v = hallOfWatch w)) == some w

/-- Remove a context's watches without a bell and release its imports; abandon what it owns (R349). -/
def tallyDeath (s : State) (ctx : Nat) : State :=
  let s1 := { s with
    watches := tmap (fun _ x => if x.alloc = true ∧ x.ctx = ctx then { Watch.reset with tag := x.tag } else x) s.watches
    bells := s.bells.filter fun w => decide ((s.watch w).ctx ≠ ctx) }
  let owned := (s1.tallies.filter fun e => decide (e.2.owner = some ctx)).map (·.1)
  let s2 := owned.foldl (fun s n => abandon s n) s1
  let s3 := owned.foldl (fun s n => poolTally (s.setTally n { s.tally n with owner := none }) n) s2
  let imp := (s3.tallies.filter fun e => e.2.imports.contains ctx).map (·.1)
  imp.foldl (fun s n => poolTally (s.setTally n { s.tally n with imports := (s.tally n).imports.erase ctx }) n) s3

/-- Write a scalar register of a group; the unlisted value is zero. -/
def Group.setS (g : Group) (r : Nat) (v : W64) : Group := { g with sregs := tset 0 g.sregs r v }

end Sys2Proof.Machine
end

