-- ==== Sys2Proof/Machine/Paths.lean ====
section
/-! DEFINITION. Paths of a group: the divergence stack, the choice of the active path, the group barrier, and how a
group comes to park (R54 to R66, R72 to R77, R96). -/

namespace Sys2Proof.Machine

/-! ## Entries -/

def runnable (p : Path) : Bool :=
  match p.kind with
  | .run | .spin none => true
  | _ => false

def spinWaiting (p : Path) : Bool :=
  match p.kind with
  | .spin (some _) => true
  | _ => false

def Group.path? (g : Group) (i : Nat) : Option Path := tfind g.stack i

/-- The lowest free index of the divergence stack (R55, R57). -/
def freeIndex (st : Table Path) : Nat := (lowest 64 fun i => (tfind st i).isNone).getD 64

/-- The runnable entry with the largest wait count, the lowest index among equals (R59). -/
def longestWait (st : Table Path) (ok : Path → Bool) : Option (Nat × Path) :=
  st.foldl (fun best e => if ok e.2 then
    match best with
    | none => some e
    | some b => if b.2.wait < e.2.wait then some e else best
    else best) none

/-- One issue opportunity of the group passes: every runnable path but the active one counts it (R58). -/
def countWaits (g : Group) : Group :=
  { g with stack := tmap (fun i p => if runnable p = true ∧ g.active ≠ some i then { p with wait := min (p.wait + 1) 0xFFFF } else p) g.stack }

/-- The active path issues: the opportunity is one more of its turn, and its own wait count starts again (R58, R59). -/
def useTurn (g : Group) : Group :=
  let g1 := countWaits { g with opp := g.opp + 1 }
  match g1.active with
  | none => g1
  | some i => match tfind g1.stack i with
    | none => g1
    | some p => { g1 with stack := tput g1.stack i { p with wait := 0, turn := .go } }

/-- An issue opportunity in which the active path does not issue, and why (R59). -/
def loseTurn (t : Turn) (g : Group) : Group :=
  let g1 := countWaits { g with opp := g.opp + 1 }
  match g1.active with
  | none => g1
  | some i => match tfind g1.stack i with
    | none => g1
    | some p => { g1 with stack := tput g1.stack i { p with turn := t } }

/-- Make an entry the active path; its wait count runs until it issues (R58). A woken SPIN entry runs its SPIN again
(R62). -/
def activate (g : Group) (i : Nat) (p : Path) : Group :=
  { g with stack := tput g.stack i { p with kind := .run, turn := .go }, active := some i, opp := 0 }

/-- Is a runnable path other than the active one there (R59)? -/
def otherRunnable (g : Group) : Bool := g.stack.any fun e => runnable e.2 && decide (g.active ≠ some e.1)

/-- The group has no runnable path left: a spin-waiting one is woken (R62), else the group waits; when every live path
waits on a watch it parks with reason WAIT (R74, R342). -/
def idlePath (g : Group) : Group :=
  match longestWait g.stack spinWaiting with
  | some (i, p) => activate g i p
  | none =>
    let waits := g.stack.any fun e => match e.2.kind with
      | .watch _ _ => true
      | _ => false
    let others := g.stack.any fun e => match e.2.kind with
      | .watch _ _ | .join => false
      | _ => true
    { g with active := none, mode := if g.mode = .running ∧ waits = true ∧ others = false then .waitParked else g.mode }

/-- Switch paths under R59: the switch uses one issue opportunity. -/
def switchPath (g : Group) : Group :=
  match longestWait g.stack runnable with
  | some (i, p) => countWaits (activate g i p)
  | none => idlePath g

/-- Choose an active path when there is none and one is runnable; the switch uses one issue opportunity (R59). -/
def pickIfIdle (g : Group) : Group :=
  match g.active with
  | some _ => g
  | none => match longestWait g.stack runnable with
    | some (i, p) => { countWaits (activate g i p) with mode := if g.mode = .waitParked then .running else g.mode }
    | none => g

/-! ## Reconvergence and splits (R55, R56) -/

/-- Entries whose parent is a JOIN entry. -/
def hasChild (st : Table Path) (j : Nat) : Bool := st.any fun e => decide (e.2.parent = some j)

/-- An entry that has reached its parent's reconvergence address is freed; a JOIN entry without children left becomes
a RUN entry, which may itself have reached its parent's address. -/
def settle : Nat → Table Path → Nat → Table Path
  | 0, st, _ => st
  | n + 1, st, i =>
    match tfind st i with
    | none => st
    | some p => if runnable p = false then st else
      match p.parent with
      | none => st
      | some j => match tfind st j with
        | none => st
        | some q =>
          if q.kind = .join ∧ q.pc = p.pc then
            let st1 := tdel st i
            if hasChild st1 j then st1 else settle n (tput st1 j { q with kind := .run, wait := 0 }) j
          else st

/-- Set the next address of the active path; when its entry is freed by reconvergence the manager switches (R56,
R59). -/
def setPc (g : Group) (i : Nat) (pc : VAddr) : Group :=
  match g.path? i with
  | none => g
  | some p =>
    let st := settle 64 (tput g.stack i { p with pc := pc }) i
    let g1 := { g with stack := st }
    match tfind st i with
    | some _ => g1
    | none => switchPath { g1 with active := none }

/-- The instruction completes: one opportunity passes and the path goes on to an address. -/
def goOn (g : Group) (pc : VAddr) : Group :=
  match g.active with
  | none => g
  | some i => setPc (useTurn g) i pc

/-- Distinct values in order of first appearance. -/
def distinct {α : Type} [DecidableEq α] : List α → List α
  | [] => []
  | x :: t => x :: (distinct t).filter fun y => decide (y ≠ x)

/-- Push the parts of a split, lowest thread first, each at the lowest free index; then settle each (R55, R56). -/
def pushParts (parent : Nat) (parts : List (W32 × VAddr × PathKind)) (st : Table Path) : Table Path :=
  let (st1, is) := parts.foldl (fun (acc : Table Path × List Nat) e =>
    let i := freeIndex acc.1
    (tput acc.1 i { pc := e.2.1, mask := e.1, parent := some parent, kind := e.2.2, wait := 0, turn := .go }, acc.2 ++ [i])) (st, [])
  is.foldl (fun st i => settle 64 st i) st1

/-- Where each thread of the active path goes: the active lanes to their targets, the others to the next instruction
(R96). More than one destination splits the path with a JOIN at the reconvergence address (R55). -/
def branchTo (g : Group) (act : W32) (target : Nat → VAddr × PathKind) (next reconv : VAddr) : Group :=
  match g.active with
  | none => g
  | some i => match g.path? i with
    | none => g
    | some p =>
      let ts := maskList p.mask
      let dest := fun t => if bit act t then target t else (next, PathKind.run)
      let g1 := useTurn g
      match distinct (ts.map dest) with
      | [] => g1
      | [(pc, .run)] => setPc g1 i pc
      | [(pc, k)] =>
        match tfind g1.stack i with
        | none => g1
        | some q => switchPath { g1 with stack := tput g1.stack i { q with pc := pc, kind := k, wait := 0 }, active := none }
      | ds =>
        let parts := ds.map fun d => (maskOf fun t => bit p.mask t && decide (dest t = d), d.1, d.2)
        match tfind g1.stack i with
        | none => g1
        | some q =>
          let st := pushParts i parts (tput g1.stack i { q with pc := reconv, kind := .join, wait := 0 })
          switchPath { g1 with stack := st, active := none }

/-- Does a branch of the active path resolve to more than one target (R55)? -/
def diverges (g : Group) (act : W32) (target : Nat → VAddr) (next : VAddr) : Bool :=
  match g.active.bind g.path? with
  | none => false
  | some p => decide (1 < (distinct ((maskList p.mask).map fun t => if bit act t then target t else next)).length)

/-! ## The group barrier (R64 to R66) -/

/-- Merge the waiting paths of one barrier that wait at one address under one parent, into the lowest index (R64). -/
def mergeBar (id : Nat) (st : Table Path) : Table Path :=
  st.foldl (fun acc e => if e.2.kind = .barrier id then
      match acc.find? fun x => decide (x.2.kind = .barrier id ∧ x.2.pc = e.2.pc ∧ x.2.parent = e.2.parent) with
      | some (j, q) => tput acc j { q with mask := q.mask ||| e.2.mask }
      | none => tput acc e.1 e.2
    else tput acc e.1 e.2) []

/-- Release barrier `id` when every live thread has arrived. -/
def releaseBar (g : Group) (id : Nat) : Group :=
  match tfind g.bars id with
  | none => g
  | some b =>
    if b.arrived = 0 ∨ b.arrived &&& g.live ≠ g.live then g else
    let st := mergeBar id g.stack
    let ready := (st.filter fun e => decide (e.2.kind = .barrier id)).map (·.1)
    let st1 := tmap (fun _ p => if p.kind = .barrier id then { p with kind := .run, wait := 0 } else p) st
    pickIfIdle { g with stack := ready.foldl (fun st i => settle 64 st i) st1, bars := tdel g.bars id }

/-- The watchdog count of a barrier when the island's cycle count is `now` (R66). -/
def Barrier.at (b : Barrier) (now : Nat) : Nat := b.count + (now - b.since)

/-- Threads arrive at barrier `id` at the island cycle `now`; the first arrival starts its watchdog count (R64, R66). -/
def arrive (g : Group) (now id : Nat) (m : W32) : Group :=
  let b := (tfind g.bars id).getD { arrived := 0, count := 0, since := now }
  { g with bars := tput g.bars id { b with arrived := b.arrived ||| m } }

/-- Threads end: they leave CR_THREAD_MASK and every entry; emptied entries are freed, JOIN entries without children
become RUN, and barriers whose remaining threads have all arrived release (R54, R65). -/
def endThreads (g : Group) (m : W32) : Group :=
  let live := g.live &&& ~~~m
  let st0 := tfilter (fun _ p => decide (p.mask ≠ 0)) (tmap (fun _ p => { p with mask := p.mask &&& ~~~m }) g.stack)
  let joins := (st0.filter fun e => decide (e.2.kind = .join) && !hasChild st0 e.1).map (·.1)
  let st := joins.foldl (fun st j => match tfind st j with
    | some q => settle 64 (tput st j { q with kind := .run, wait := 0 }) j
    | none => st) st0
  let g1 := { g with
    live := live, stack := st
    bars := tmap (fun _ b => { b with arrived := b.arrived &&& live }) g.bars
    active := match g.active with
      | some i => if (tfind st i).isSome then some i else none
      | none => none }
  (List.range 8).foldl releaseBar g1

/-! ## Parking (R72 to R77) -/

def Group.snap (g : Group) : Snap :=
  { live := g.live, barWdog := g.barWdog, runAheadMax := g.runAheadMax, bars := g.bars, preds := g.preds,
    sregs := g.sregs, vfile := g.vfile, stack := g.stack, active := g.active, opp := g.opp }

/-- The group as it was at a snapshot. -/
def Group.withSnap (g : Group) (n : Snap) : Group :=
  { g with live := n.live, barWdog := n.barWdog, runAheadMax := n.runAheadMax, bars := n.bars, preds := n.preds,
           sregs := n.sregs, vfile := n.vfile, stack := n.stack, active := n.active, opp := n.opp }

/-- Take the group back to its replay point: the oldest load that has not completed (R72). -/
def Group.rollback (g : Group) : Group :=
  match g.loads with
  | [] => g
  | l :: _ => { g.withSnap l.snap with loads := [] }

/-- What arrives for an instruction of sequence number `seq` reaches the group, and the snapshots of the loads that
issued after it, so that a park does not take it back (R72, R76). -/
def Group.deliver (g : Group) (seq : Nat) (f : Group → Group) : Group :=
  { f g with loads := g.loads.map fun l => if seq ≤ l.seq then { l with snap := (f (g.withSnap l.snap)).snap } else l }

/-- A load or an atomic of the group older than `seq` has not completed. -/
def Group.incomplete (g : Group) (seq : Nat) : Bool :=
  g.loads.any (fun l => decide (l.seq < seq)) || g.reqs.any fun r => r.atom && decide (r.seq < seq)

/-- A load or an atomic of the group has not completed (R72). -/
def Group.memBusy (g : Group) : Bool := !g.loads.isEmpty || g.reqs.any fun r => r.atom

/-- An entry of the store buffer is tentative while an older load or atomic of its group has not completed (R72, R303,
R304). -/
def tentative (g : Group) (e : SbEntry) : Bool := g.incomplete e.seq

/-- End run-ahead without effect (R69). -/
def endRunAhead (g : Group) : Group := { g with ra := none }

/-- A park begins: run-ahead ends; a second cause keeps the lower code, except that FAULT takes precedence (R73, R77).
A WAIT-parked group asked to leave keeps reason WAIT. -/
def beginPark (g : Group) (reason : BitVec 8) (status : W16) (addr : Nat) (aux : W64) : Group :=
  let req : ParkReq := { reason := reason, status := status, addr := va addr, aux := aux }
  let g1 := { endRunAhead g with raEnded := g.raEnded || g.ra.isSome }
  match g.mode with
  | .running => { g1 with mode := .parking req }
  | .waitParked => if reason = 6 then { g1 with mode := .parking req } else { g1 with mode := .parking { req with reason := 1 } }
  | .parking p =>
    if p.reason ≠ 6 ∧ (reason = 6 ∨ reason < p.reason) then { g1 with mode := .parking req } else g1
  | .stopped => g

/-- The pc of the active path; the lowest entry's when none is active. -/
def Group.pc (g : Group) : VAddr :=
  match g.active.bind g.path? with
  | some p => p.pc
  | none => (g.stack.head?.map (·.2.pc)).getD 0

/-- The group of a station instance, resident in a slot (R48). -/
def State.findGroup (s : State) (station inst index : Nat) : Option (Grp × Group) :=
  (s.groups.find? fun e => decide (e.2.station = station) && decide (e.2.inst = inst) && decide (e.2.index = index)).map
    fun e => ({ core := e.1 / 48, slot := e.1 % 48 }, e.2)

/-- The key of a parked group. -/
def State.findParked (s : State) (station inst index : Nat) : Option Parked :=
  s.parked.find? fun p => decide (p.station = station) && decide (p.inst = inst) && decide (p.index = index)

def dropParked (s : State) (p : Parked) : State := { s with parked := s.parked.erase p }

/-- The groups of a context that hold a slot. -/
def State.groupsOf (s : State) (ctx : Nat) : List (Nat × Group) := s.groups.filter fun e => decide (e.2.ctx = ctx)

def keyGrp (k : Nat) : Grp := { core := k / 48, slot := k % 48 }

/-- Wake the path that waits on a watch: it continues with the bell status in DST[63:48], and may have reached its
reconvergence address (R56, R74, R342). A path that becomes ready ends run-ahead (R69). -/
def wakePath (g : Group) (w : Nat) (status : W16) : Group :=
  match g.stack.find? fun e => match e.2.kind with
    | .watch v _ => decide (v = w)
    | _ => false with
  | some (i, p) => match p.kind with
    | .watch _ dst =>
      let g1 := { endRunAhead g with stack := settle 64 (tput g.stack i { p with kind := .run, wait := 0 }) i }
      if dst.toNat = 0x1FF then g1 else g1.setS (dst.toNat - 0x100) (w64 (status.toNat * 2 ^ 48))
    | _ => g
  | none => g

/-- The barriers of a group with their counts taken at the island cycle `now`, as a record holds them, or restarted there
(R66). -/
def stampBars (g : Group) (now : Nat) : Group :=
  { g with bars := tmap (fun _ b => { b with count := b.at now, since := now }) g.bars }
def startBars (g : Group) (now : Nat) : Group :=
  { g with bars := tmap (fun _ b => { b with since := now }) g.bars }

/-- A spin-waiting entry is recorded as woken in a park record (R76). -/
def wakeAllSpins (g : Group) : Group :=
  { g with stack := tmap (fun _ p => if spinWaiting p then { p with kind := .spin none } else p) g.stack }

end Sys2Proof.Machine
end

