-- ==== Sys2Proof/Machine/Operands.lean ====
section
/-! DEFINITION. Operand codes and the register kinds each field accepts (R84 to R86), the reading and writing of
registers, guards (R93 to R96), and the issue of one instruction by a resident group: fetch, decode faults, waits,
precise faults, run-ahead (R49, R67 to R72, R82, R116). -/

namespace Sys2Proof.Machine

/-! ## Operand codes -/

/-- The kinds of *Table 4-12*. -/
inductive Kind where
  | v | s | p | x | z | pr | qd
  deriving DecidableEq, Repr

/-- Does a code name a register of this kind that the group has (R85)? -/
def kindOk (vregs : Nat) (ext : Bool) (code : Nat) : Kind → Bool
  | .v => decide (code < 0x100) && decide (code < vregs)
  | .s => decide (0x100 ≤ code) && decide (code < 0x140)
  | .p => decide (0x140 ≤ code) && decide (code < 0x148)
  | .x => decide (code = 0x1FE) && ext
  | .z => decide (code = 0x1FF)
  | .pr => decide (code < 0x100) && decide (code % 2 = 0) && decide (code + 1 < vregs)
  | .qd => decide (code < 0x100) && decide (code % 4 = 0) && decide (code + 3 < vregs)

def accepts (vregs : Nat) (ext : Bool) (ks : List Kind) (code : BitVec 9) : Bool := ks.any (kindOk vregs ext code.toNat)

def opZero : BitVec 9 := 0x1FF#9

/-- Predicate p0 is true for every thread (R53). -/
def Group.pred (g : Group) (i : Nat) : W32 := if i = 0 then allOnes32 else tget 0 g.preds i
/-- Writes to p0 are discarded (R53, R86). -/
def Group.setPred (g : Group) (i : Nat) (m : W32) : Group := if i = 0 then g else { g with preds := tset 0 g.preds i m }
def Group.s (g : Group) (i : Nat) : W64 := tget 0 g.sregs i
def Group.v (g : Group) (i : Nat) : Line := tget 0 g.vfile i
def Group.setV (g : Group) (i : Nat) (x : Line) : Group := { g with vfile := tset 0 g.vfile i x }

/-- An operand as a group-level instruction reads it (R84). -/
def Group.opS (g : Group) (ext : Option W64) (code : BitVec 9) : W64 :=
  let c := code.toNat
  if c < 0x100 then (laneOf (g.v c) 0).setWidth 64
  else if c < 0x140 then g.s (c - 0x100)
  else if c < 0x148 then (g.pred (c - 0x140)).setWidth 64
  else if c = 0x1FE then ext.getD 0 else 0

/-- An operand as lane `i` of a per-lane instruction reads it (R84). -/
def Group.opL (g : Group) (ext : Option W64) (code : BitVec 9) (i : Nat) : W32 :=
  let c := code.toNat
  if c < 0x100 then laneOf (g.v c) i
  else if c < 0x140 then (g.s (c - 0x100)).setWidth 32
  else if c < 0x148 then (if bit (g.pred (c - 0x140)) i then 1 else 0)
  else if c = 0x1FE then (ext.getD 0).setWidth 32 else 0

/-- A register pair of lane `i`, the low half in the first register (R85). -/
def Group.opPair (g : Group) (code : BitVec 9) (i : Nat) : W64 :=
  (laneOf (g.v (code.toNat + 1)) i) ++ (laneOf (g.v code.toNat) i)

/-- Write a scalar destination; ZERO discards (R84). -/
def Group.putS (g : Group) (code : BitVec 9) (x : W64) : Group :=
  if 0x100 ≤ code.toNat ∧ code.toNat < 0x140 then g.setS (code.toNat - 0x100) x else g

/-- Write a vector destination in the active lanes (R94). -/
def Group.putV (g : Group) (code : Nat) (act : W32) (f : Nat → W32) : Group :=
  if code < 0x100 then g.setV code (mergeLanes act (g.v code) (lanes f)) else g

/-- Write a pair in the active lanes. -/
def Group.putPair (g : Group) (code : BitVec 9) (act : W32) (f : Nat → W64) : Group :=
  (g.putV code.toNat act fun i => (f i).setWidth 32).putV (code.toNat + 1) act fun i => (f i >>> 32).setWidth 32

/-- Write a predicate destination in the active lanes (R86). -/
def Group.putP (g : Group) (code : BitVec 9) (act : W32) (m : W32) : Group :=
  let i := code.toNat - 0x140
  g.setPred i ((g.pred i &&& ~~~act) ||| (m &&& act))

/-- The registers an operand code covers when it names `n` of them. -/
def regsOf (code : BitVec 9) (n : Nat) : List Nat := if code.toNat < 0x148 then (List.range n).map (code.toNat + ·) else []

/-- Registers of a load of a size: one, a pair or a quad (*Table 4-5a*). -/
def szRegs (scalar : Bool) (sz : BitVec 3) : Nat := if scalar then 1 else if sz = 5 then 2 else if sz = 6 then 4 else 1

/-- Operand codes whose value has not arrived: loads, unit results and atomics on their way (R67, R109). -/
def Group.pendingRegs (g : Group) : List Nat :=
  (g.loads.flatMap fun l => regsOf l.dst (szRegs l.scalar l.sz)) ++ g.units ++
  (g.reqs.flatMap fun r => match r.dst with
    | some d => regsOf d (if d.toNat < 0x100 && r.sz = 5 then 2 else 1)
    | none => [])

/-! ## Guards -/

def Group.activePath (g : Group) : Option Path := g.active.bind g.path?

/-- The active lanes (R93). -/
def Group.lanesOn (g : Group) (gp : BitVec 3) (gn : Bool) : W32 :=
  match g.activePath with
  | none => 0
  | some p => g.live &&& p.mask &&& (if gn then ~~~(g.pred gp.toNat) else g.pred gp.toNat)

/-! ## Issue -/

/-- How run-ahead treats an instruction (R68, R69). -/
inductive Cls where
  | alu | load | store | ender
  deriving DecidableEq, Repr

/-- What an instruction does when it issues. -/
inductive Res where
  /-- It cannot issue now. -/
  | wait
  /-- It cannot issue now, and has sent for what it lacks. -/
  | stall (s : State)
  /-- It faults (R116). -/
  | fault (status : W16) (addr : Nat) (aux : W64)
  /-- The group parks for another reason (R74, R288, R440). -/
  | park (reason : BitVec 8) (addr : Nat)
  /-- It completes and the path goes on to the next instruction. -/
  | done (s : State)
  /-- It completes and has placed its path itself. -/
  | jump (s : State)

/-- What issue needs to know of an instruction. -/
structure Iss where
  ext : Option W64
  gp : BitVec 3
  gn : Bool
  cls : Cls
  /-- A memory or tally access: an earlier acquire holds it back (R98). -/
  access : Bool
  /-- It issues only when every older load and atomic of the group has completed (R72). -/
  alone : Bool
  /-- It writes at once, past the store buffer: an atomic, a tally operation, a larder store (R304, R310). -/
  direct : Bool := false
  reads : List Nat
  writes : List Nat
  /-- The decode fault of the instruction, if it has one (R83, R85). -/
  bad : Option W16

def instrLen (ext : Option W64) : Nat := if ext.isSome then 16 else 8

/-- The address of the next instruction (R82). -/
def nextPc (g : Group) (ext : Option W64) : VAddr := g.pc + va (instrLen ext)

/-- The outcome of consuming a poisoned sector (*Table 16-2*, R451): a commons parks, a FAILED one and anything else
faults. -/
def poisonRes (s : State) (commons : Bool) (pa addr : Nat) : Res :=
  if commons then (if s.failedCommons pa then .fault 0x0703 addr 0 else .park 4 addr) else .fault 0x0701 addr 0

/-- Fetch the instruction's bytes: translation with execute permission, moving pages, poison (R82, R288, R440). The
address of the base word is the one translated and checked, for an extension word on the next page too (log entry 117). -/
def fetch (s : State) (g : Grp) (k : Group) (n : Nat) : State × Option Res :=
  let pc := k.pc.toNat
  let (s1, tr) := translate s (.core g.core) true k.ctx pc .x
  match tr with
  | .fault st => (s1, some (.fault st pc 0))
  | .moving => (s1, some (.park 3 pc))
  | .ok pa leaf =>
    if s1.homeStatus pa ≠ 0 then (s1, some (.fault (s1.homeStatus pa) pc 0))
    else if s1.poisoned (s1.epochOf k.ctx leaf) pa n then (s1, some (poisonRes s1 (leafCommons leaf) pa pc))
    else (s1, none)

/-- The island run-ahead cap and CR_RUNAHEAD.MAX (R71). -/
def raLimit (s : State) (g : Grp) (k : Group) : Nat :=
  min k.runAheadMax.toNat (tget Island.reset s.reeve.islands (islandOfCore g.core)).raCap

/-- Does another group of the core use the run-ahead unit (R67)? -/
def raBusy (s : State) (c : Nat) : Bool := s.groups.any fun e => decide (e.1 / 48 = c) && e.2.ra.isSome

/-- Is a runnable path ready: not one that waits for a register whose value has not arrived (R59, R67)? -/
def pathReady (k : Group) (p : Path) : Bool :=
  runnable p && (match p.turn with
    | .stalled rs => rs.isEmpty || !rs.any k.pendingRegs.contains
    | _ => true)

/-- Is a path other than the active one runnable and ready (R59 case 3, R67)? -/
def otherReady (k : Group) : Bool := k.stack.any fun e => pathReady k e.2 && decide (k.active ≠ some e.1)

/-- The load whose result the active path cannot issue without, and for which the home has sent a miss notice (R67). -/
def missedLoad (k : Group) : Option PendingLoad :=
  match k.active.bind k.path? with
  | some { turn := .stalled rs, .. } => k.loads.find? fun l => l.noticed && (regsOf l.dst (szRegs l.scalar l.sz)).any rs.contains
  | _ => none

/-- The group enters run-ahead when everything R67 asks for holds. -/
def enterRunAhead (g : Grp) (s : State) : State :=
  match s.group? g with
  | none => s
  | some k => match missedLoad k with
    | none => s
    | some l =>
      if decide (k.mode = .running) && k.ra.isNone && !otherReady k && !raBusy s g.core && decide (raLimit s g k ≠ 0) then
        let r : RunAhead :=
          { load := l.id, resume := k.pc, sregs := k.sregs, vregs := k.vfile, preds := k.preds, stack := k.stack,
            active := k.active, writtenS := [], writtenV := [], invalid := k.pendingRegs, issued := 0 }
        countUp (s.setGroup g { k with ra := some r }) 0 g.core 4 1
      else s

/-- An instruction could not issue: the opportunity passes (R59), and the group may enter run-ahead (R67). -/
def stallAt (s : State) (g : Grp) (regs : List Nat) : State :=
  enterRunAhead g (s.modGroup g (loseTurn (.stalled regs)))

/-- Apply a result to the group that issued. -/
def applyRes (s : State) (s1 : State) (g : Grp) (ext : Option W64) : Res → State
  | .wait => stallAt s g []
  | .stall s2 => stallAt s2 g []
  | .fault st addr aux => s1.modGroup g fun k => beginPark k 6 st addr aux
  | .park r addr => s1.modGroup g fun k => beginPark k r 0 addr 0
  | .done s2 => s2.modGroup g fun k => goOn k (nextPc k ext)
  | .jump s2 => s2

/-- The group as run-ahead sees it: shadow registers over the architectural ones (R68). -/
def ghost (k : Group) (r : RunAhead) : Group :=
  { k with ra := none, sregs := r.sregs, vfile := r.vregs, preds := r.preds, stack := r.stack, active := r.active,
           loads := [], units := [], reqs := [] }

/-- Take the shadow state back from the ghost and note what was written. A register that held an invalid value keeps the
mark unless every lane of it was written with a valid one. -/
def raUpdate (r : RunAhead) (gg : Group) (ws : List Nat) (invalid : Bool) (act : W32) : RunAhead :=
  let whole := fun (c : Nat) => decide (act = allOnes32) || (decide (0x100 ≤ c) && decide (c < 0x140))
  { r with
    sregs := gg.sregs, vregs := gg.vfile, preds := gg.preds, stack := gg.stack, active := gg.active
    issued := r.issued + 1
    writtenS := (ws.filter fun c => decide (0x100 ≤ c) && decide (c < 0x140)).foldl (fun l c => addOnce c l) r.writtenS
    writtenV := (ws.filter fun c => decide (c < 0x100)).foldl (fun l c => addOnce c l) r.writtenV
    invalid := if invalid then ws.foldl (fun l c => addOnce c l) r.invalid else r.invalid.filter fun c => !(ws.contains c && whole c) }

/-- Run-ahead has spent its instructions or its shadow registers (R69). -/
def raSpent (r : RunAhead) (limit : Nat) : Bool :=
  decide (limit ≤ r.issued) || decide (16 ≤ r.writtenS.length) || decide (64 ≤ r.writtenV.length)

/-- What a load comes to in run-ahead (R68, R69): a value for its destination, none because it was dropped, or a fault
that is suppressed. -/
inductive Ahead where
  | value (k : Group)
  | dropped
  | fault

/-- One instruction in run-ahead mode (R68 to R70): only prefetch fills, which `pf` makes, leave the shadow. The result of
a store-class instruction that is not sent, an atomic's old value, is invalid. -/
def runAheadIssue (x : Iss) (g : Grp) (k : Group) (r : RunAhead) (body : State → Group → W32 → Res)
    (pf : State → Grp → Group → W32 → State × Ahead) (s : State) : State :=
  let stop := s.setGroup g (endRunAhead k)
  let gg := ghost k r
  let act := gg.lanesOn x.gp x.gn
  let hold := fun (s : State) (gg : Group) (ws : List Nat) (inv : Bool) =>
    let r' := raUpdate r gg ws inv act
    s.setGroup g (if raSpent r' (raLimit s g k) then endRunAhead k else { k with ra := some r' })
  let keep := fun (s : State) (gg : Group) (inv : Bool) => hold s gg x.writes inv
  let skip := hold s (goOn gg (nextPc gg x.ext)) [] false
  if x.cls = .ender ∨ x.bad.isSome = true then stop
  else if gg.activePath.isNone then stop
  else if x.gp ≠ 0 ∧ r.invalid.contains (0x140 + x.gp.toNat) = true then skip
  else if act = 0 then skip
  else if x.reads.any r.invalid.contains then keep s (goOn gg (nextPc gg x.ext)) true
  else match x.cls with
  | .store | .ender => keep s (goOn gg (nextPc gg x.ext)) true
  | .load =>
    match pf s g gg act with
    | (s1, .value gg') => keep s1 (goOn gg' (nextPc gg' x.ext)) false
    | (s1, .dropped) => keep s1 (goOn gg (nextPc gg x.ext)) true
    | (s1, .fault) => s1.setGroup g (endRunAhead k)
  | .alu =>
    match body (s.setGroup g gg) gg act with
    | .done s2 => match s2.group? g with
      | some gg' => keep s (goOn gg' (nextPc gg' x.ext)) false
      | none => stop
    | .jump s2 => match s2.group? g with
      | some gg' => keep s gg' false
      | none => stop
    | .wait => s
    | _ => stop

/-- May the group issue now? The module runs, the group is resident and running, and its active path has not used up
its turn while another path is runnable (R48, R59 case 5). -/
def canIssue (s : State) (k : Group) : Bool :=
  decide (s.power.st = .ready) && decide (k.mode = .running) && k.activePath.isSome && !(decide (128 ≤ k.opp) && otherRunnable k)

/-- The store-buffer entries of a group, oldest first (R304). -/
def State.sbOf (s : State) (g : Grp) : List SbEntry := (s.core g.core).sb.filter fun e => decide (e.slot = g.slot)

/-- The registers an instruction needs whose values have not arrived (R67, R109). -/
def lacking (x : Iss) (k : Group) : List Nat := (x.reads ++ x.writes).filter k.pendingRegs.contains

/-- A store the group issued before its last fence has not been performed (R310). -/
def storesHeld (s : State) (g : Grp) (k : Group) : Bool := (s.sbOf g).any fun e => decide (e.seq < k.ordSeq)

/-- Does the instruction have to wait for older ones (R67, R72, R98, R109, R308, R310)? -/
def mustWait (x : Iss) (s : State) (g : Grp) (k : Group) : Bool :=
  !(lacking x k).isEmpty ||
  (x.access && (k.loads.any (fun l => l.acq) || k.reqs.any fun r => r.acq)) ||
  (decide (x.cls = .load) && k.incomplete k.ordSeq) ||
  (x.alone && k.memBusy) ||
  (x.direct && storesHeld s g k)

/-- Issue one instruction of a group (R49, R82, R93 to R96, R116). `body` gets the state after the fetch, the group and
the active lanes; `pf` is what a load does in run-ahead. -/
def issuePf (x : Iss) (g : Grp) (body : State → Group → W32 → Res)
    (pf : State → Grp → Group → W32 → State × Ahead) (s : State) : State :=
  match s.group? g with
  | none => s
  | some k =>
    if canIssue s k = false then s else
    match k.ra with
    | some r => runAheadIssue x g k r body pf s
    | none =>
      match fetch s g k (instrLen x.ext) with
      | (s1, some res) => applyRes s s1 g x.ext res
      | (s1, none) =>
        match x.bad with
        | some st => applyRes s s1 g x.ext (.fault st k.pc.toNat 0)
        | none =>
          if mustWait x s g k then stallAt s g (lacking x k) else
          let act := k.lanesOn x.gp x.gn
          if act = 0 then applyRes s s1 g x.ext (.done s1)
          else applyRes s s1 g x.ext (body s1 k act)

def noPf (s : State) (_ : Grp) (_ : Group) (_ : W32) : State × Ahead := (s, .dropped)

/-- Issue an instruction that run-ahead does not turn into a prefetch. -/
def issue (x : Iss) (g : Grp) (body : State → Group → W32 → Res) (s : State) : Host.Outcome State Fault Refusal :=
  .next (issuePf x g body noPf s)

/-- The registers of a slot: VREGS of the group that would issue (R52), 0 with none. -/
def State.vregsOf (s : State) (g : Grp) : Nat := ((s.group? g).map (·.vregs)).getD 0

/-- The status of a decode fault when a check fails (R85, R116). -/
def illegalUnless (ok : Bool) : Option W16 := if ok then none else some 0x0504

/-! ## The fields of a format R or I instruction, alike (R88) -/

/-- Operands of an R or I form: `b` is none where the immediate takes SRC_B's place. -/
structure Ops3 where
  ext : Option W64
  gp : BitVec 3
  gn : Bool
  a : BitVec 9
  b : Option (BitVec 9)
  imm : W64
  c : BitVec 9
  dst : BitVec 9
  mod : BitVec 9

def Ops3.ofR (f : RWord) : Ops3 :=
  { ext := f.ext, gp := f.gp, gn := f.gn, a := f.a, b := some f.b, imm := 0, c := f.c, dst := f.dst, mod := f.mod }

/-- The format-I twin: IMM18 sign-extended, or the extension word, takes the place of SRC_B (R88). -/
def Ops3.ofI (f : IWord) : Ops3 :=
  { ext := f.ext, gp := f.gp, gn := f.gn, a := f.a, b := none,
    imm := match f.ext with
      | some x => x
      | none => f.imm.signExtend 64
    c := opZero, dst := f.dst, mod := f.mod }

def Ops3.of : RI → Ops3
  | .r f => .ofR f
  | .i f => .ofI f

/-- IMM18 must be 0 when the extension word takes its place (R88). -/
def immOk : RI → Bool
  | .r _ => true
  | .i f => f.ext.isNone || decide (f.imm = 0)

/-- SRC_B's value in a group-level instruction. -/
def Ops3.bS (o : Ops3) (g : Group) : W64 :=
  match o.b with
  | some c => g.opS o.ext c
  | none => o.imm

/-- SRC_B's value in lane `i` of a per-lane instruction. -/
def Ops3.bL (o : Ops3) (g : Group) (i : Nat) : W32 :=
  match o.b with
  | some c => g.opL o.ext c i
  | none => o.imm.setWidth 32

/-- Does SRC_B hold an accepted code? A twin's immediate always does. XIMM in a twin's SRC_A has no extension word of
its own meaning, so it is not accepted (R85, R91). -/
def Ops3.bOk (o : Ops3) (vregs : Nat) (ks : List Kind) : Bool :=
  match o.b with
  | some c => accepts vregs o.ext.isSome ks c
  | none => true

/-- XIMM is an operand of format R only; in a format-I twin the extension word is the immediate (R85, R91). -/
def Ops3.xOk (o : Ops3) : Bool := o.b.isSome && o.ext.isSome

def Ops3.aOk (o : Ops3) (vregs : Nat) (ks : List Kind) : Bool := accepts vregs o.xOk ks o.a

def Ops3.reads (o : Ops3) (n : Nat) : List Nat :=
  regsOf o.a n ++ (match o.b with
    | some b => regsOf b n
    | none => []) ++ regsOf o.c n ++ [0x140 + o.gp.toNat]

end Sys2Proof.Machine
end

