-- ==== Sys2Proof/Machine/Flags.lean ====
section
/-! DEFINITION. Floating-point arithmetic of classes V and V64 and the flags it records in s63 (R102 to R105, R170,
R516): every operation is computed exactly as a dyadic rational and rounded once. -/

namespace Sys2Proof.Machine

/-- A binary format: exponent bits and stored significand bits. -/
structure Fmt where
  eb : Nat
  mb : Nat
  deriving DecidableEq, Repr

def f16 : Fmt := { eb := 5, mb := 10 }
def bf16 : Fmt := { eb := 8, mb := 7 }
def f32 : Fmt := { eb := 8, mb := 23 }
def f64 : Fmt := { eb := 11, mb := 52 }

def Fmt.width (f : Fmt) : Nat := 1 + f.eb + f.mb
/-- The exponent of the last place of a subnormal. -/
def Fmt.emin (f : Fmt) : Int := 2 - 2 ^ (f.eb - 1) - f.mb
def Fmt.topExp (f : Fmt) : Nat := 2 ^ f.eb - 1
/-- The bits of an infinity without its sign. -/
def Fmt.infBits (f : Fmt) : Nat := f.topExp * 2 ^ f.mb
def Fmt.signBit (f : Fmt) (neg : Bool) : Nat := if neg then 2 ^ (f.width - 1) else 0
/-- The canonical quiet NaN (R103, R161). -/
def Fmt.cnan (f : Fmt) : Nat := f.infBits + 2 ^ (f.mb - 1)

/-- A value: a NaN with its bits, an infinity, or (−1)^neg × m × 2^e. -/
inductive FV where
  | nan (bits : Nat)
  | inf (neg : Bool)
  | fin (neg : Bool) (m : Nat) (e : Int)
  deriving DecidableEq, Repr

def Fmt.neg (f : Fmt) (w : Nat) : Bool := decide (w / 2 ^ (f.width - 1) % 2 = 1)

def Fmt.unpack (f : Fmt) (w : Nat) : FV :=
  let ex := w / 2 ^ f.mb % 2 ^ f.eb
  let fr := w % 2 ^ f.mb
  if ex = f.topExp then (if fr = 0 then .inf (f.neg w) else .nan (w % 2 ^ f.width))
  else if ex = 0 then .fin (f.neg w) fr f.emin
  else .fin (f.neg w) (2 ^ f.mb + fr) (f.emin + ex - 1)

def Fmt.isSnan (f : Fmt) (w : Nat) : Bool :=
  match f.unpack w with
  | .nan b => decide (b / 2 ^ (f.mb - 1) % 2 = 0)
  | _ => false

/-! ## Flags: NV 1, DZ 2, OF 4, UF 8, NX 16 (*Table 4-14*) -/

def fNV : Nat := 1
def fDZ : Nat := 2
def fOF : Nat := 4
def fUF : Nat := 8
def fNX : Nat := 16

/-- The rounding attributes of *Table 4-13*. -/
inductive Rm where
  | rne | rtz | rup | rdn | rna
  deriving DecidableEq, Repr

def Rm.ofCode : Nat → Rm
  | 1 => .rtz
  | 2 => .rup
  | 3 => .rdn
  | 4 => .rna
  | _ => .rne

/-- Does the magnitude round up? `rem` of `2^shift` is dropped, with `sticky` below it. -/
def roundUp (rm : Rm) (neg : Bool) (m rem half : Nat) (sticky : Bool) : Bool :=
  let inexact := decide (rem ≠ 0) || sticky
  match rm with
  | .rtz => false
  | .rup => inexact && !neg
  | .rdn => inexact && neg
  | .rne => decide (half < rem) || (decide (rem = half) && (sticky || decide (m % 2 = 1)))
  | .rna => decide (half ≤ rem)

/-- Round n × 2^e to a multiple of 2^q: the multiple and whether anything was dropped. -/
def roundTo (rm : Rm) (neg : Bool) (n : Nat) (e q : Int) (sticky : Bool) : Nat × Bool :=
  if q ≤ e then (n * 2 ^ (e - q).toNat, sticky)
  else
    let sh := (q - e).toNat
    let m := n / 2 ^ sh
    let rem := n % 2 ^ sh
    (if roundUp rm neg m rem (2 ^ (sh - 1)) sticky then m + 1 else m, decide (rem ≠ 0) || sticky)

/-- Round a nonzero magnitude n × 2^e, with `sticky` standing for a positive amount below its last bit, to a format:
the bits without sign, and the flags. Tininess is detected after rounding (R103). -/
def Fmt.round (f : Fmt) (rm : Rm) (neg : Bool) (n : Nat) (e : Int) (sticky : Bool) : Nat × Nat :=
  let top := e + (Nat.log2 n : Nat)
  let q := max (top - f.mb) f.emin
  let (m, nx) := roundTo rm neg n e q sticky
  let b := (q - f.emin).toNat * 2 ^ f.mb + m
  if f.infBits ≤ b then
    let toInf := match rm with
      | .rne | .rna => true
      | .rtz => false
      | .rup => !neg
      | .rdn => neg
    (if toInf then f.infBits else f.infBits - 1, fOF + fNX)
  else
    let (mu, _) := roundTo rm neg n e (top - f.mb) sticky
    let tiny := decide (top < f.emin + f.mb) && !(decide (top = f.emin + f.mb - 1) && decide (mu = 2 ^ (f.mb + 1)))
    (b, (if nx then fNX else 0) + (if nx && tiny then fUF else 0))

/-- Round a signed exact value; an exact zero takes the sign given. -/
def Fmt.pack (f : Fmt) (rm : Rm) (neg : Bool) (n : Nat) (e : Int) (sticky : Bool) : Nat × Nat :=
  if n = 0 then (f.signBit neg, 0) else
  let (b, fl) := f.round rm neg n e sticky
  (f.signBit neg + b, fl)

/-- Make a NaN quiet, keeping its payload (R103). -/
def Fmt.quiet (f : Fmt) (w : Nat) : Nat := if w / 2 ^ (f.mb - 1) % 2 = 0 then w + 2 ^ (f.mb - 1) else w

/-- The NaN result of operands in order, if one of them is a NaN, and the flags of signalling ones (R103). -/
def Fmt.nanOf (f : Fmt) (ws : List Nat) : Option (Nat × Nat) :=
  match ws.find? fun w => match f.unpack w with
    | .nan _ => true
    | _ => false with
  | some w => some (f.quiet (w % 2 ^ f.width), if ws.any f.isSnan then fNV else 0)
  | none => none

def Fmt.invalid (f : Fmt) : Nat × Nat := (f.cnan, fNV)

/-- The signed integer of a finite value at an exponent not above its own. -/
def scaled (neg : Bool) (m : Nat) (e q : Int) : Int :=
  let v : Int := (m * 2 ^ (e - q).toNat : Nat)
  if neg then -v else v

/-- The exact sum of two finite values, rounded once; a zero sum of unlike signs is −0 only toward −∞. -/
def Fmt.addFin (f : Fmt) (rm : Rm) (n1 : Bool) (m1 : Nat) (e1 : Int) (n2 : Bool) (m2 : Nat) (e2 : Int) : Nat × Nat :=
  let q := min e1 e2
  let v := scaled n1 m1 e1 q + scaled n2 m2 e2 q
  if v = 0 then (f.signBit (if n1 == n2 then n1 else decide (rm = .rdn)), 0)
  else f.pack rm (decide (v < 0)) v.natAbs q false

def Fmt.add (f : Fmt) (rm : Rm) (a b : Nat) : Nat × Nat :=
  match f.nanOf [a, b] with
  | some r => r
  | none => match f.unpack a, f.unpack b with
    | .inf x, .inf y => if x == y then (f.signBit x + f.infBits, 0) else f.invalid
    | .inf x, _ => (f.signBit x + f.infBits, 0)
    | _, .inf y => (f.signBit y + f.infBits, 0)
    | .fin n1 m1 e1, .fin n2 m2 e2 => f.addFin rm n1 m1 e1 n2 m2 e2
    | _, _ => f.invalid

/-- The sign operations VFNEG, VFABS, VFCPYS, VDNEG and VDABS change a sign bit and nothing else, of a signalling NaN too
(DESIGN CHOICE, log entry 121). -/
def Fmt.flip (f : Fmt) (w : Nat) : Nat := if f.neg w then w - 2 ^ (f.width - 1) else w + 2 ^ (f.width - 1)
/-- The same for the sign cleared (log entry 121). -/
def Fmt.abs (f : Fmt) (w : Nat) : Nat := w % 2 ^ (f.width - 1)

/-- a − b: a NaN operand keeps its own sign (R103). -/
def Fmt.sub (f : Fmt) (rm : Rm) (a b : Nat) : Nat × Nat :=
  match f.nanOf [a, b] with
  | some r => r
  | none => f.add rm a (f.flip b)

def Fmt.mul (f : Fmt) (rm : Rm) (a b : Nat) : Nat × Nat :=
  match f.nanOf [a, b] with
  | some r => r
  | none => match f.unpack a, f.unpack b with
    | .fin n1 m1 e1, .fin n2 m2 e2 => f.pack rm (n1 != n2) (m1 * m2) (e1 + e2) false
    | .inf x, .fin y m _ | .fin y m _, .inf x => if m = 0 then f.invalid else (f.signBit (x != y) + f.infBits, 0)
    | .inf x, .inf y => (f.signBit (x != y) + f.infBits, 0)
    | _, _ => f.invalid

/-- Is a × b the invalid product ∞ × 0? -/
def Fmt.infZero (f : Fmt) (a b : Nat) : Bool :=
  match f.unpack a, f.unpack b with
  | .inf _, .fin _ m _ | .fin _ m _, .inf _ => decide (m = 0)
  | _, _ => false

/-- a × b + c rounded once. -/
def Fmt.fma (f : Fmt) (rm : Rm) (a b c : Nat) : Nat × Nat :=
  match f.nanOf [a, b, c] with
  | some (r, fl) => (r, if f.infZero a b && Config.fmaNanInvalid then fNV else fl)
  | none =>
    if f.infZero a b then f.invalid else
    match f.unpack a, f.unpack b, f.unpack c with
    | .fin n1 m1 e1, .fin n2 m2 e2, .fin n3 m3 e3 => f.addFin rm (n1 != n2) (m1 * m2) (e1 + e2) n3 m3 e3
    | .fin _ _ _, .fin _ _ _, .inf z => (f.signBit z + f.infBits, 0)
    | _, _, .inf z => if (f.neg a != f.neg b) == z then (f.signBit z + f.infBits, 0) else f.invalid
    | _, _, _ => (f.signBit (f.neg a != f.neg b) + f.infBits, 0)

/-- a / b, correctly rounded. -/
def Fmt.div (f : Fmt) (rm : Rm) (a b : Nat) : Nat × Nat :=
  match f.nanOf [a, b] with
  | some r => r
  | none => match f.unpack a, f.unpack b with
    | .inf _, .inf _ => f.invalid
    | .inf x, _ => (f.signBit (x != f.neg b) + f.infBits, 0)
    | _, .inf y => (f.signBit (f.neg a != y), 0)
    | .fin n1 m1 e1, .fin n2 m2 e2 =>
      if m2 = 0 then (if m1 = 0 then f.invalid else (f.signBit (n1 != n2) + f.infBits, fDZ))
      else
        let k := 2 * f.mb + 8
        f.pack rm (n1 != n2) (m1 * 2 ^ k / m2) (e1 - e2 - k) (decide (m1 * 2 ^ k % m2 ≠ 0))
    | _, _ => f.invalid

/-- The integer square root, bit by bit from the highest. -/
def isqrtBits : Nat → Nat → Nat → Nat
  | 0, _, r => r
  | k + 1, n, r => isqrtBits k n (if (r + 2 ^ k) * (r + 2 ^ k) ≤ n then r + 2 ^ k else r)

def isqrt (n : Nat) : Nat := isqrtBits (Nat.log2 n / 2 + 1) n 0

/-- The square root, correctly rounded. -/
def Fmt.sqrt (f : Fmt) (rm : Rm) (a : Nat) : Nat × Nat :=
  match f.nanOf [a] with
  | some r => r
  | none => match f.unpack a with
    | .inf neg => if neg then f.invalid else (f.infBits, 0)
    | .fin neg m e =>
      if m = 0 then (f.signBit neg, 0)
      else if neg then f.invalid
      else
        let k : Nat := 2 * f.mb + 8
        let e' := e - k
        let (n, h) := if e' % 2 = 0 then (m * 2 ^ k, e' / 2) else (m * 2 ^ (k + 1), (e' - 1) / 2)
        let r := isqrt n
        f.pack rm false r h (decide (r * r ≠ n))
    | .nan _ => f.invalid

/-- The order of two values that are not NaNs: less, equal. -/
def Fmt.less (f : Fmt) (a b : Nat) : Bool :=
  match f.unpack a, f.unpack b with
  | .inf x, .inf y => x && !y
  | .inf x, _ => x
  | _, .inf y => !y
  | .fin n1 m1 e1, .fin n2 m2 e2 => decide (scaled n1 m1 e1 (min e1 e2) < scaled n2 m2 e2 (min e1 e2))
  | _, _ => false

/-- IEEE 754-2019 minimum and maximum: −0 lies below +0, a NaN operand gives a NaN. -/
def Fmt.minmax (f : Fmt) (maxi : Bool) (a b : Nat) : Nat × Nat :=
  match f.nanOf [a, b] with
  | some r => r
  | none =>
    let aLow := f.less a b || (!f.less b a && f.neg a)
    (if aLow == maxi then b else a, 0)

def Fmt.copySign (f : Fmt) (a b : Nat) : Nat := f.abs a + f.signBit (f.neg b)

/-- The floating-point compares: .EQ and .NE are quiet, the ordered ones signal any NaN; unordered makes every
condition but .NE and .UN false (IEEE 754-2019, log entry 13). -/
def Fmt.cmp (f : Fmt) (c : Cond) (a b : Nat) : Bool × Nat :=
  match f.nanOf [a, b] with
  | some (_, fl) =>
    (match c with
     | .ne | .un => true
     | _ => false,
     match c with
     | .lt | .le | .gt | .ge => fNV
     | _ => fl)
  | none =>
    let lt := f.less a b
    let gt := f.less b a
    (match c with
     | .eq => !lt && !gt
     | .ne => lt || gt
     | .lt => lt
     | .le => !gt
     | .gt => gt
     | .ge => !lt
     | .ord => true
     | _ => false, 0)

/-- The integer a finite value rounds to, and whether it was inexact. -/
def roundInt (rm : Rm) (neg : Bool) (m : Nat) (e : Int) : Int × Bool :=
  let (n, nx) := roundTo rm neg m e 0 false
  (if neg then -(n : Int) else n, nx)

/-- Conversion to an integer between two limits (R105): out of range saturates with NV, a NaN gives 0 with NV. -/
def Fmt.toInt (f : Fmt) (rm : Rm) (lo hi : Int) (a : Nat) : Int × Nat :=
  match f.unpack a with
  | .nan _ => (0, fNV)
  | .inf neg => (if neg then lo else hi, fNV)
  | .fin neg m e =>
    let (v, nx) := roundInt rm neg m e
    if v < lo then (lo, fNV) else if hi < v then (hi, fNV) else (v, if nx then fNX else 0)

/-- Conversion of an integer, correctly rounded. -/
def Fmt.ofInt (f : Fmt) (rm : Rm) (v : Int) : Nat × Nat := f.pack rm (decide (v < 0)) v.natAbs 0 false

/-- Conversion between formats: correctly rounded; a NaN keeps the leading bits of its payload and becomes quiet. -/
def Fmt.convert (src dst : Fmt) (rm : Rm) (a : Nat) : Nat × Nat :=
  match src.unpack a with
  | .nan b =>
    let fr := b % 2 ^ src.mb
    let fr' := if src.mb ≤ dst.mb then fr * 2 ^ (dst.mb - src.mb) else fr / 2 ^ (src.mb - dst.mb)
    let q := if fr' / 2 ^ (dst.mb - 1) % 2 = 0 then fr' + 2 ^ (dst.mb - 1) else fr'
    (dst.signBit (src.neg b) + dst.infBits + q, if src.isSnan a then fNV else 0)
  | .inf neg => (dst.signBit neg + dst.infBits, 0)
  | .fin neg m e => dst.pack rm neg m e false

/-! ## MOD of the arithmetic opcodes (*Table 4-13*) and s63 (*Table 4-14*) -/

def modType (m : BitVec 9) : Nat := bits m 8 5
def modRm (m : BitVec 9) : Nat := bits m 4 2
def modFlg (m : BitVec 9) : Bool := m.getLsbD 1

/-- RM is a defined value and bit 0 is clear (R85, R102). -/
def modFpOk (m : BitVec 9) : Bool := decide (modRm m ≠ 5) && decide (modRm m ≠ 6) && !m.getLsbD 0

/-- Integer opcodes ignore RM and FLG, and both must be 0 (R102). -/
def modIntOk (m : BitVec 9) : Bool := decide (bits m 4 0 = 0)

/-- The rounding attribute: MOD's, or s63[10:8] with nearest-even for its undefined codes (R104). -/
def rmOf (g : Group) (m : BitVec 9) : Rm :=
  if modRm m = 7 then (if bits (g.s 63) 10 8 ≤ 4 then .ofCode (bits (g.s 63) 10 8) else .rne) else .ofCode (modRm m)

/-- Record flags in s63[4:0] when FLG is 1 (R104). -/
def recordFlags (g : Group) (m : BitVec 9) (fl : Nat) : Group :=
  if modFlg m then g.setS 63 (g.s 63 ||| w64 fl) else g

/-- The flags of every active lane together. -/
def orFlags (act : W32) (f : Nat → Nat) : Nat := (maskList act).foldl (fun acc i => acc ||| f i) 0

/-- s63 as an operand: read with a dynamic RM, read and written with FLG. -/
def fpStatus (m : BitVec 9) : List Nat := if modRm m = 7 ∨ modFlg m = true then [0x13F] else []

/-- The format of a floating-point TYPE. -/
def fmtOf : Nat → Fmt
  | 4 => f32
  | 5 => f16
  | 6 => bf16
  | _ => f64

/-- Elements per 32-bit lane and their width, by TYPE (*Table 4-13*). -/
def elems : Nat → Nat × Nat
  | 0 => (1, 32)
  | 1 => (2, 16)
  | 2 => (4, 8)
  | 4 => (1, 32)
  | 5 => (2, 16)
  | 6 => (2, 16)
  | _ => (1, 64)

/-- Element `i` of a lane. -/
def elemOf (ty : Nat) (w : Nat) (i : Nat) : Nat := w / 2 ^ ((elems ty).2 * i) % 2 ^ (elems ty).2

/-- A lane made of elements; the flags of all of them together. -/
def packElems (ty : Nat) (f : Nat → Nat × Nat) : W32 × Nat :=
  let (n, k) := elems ty
  (w32 (packFields k (fun i => (f i).1) n), (List.range n).foldl (fun acc i => acc ||| (f i).2) 0)

end Sys2Proof.Machine
end

