-- ==== Sys2Proof/Machine/Dyadic.lean ====
section
/-! DEFINITION. Exact dyadic rationals, their rounding to FP32, and the compensated pair of VALUE and COMP that the mill
and FADDC keep (R157, R170). -/

namespace Sys2Proof.Machine

/-- The rational m × 2^e. -/
structure Dy where
  m : Int
  e : Int
  deriving DecidableEq, Repr

def Dy.zero : Dy := { m := 0, e := 0 }
def Dy.isZero (a : Dy) : Bool := decide (a.m = 0)
def Dy.neg (a : Dy) : Dy := { m := -a.m, e := a.e }
def Dy.abs (a : Dy) : Dy := { m := a.m.natAbs, e := a.e }
def Dy.add (a b : Dy) : Dy :=
  let q := min a.e b.e
  { m := a.m * 2 ^ (a.e - q).toNat + b.m * 2 ^ (b.e - q).toNat, e := q }
def Dy.sub (a b : Dy) : Dy := a.add b.neg
def Dy.mul (a b : Dy) : Dy := { m := a.m * b.m, e := a.e + b.e }
/-- a × 2^k. -/
def Dy.scale (a : Dy) (k : Int) : Dy := { m := a.m, e := a.e + k }
def Dy.sum (l : List Dy) : Dy := l.foldl Dy.add Dy.zero
/-- ⌊log₂|a|⌋ of a nonzero value. -/
def Dy.log (a : Dy) : Int := a.e + (Nat.log2 a.m.natAbs : Nat)
def Dy.lt (a b : Dy) : Bool := decide ((a.sub b).m < 0)
def Dy.le (a b : Dy) : Bool := decide ((a.sub b).m ≤ 0)
def Dy.max (a b : Dy) : Dy := if a.lt b then b else a

/-- Round to a multiple of 2^q. -/
def Dy.roundAt (rm : Rm) (a : Dy) (q : Int) : Dy :=
  let r := (roundTo rm (decide (a.m < 0)) a.m.natAbs a.e q false).1
  { m := if a.m < 0 then -(r : Int) else r, e := q }

/-- The bits of a value rounded to a format; the sign of an exact zero is given. -/
def Dy.toFmt (f : Fmt) (rm : Rm) (negZero : Bool) (a : Dy) : Nat :=
  (f.pack rm (if a.isZero then negZero else decide (a.m < 0)) a.m.natAbs a.e false).1

/-- The value of a finite pattern. -/
def dyOf (f : Fmt) (w : Nat) : Option Dy :=
  match f.unpack w with
  | .fin neg m e => some { m := if neg then -(m : Int) else m, e := e }
  | _ => none

/-- The new VALUE, COMP and the loss |T − VALUE − COMP| of an exact T (R157 steps 2 and 3). A VALUE that rounds to an
infinity or to zero has COMP 0. A T that is exactly 0 leaves +0 (DESIGN CHOICE, log entry 127). -/
def compPair (t : Dy) : Nat × Nat × Dy :=
  let v := t.toFmt f32 .rne false
  match dyOf f32 v with
  | none => (v, 0, Dy.zero)
  | some vd =>
    let d := t.sub vd
    if vd.isZero || d.isZero then (v, 0, d.abs) else
    let q2 := if d.abs.lt { m := 1, e := -126 } then -149 else d.log - 23
    let c := d.roundAt .rne (max (vd.log - 52) q2)
    (v, c.toFmt f32 .rne false, (d.sub c).abs)

/-- FADDC: the pair left for the sum of two pairs, each with the value in the low word (R170). -/
def faddc (old val : W64) : W64 :=
  let ws := [bits old 31 0, bits old 63 32, bits val 31 0, bits val 63 32]
  let vs := ws.map f32.unpack
  let nan := vs.any fun v => match v with
    | .nan _ => true
    | _ => false
  let pinf := vs.contains (.inf false)
  let ninf := vs.contains (.inf true)
  if nan || (pinf && ninf) then w64 f32.cnan
  else if pinf then w64 f32.infBits
  else if ninf then w64 (f32.signBit true + f32.infBits)
  else
    let (v, c, _) := compPair (Dy.sum (ws.filterMap (dyOf f32)))
    w64 (v + c * 2 ^ 32)

/-- FADD leaves the canonical NaN whatever the payloads, and records no flags (R170). -/
def fadd (f : Fmt) (a b : Nat) : Nat :=
  let r := (f.add .rne a b).1
  match f.unpack r with
  | .nan _ => f.cnan
  | _ => r

/-- What an atomic leaves at its target (*Table 4-8*), at a width of 32 or 64 bits. -/
def atomicResult (aop : Nat) (n : Nat) (old val cmp : Nat) : Nat :=
  let a := BitVec.ofNat n old
  let b := BitVec.ofNat n val
  match aop with
  | 0x00 => (a + b).toNat
  | 0x01 => (a &&& b).toNat
  | 0x02 => (a ||| b).toNat
  | 0x03 => (a ^^^ b).toNat
  | 0x04 => (if a.slt b then a else b).toNat
  | 0x05 => (if a.ult b then a else b).toNat
  | 0x06 => (if a.slt b then b else a).toNat
  | 0x07 => (if a.ult b then b else a).toNat
  | 0x08 => b.toNat
  | 0x09 => if a = BitVec.ofNat n cmp then b.toNat else a.toNat
  | 0x10 => fadd (if n = 32 then f32 else f64) a.toNat b.toNat
  | 0x11 => (faddc (BitVec.ofNat 64 old) (BitVec.ofNat 64 val)).toNat
  | _ => old

end Sys2Proof.Machine
end

