-- ==== Sys2Proof/Machine/Access.lean ====
section
/-! DEFINITION. What the memory instructions share: effective addresses, marks, the checks of one lane, device pages,
forwarding from the store buffer, and requests for lines (R87 to R92, R97 to R100, R116, R252, R304 to R307, R373,
R412). -/

namespace Sys2Proof.Machine

/-! ## Fields -/

/-- Bytes of an access size (*Table 4-5a*). -/
def szBytes (sz : BitVec 3) : Nat :=
  match sz.toNat with
  | 0 | 1 => 1
  | 2 | 3 => 2
  | 4 => 4
  | 5 => 8
  | _ => 16

/-- The marks an opcode accepts (*Table 4-10*): none, .ACQ, .REL. MARK 00 needs SCOPE 00 (R97). -/
def markOk (acq rel : Bool) (mark scope : BitVec 2) : Bool :=
  match mark.toNat with
  | 0 => decide (scope = 0)
  | 1 => acq
  | 2 => rel
  | _ => acq && rel

/-- Does the mark acquire, or release, with respect to anyone outside the group (R98, R99, R308)? -/
def isAcq (mark scope : BitVec 2) : Bool := (mark == 1 || mark == 3) && decide (scope ≠ 0)
def isRel (mark scope : BitVec 2) : Bool := (mark == 2 || mark == 3) && decide (scope ≠ 0)

/-- The displacement: IMM18, or the extension word of a load, store or prefetch (*Table 4-6*). -/
def dispOf (atom : Bool) (f : MWord) : W64 :=
  match atom, f.ext with
  | false, some x => x
  | _, _ => f.imm.signExtend 64

/-- The effective address in lane `i` (R89). -/
def effAddr (k : Group) (atom : Bool) (f : MWord) (i : Nat) : Nat :=
  let c := f.index.toNat
  let idx : W64 := if c < 0x100 then (laneOf (k.v c) i).setWidth 64 else k.opS none f.index
  (k.s f.base.toNat + (idx <<< f.scale.toNat) + dispOf atom f).toNat

/-- The operand kind of DATA at a size. -/
def dataKinds (scalar : Bool) (sz : BitVec 3) : List Kind :=
  if scalar then [.s] else if sz = 5 then [.pr] else if sz = 6 then [.qd] else [.v]

def indexKinds (scalar : Bool) : List Kind := if scalar then [.s, .z] else [.v, .s, .z]

/-- IMM18 is 0 where the extension word is the displacement (*Table 4-6*). -/
def dispOk (f : MWord) : Bool := f.ext.isNone || decide (f.imm = 0)

/-- What issue needs of a memory instruction. -/
def memIss (s : State) (g : Grp) (f : MWord) (cls : Cls) (alone scalar : Bool) (szs : List Nat) (dks : List Kind)
    (acq rel reads : Bool) (extra : Bool) : Iss :=
  let n := s.vregsOf g
  let d := regsOf f.data (if dks = [.qd] then 4 else szRegs scalar f.sz)
  { ext := f.ext, gp := f.gp, gn := f.gn, cls := cls, access := true, alone := alone
    reads := [0x100 + f.base.toNat, 0x140 + f.gp.toNat] ++ regsOf f.index 1 ++ (if reads then d else [])
    writes := if reads then [] else d
    bad := illegalUnless (szs.contains f.sz.toNat && accepts n false (indexKinds scalar) f.index &&
      accepts n false dks f.data && markOk acq rel f.mark f.scope && extra) }

/-! ## The checks of one lane (R89, R116, R279, R288) -/

/-- What one lane's access comes to. -/
inductive Lane where
  | ok (lane : Nat) (v pa : Nat) (leaf : W64)
  | bad (r : Res)

/-- Is a physical address on a device page? -/
def State.onDevice (s : State) (pa : Nat) : Bool := (s.placeOf pa).isDevice

/-- Translate and check one lane: alignment, range, translation, permission, attribute, then what the home slice would
answer (R89, R92, R116, R264, R266). -/
def laneAccess (s : State) (g : Grp) (k : Group) (need : Need) (n : Nat) (attr : W64 → Nat → Bool) (i v : Nat) :
    State × Lane :=
  if v % n ≠ 0 then (s, .bad (.fault 0x0403 v 0)) else
  match translate s (.core g.core) false k.ctx v need with
  | (s1, .fault st) => (s1, .bad (.fault st v 0))
  | (s1, .moving) => (s1, .bad (.park 3 v))
  | (s1, .ok pa leaf) =>
    if attr leaf pa = false then (s1, .bad (.fault 0x0404 v 0))
    else if s1.homeStatus pa ≠ 0 then (s1, .bad (.fault (s1.homeStatus pa) v 0))
    else (s1, .ok i v pa leaf)

/-- A 128-bit access to a device page raises ATTRIBUTE (*Table 4-18*). -/
def attrPlain (n : Nat) (leaf : W64) (_ : Nat) : Bool := !(decide (leafAttr leaf = 4) && decide (n = 16))

/-- Check the active lanes in order (R90). -/
def lanesAccess (s : State) (g : Grp) (k : Group) (need : Need) (n : Nat) (attr : W64 → Nat → Bool)
    (as : List (Nat × Nat)) : State × List Lane :=
  as.foldl (fun (acc : State × List Lane) a =>
    let (s1, l) := laneAccess acc.1 g k need n attr a.1 a.2
    (s1, acc.2 ++ [l])) (s, [])

def laneFault : Lane → Option Res
  | .bad (.fault a b c) => some (.fault a b c)
  | _ => none

def lanePark : Lane → Option Res
  | .bad (.park a b) => some (.park a b)
  | _ => none

/-- The fault of the lowest-numbered lane that faults; else the first park (R77, R116). -/
def lanesRes (ls : List Lane) : Option Res :=
  match ls.findSome? laneFault with
  | some r => some r
  | none => ls.findSome? lanePark

def lanesOk (ls : List Lane) : List (Nat × Nat × Nat × W64) := ls.filterMap fun
  | .ok i v pa leaf => some (i, v, pa, leaf)
  | .bad _ => none

/-- The addresses of the active lanes; a group-level access has one, in lane 0. -/
def memAddrs (k : Group) (act : W32) (atom scalar : Bool) (f : MWord) : List (Nat × Nat) :=
  if scalar then [(0, effAddr k atom f 0)] else (maskList act).map fun i => (i, effAddr k atom f i)

/-! ## Store-buffer entries of a group (R304 to R307) -/

/-- The byte a group's own entries forward, the youngest first (R305). -/
def forwardByte (es : List SbEntry) (e : Option Nat) (pa : Nat) : Option Byte :=
  (es.reverse.find? fun x => decide (x.line = lineNo pa) && decide (x.epoch = e) && x.mask.getLsbD (pa % 128)).map
    fun x => lineByte x.data (pa % 128)

/-! ## Device pages (R252, R373, R412) -/

def epochStateCode : EpochState → Nat
  | .free => 0
  | .opened => 1
  | .closing => 2
  | .folding => 3
  | .reclaiming => 4

/-- Open children of an epoch (*Table 9-9*). -/
def State.openChildren (s : State) (e : Nat) : Nat :=
  ((List.range 64).filter fun i => let c := s.epoch (e / 64 * 64 + i)
    decide (c.parent = some (e % 64)) && (decide (c.state = .opened) || decide (c.state = .closing))).length

/-- An epoch's state word (*Table 9-9*). -/
def State.epochWord (s : State) (e : Nat) : W64 :=
  let x := s.epoch e
  let b := fun (v : Bool) (i : Nat) => if v then 2 ^ i else 0
  w64 (fld (epochStateCode x.state) 63 56 + b x.overflow 55 + b x.poisoned 54 + b x.parent.isSome 53 +
    fld (x.parent.getD 0) 52 47 + fld x.last.toNat 31 16 + fld (s.openChildren e) 5 0)

/-- A context's refusal word (*Table 9-10*). -/
def refusalWord (c : Context) : W64 := w64 (fld c.refStatus.toNat 63 48 + fld c.refCount 47 16 + fld c.refEpoch.toNat 5 0)

/-- The state of a queue (*Table 13-6*): IDLE, RUNNING, WAITING, STOPPED. -/
def queueStateCode (q : Queue) : Nat :=
  if q.stopped.isSome then 4
  else if q.entries.any fun e => decide (e.2 = .waiting) then 3
  else if q.head < q.tail then 2 else 1

/-- The first word of a queue descriptor (*Table 13-6*). -/
def queueWord (q : Queue) : W64 :=
  w64 (fld (queueStateCode q) 63 56 + (if q.slot.isSome then 2 ^ 55 else 0) + (if q.notify then 2 ^ 54 else 0) +
    fld q.prio 53 51 + fld ((q.stopped.getD 0).toNat) 47 32 + fld q.loc 7 0)

/-- What a load from a device page returns: the words of its read offsets at 64 bits, 0 elsewhere. -/
def deviceLoad (s : State) (ctx pa n : Nat) : W64 :=
  if n ≠ 8 then 0 else
  match s.placeOf pa with
  | .epochPage _ off =>
    match s.ctx? ctx with
    | none => 0
    | some c =>
      if off = 8 then refusalWord c
      else if 0x40 ≤ off ∧ off < 0x240 then
        let e := 64 * c.part + (off - 0x40) / 8
        if (s.epoch e).owner = some ctx then s.epochWord e else 0
      else 0
  | .doorbell slot off =>
    match s.queues.find? fun e => decide (e.2.slot = some slot) with
    | none => 0
    | some (_, q) => if off = 8 then w64 q.head else if off = 16 then queueWord q else 0
  | .egress off =>
    match s.ctx? (off / 65536) with
    | none => 0
    | some c =>
      let o := off % 65536
      if o = 0x8000 then w64 c.evCount else if o = 0x8008 then w64 c.evDropped
      else if o = 0x8010 then w64 (s.evPending (off / 65536)) else 0
  | _ => 0

/-! ## Loads: where the bytes come from -/

/-- May an L1 data cache hold the line of this page (R251, R317)? -/
def cacheable (s : State) (pa : Nat) (leaf : W64) : Bool :=
  decide (leafAttr leaf ≤ 1) && !leafEp leaf && !s.isHeld pa && !s.onDevice pa

/-- The sectors of the range whose bytes are not all forwarded are consumed (R440). -/
def consumed (s : State) (e : Option Nat) (known : Nat → Bool) (pa n : Nat) : Bool :=
  (List.range n).any fun i => !known (pa + i) && s.poisoned e (pa + i) 1

/-- A byte for a core: from its own L1 line, else from the home (R305, R317). -/
def State.coreByte (s : State) (c : Nat) (e : Option Nat) (cached : Bool) (pa : Nat) : Byte :=
  match cached, tfind (s.core c).l1 (lineNo pa) with
  | true, some l => lineByte l.data (pa % 128)
  | _, _ => s.readByte e pa

/-- A loaded value extended as its size says (*Table 4-5a*). -/
def extendSz (sz : BitVec 3) (scalar : Bool) (v : Nat) : Nat :=
  let w := if scalar then 64 else 32
  match sz.toNat with
  | 1 => ((BitVec.ofNat 8 v).signExtend w).toNat
  | 3 => ((BitVec.ofNat 16 v).signExtend w).toNat
  | _ => v

/-- Write loaded values to a destination: a scalar, or one register, a pair or a quad per lane. -/
def putLoaded (k : Group) (dst : BitVec 9) (sz : BitVec 3) (scalar : Bool) (vals : List (Nat × Nat)) : Group :=
  if scalar then k.putS dst (w64 (extendSz sz true ((vals.head?.map (·.2)).getD 0)))
  else
    let act := maskOf fun i => vals.any fun p => decide (p.1 = i)
    let val := fun i => ((vals.find? fun p => decide (p.1 = i)).map (·.2)).getD 0
    (List.range (szRegs false sz)).foldl (fun k j =>
      k.putV (dst.toNat + j) act fun i => w32 (extendSz sz false (val i) / 2 ^ (32 * j))) k

/-- The sharers of a line with one core more: up to four pointers, then a mask of compute dies (R318). -/
def addSharer (d : DirState) (c : Nat) : DirState :=
  match d with
  | .ptrs cs => if cs.length < 4 ∨ c ∈ cs then DirState.ptrs (addOnce c cs)
      else .coarse (BitVec.ofNat 48 (packFields 1 (fun i => if (c :: cs).any fun x => dieOfCore x = i then 1 else 0) 48))
  | .coarse m => .coarse (m ||| BitVec.ofNat 48 (2 ^ dieOfCore c))
  | .owned o => if o = c then .ptrs [c] else .ptrs [o, c]
  | .i => .ptrs [c]

/-- A core evicts a line: S silently, E with a PutE, M with a PutM (R319). A path that spins on the line is woken, since
no later write would reach it (R62, log entry 118). -/
def evictLine (s : State) (c l : Nat) : State :=
  match tfind (s.core c).l1 l with
  | none => s
  | some x =>
    let m := fun (kind : MsgKind) (d : Line) =>
      mkMsg kind l (some c) none (some c) d 0 (decide (kind = MsgKind.putM)) .s
    let s1 := dropCopy l s c
    match x.st with
    | .s => s1
    | .e => send s1 (m .putE x.data)
    | .m => send s1 (m .putM x.data)

/-- The lines of a core's L1 cache and the ones granted to it that are still to be installed. -/
def l1Used (k : Core) : Nat :=
  k.l1.length + (k.mshr.filter fun e => e.2.grant.isSome && (tfind k.l1 e.1).isNone).length

/-- Ask the home for a line, unless a request for it is already on its way (R320). A line of a write-through page is held
in S at most, which `grant` of the request says (R317). -/
def requestLine (s : State) (c l : Nat) (excl wt : Bool) : State :=
  match tfind (s.core c).mshr l with
  | some _ => s
  | none =>
    let had := (tfind (s.core c).l1 l).isSome
    let kind := if excl then (if had then MsgKind.upgrade else .getM) else .getS
    send ((countUp s 0 c 7 1).modCore c fun k => { k with mshr := tput k.mshr l { grant := none, data := 0, need := 0, got := 0 } })
      (mkMsg kind l (some c) none (some c) 0 0 false (if wt then .s else .e))

/-- Ask the home for a line of a prefetch, which is held in S at most (R70, R317). -/
def prefetchLine (s : State) (c l : Nat) : State :=
  if (tfind (s.core c).l1 l).isSome || (tfind (s.core c).mshr l).isSome then s else
  send (s.modCore c fun k => { k with mshr := tput k.mshr l { grant := none, data := 0, need := 0, got := 0 } })
    { mkMsg .getS l (some c) none (some c) 0 0 false .s with pref := true }

/-- The cached lines a load still needs, with the write-through ones marked. -/
def missing (s : State) (c : Nat) (as : List (Nat × Nat × Nat × W64)) (known : Nat → Bool) (n : Nat) : List (Nat × Bool) :=
  distinct ((as.filter fun a => cacheable s a.2.2.1 a.2.2.2 && (List.range n).any (fun i => !known (a.2.2.1 + i)) &&
    (tfind (s.core c).l1 (lineNo a.2.2.1)).isNone).map fun a => (lineNo a.2.2.1, decide (leafAttr a.2.2.2 = 1)))

/-! ## Larder access (R174, R194) -/

/-- Does an access of a kind overlap a valid scoreboard entry it must wait for? -/
def scoreHolds (k : Core) (o n : Nat) (write : Bool) : Bool :=
  k.scores.any fun e => decide (e.start.toNat ≤ (o + n - 1) / 64) && decide (o / 64 ≤ e.last.toNat) && (e.write || write)

def larderRead (k : Core) (o n : Nat) : Nat := leNat ((List.range n).map fun i => tget 0 k.larder (o + i))

/-- Write larder bytes; a whole sector loses its poison, a part keeps it (R439). -/
def larderWrite (k : Core) (o : Nat) (bs : List Byte) : Core :=
  { k with larder := putBytes k.larder o bs, larderPoison := clearPoison k.larderPoison o bs.length }

def larderPoisoned (k : Core) (o n : Nat) : Bool := (sectorsOf o n).any k.larderPoison.contains

/-- Check one larder lane: alignment before range (R116). -/
def larderLane (n : Nat) (i v : Nat) : Lane :=
  if v % n ≠ 0 then .bad (.fault 0x0403 v 0) else if 2 ^ 20 < v + n then .bad (.fault 0x0405 v 0) else .ok i v v 0

end Sys2Proof.Machine
end

