-- ==== Sys2Proof/Machine/Sha.lean ====
section
/-! DEFINITION. SHA-256, which R46, R449, R476 and R480 use for digests of commons blocks, firmware and the measurement
chain. The manual names the function; its definition is that of FIPS 180-4 (log entry 20). -/

namespace Sys2Proof.Machine

/-- The largest `r + x`, `x` below 2^`b`, whose `k`-th power is at most `n`, found bit by bit. -/
def rootFloor (k n : Nat) : Nat → Nat → Nat
  | 0, r => r
  | b + 1, r => rootFloor k n b (if (r + 2 ^ b) ^ k ≤ n then r + 2 ^ b else r)

/-- The first 64 primes, all below 312. -/
def shaPrimes : List Nat :=
  (List.range 312).filter fun p => decide (2 ≤ p) && (List.range 18).all fun d => decide (d < 2) || decide (p ≤ d) || decide (p % d ≠ 0)

/-- The first 32 bits after the point of the `k`-th root of a number below 2^9. -/
def rootBits (k p : Nat) : Nat := rootFloor k (p * 2 ^ (32 * k)) 37 0 % 2 ^ 32

/-- The round constants: FIPS 180-4 defines them by the cube roots of the first 64 primes. -/
def shaK : List Nat := shaPrimes.map (rootBits 3)

/-- The initial hash value: by the square roots of the first eight primes. -/
def shaInit : List W32 := (shaPrimes.take 8).map fun p => w32 (rootBits 2 p)

def rotr (x : W32) (n : Nat) : W32 := x.rotateRight n

/-- The number in bytes given highest first. -/
def beNat (bs : List Byte) : Nat := bs.foldl (fun a b => a * 256 + b.toNat) 0

/-- `n` bytes of a number, highest first. -/
def beBytes (n v : Nat) : List Byte := (leBytes n v).reverse

/-- The padded message. -/
def shaPad (m : List Byte) : List Byte :=
  m ++ [0x80#8] ++ zeros ((119 - m.length % 64) % 64) ++ beBytes 8 (8 * m.length)

/-- Extend the message schedule by `n` words; the newest word stands first. -/
def shaSchedule : Nat → List W32 → List W32
  | 0, w => w
  | n + 1, w =>
    let at_ := fun i => (nth? w i).getD 0
    let s0 := rotr (at_ 14) 7 ^^^ rotr (at_ 14) 18 ^^^ (at_ 14 >>> 3)
    let s1 := rotr (at_ 1) 17 ^^^ rotr (at_ 1) 19 ^^^ (at_ 1 >>> 10)
    shaSchedule n ((at_ 15 + s0 + at_ 6 + s1) :: w)

/-- One round of the compression function on the eight working words. -/
def shaRound (h : List W32) (kw : Nat × W32) : List W32 :=
  match h with
  | [a, b, c, d, e, f, g, x] =>
    let s1 := rotr e 6 ^^^ rotr e 11 ^^^ rotr e 25
    let ch := (e &&& f) ^^^ (~~~e &&& g)
    let t1 := x + s1 + ch + w32 kw.1 + kw.2
    let s0 := rotr a 2 ^^^ rotr a 13 ^^^ rotr a 22
    let maj := (a &&& b) ^^^ (a &&& c) ^^^ (b &&& c)
    [t1 + (s0 + maj), a, b, c, d + t1, e, f, g]
  | _ => h

/-- The 16 words of a 64-byte block. -/
def shaWords (b : List Byte) : List W32 := (List.range 16).map fun i => w32 (beNat ((b.drop (4 * i)).take 4))

def shaBlock (h : List W32) (b : List Byte) : List W32 :=
  let w := (shaSchedule 48 (shaWords b).reverse).reverse
  List.zipWith (· + ·) h ((shaK.zip w).foldl shaRound h)

/-- Fold the blocks of a padded message. -/
def shaBlocks : Nat → List W32 → List Byte → List W32
  | 0, h, _ => h
  | n + 1, h, m => shaBlocks n (shaBlock h (m.take 64)) (m.drop 64)

/-- The digest of a message as 32 bytes. -/
def sha256 (m : List Byte) : List Byte :=
  let p := shaPad m
  (shaBlocks (p.length / 64) shaInit p).flatMap fun w => beBytes 4 w.toNat

/-- The digest as a number whose byte 0 lies lowest. -/
def sha256N (m : List Byte) : BitVec 256 := BitVec.ofNat 256 (leNat (sha256 m))

end Sys2Proof.Machine
end

