-- ==== Sys2Proof/Machine/CoreMem.lean ====
section
/-! DEFINITION. Class M: loads, stores, atomics and prefetches of memory and of the larder (R89 to R92, R184 to R189,
R303 to R307). -/

namespace Sys2Proof.Machine

/-! ## Loads -/

/-- The load is put aside until its lines are in the L1 cache; the requests go out (R241, R320). -/
def pendLoad (s : State) (g : Grp) (k : Group) (f : MWord) (scalar : Bool) (as : List (Nat × Nat × Nat × W64))
    (fw : List Host.Cell) (ls : List (Nat × Bool)) : State :=
  let p : PendingLoad :=
    { id := k.nextId, seq := k.seq, pc := k.pc, dst := f.data, sz := f.sz, scalar := scalar,
      addrs := as.map fun a => (a.1, va a.2.1, BitVec.ofNat 48 a.2.2.1), known := fw,
      acq := isAcq f.mark f.scope, noticed := false, snap := k.snap }
  ls.foldl (fun s l => requestLine s g.core l.1 false l.2)
    (s.setGroup g { k with loads := k.loads ++ [p], nextId := k.nextId + 1, seq := k.seq + 1 })

/-- The values of a load whose bytes are at hand. -/
def loadValues (s : State) (c ctx : Nat) (as : List (Nat × Nat × Nat × W64)) (fw : Option Nat → Nat → Option Byte) (n : Nat) :
    List (Nat × Nat) :=
  as.map fun a =>
    let e := s.epochOf ctx a.2.2.2
    let cached := cacheable s a.2.2.1 a.2.2.2
    (a.1, leNat ((List.range n).map fun i => (fw e (a.2.2.1 + i)).getD (s.coreByte c e cached (a.2.2.1 + i))))

/-- An atomic of the group to one of the lines is still on its way: the access keeps its program order (R302). -/
def sameLine (k : Group) (as : List (Nat × Nat × Nat × W64)) : Bool :=
  as.any fun a => k.reqs.any fun r => r.atom && decide (lineNo r.pa.toNat = lineNo a.2.2.1)

/-- Does a load of `n` bytes for each lane read a byte of a waiting load? Reads of one location take effect in program
order (R302, R303). -/
def readsSame (l : PendingLoad) (as : List (Nat × Nat × Nat × W64)) (n : Nat) : Bool :=
  as.any fun a => l.addrs.any fun b => decide (b.2.2.toNat < a.2.2.1 + n) && decide (a.2.2.1 < b.2.2.toNat + szBytes l.sz)

/-- Is a byte of a lane's access forwarded from the group's own entries (R305)? -/
def forwarded (s : State) (g : Grp) (k : Group) (a : Nat × Nat × Nat × W64) (pa : Nat) : Option Byte :=
  forwardByte (s.sbOf g) (s.epochOf k.ctx a.2.2.2) pa

/-- The lines a load must wait for (R241). -/
def loadMissing (s : State) (g : Grp) (k : Group) (as : List (Nat × Nat × Nat × W64)) (n : Nat) : List (Nat × Bool) :=
  distinct (as.flatMap fun a => missing s g.core [a] (fun pa => (forwarded s g k a pa).isSome) n)

/-- The lane whose access consumes poison, if one does (R440). -/
def loadPoison (s : State) (g : Grp) (k : Group) (as : List (Nat × Nat × Nat × W64)) (n : Nat) :
    Option (Nat × Nat × Nat × W64) :=
  as.find? fun a => consumed s (s.epochOf k.ctx a.2.2.2) (fun pa => (forwarded s g k a pa).isSome) a.2.2.1 n

/-- The bytes a waiting load takes from the group's own entries. -/
def loadCells (s : State) (g : Grp) (k : Group) (as : List (Nat × Nat × Nat × W64)) (n : Nat) : List Host.Cell :=
  as.flatMap fun a => (List.range n).filterMap fun i => (forwarded s g k a (a.2.2.1 + i)).map fun b => (a.2.2.1 + i, b)

/-- The lanes of a load that read their home slice: not every byte is known, and no L1 cache may hold the line. -/
def homeLanes (s : State) (known : Nat × Nat × Nat × W64 → Nat → Bool) (as : List (Nat × Nat × Nat × W64)) (n : Nat) :
    List (Nat × Nat × Nat × W64) :=
  as.filter fun a => !cacheable s a.2.2.1 a.2.2.2 && (List.range n).any fun i => !known a (a.2.2.1 + i)

/-- A core reads lanes at their home slices: the homes take the lines back from their owners first (R323), then the slices
see the reads (R237, R244). -/
def readHomes (s : State) (c : Nat) (as : List (Nat × Nat × Nat × W64)) (n : Nat) : State × Bool :=
  let (s1, ok) := as.foldl (fun (acc : State × Bool) a =>
    let (s1, b) := claimRange acc.1 a.2.2.1 n false
    (s1, acc.2 && b)) (s, true)
  if ok then (as.foldl (fun s a => homeRead s .core c (leafAttr a.2.2.2) a.2.2.1) s1, true) else (s1, false)

/-- A demand access reads lines: those that run-ahead prefetched were useful (R467, *Table 17-9*). -/
def demandRead (s : State) (c : Nat) (ls : List Nat) : State :=
  let hits := (s.core c).prefs.filter ls.contains
  if hits.isEmpty then s
  else countUp (s.modCore c fun k => { k with prefs := k.prefs.filter fun l => !ls.contains l }) 0 c 6 hits.length

/-- LD and SLD after the fetch: the checks, device pages alone and after the drain of the group's stores (R72, R307),
forwarding, the L1 cache, poison (R305, R440). -/
def loadBody (g : Grp) (f : MWord) (scalar : Bool) (s : State) (k : Group) (act : W32) : Res :=
  let n := szBytes f.sz
  let (s1, ls) := lanesAccess s g k .r n (attrPlain n) (memAddrs k act false scalar f)
  match lanesRes ls with
  | some r => r
  | none =>
    let as := lanesOk ls
    if as.any fun a => s1.onDevice a.2.2.1 then
      if k.memBusy || !(s1.sbOf g).isEmpty then .wait
      else .done (s1.setGroup g (putLoaded k f.data f.sz scalar
        (as.map fun a => (a.1, (deviceLoad s1 k.ctx a.2.2.1 n).toNat))))
    else
      if sameLine k as || k.loads.any (fun l => readsSame l as n) then .wait else
      let s1 := demandRead s1 g.core (as.map fun a => lineNo a.2.2.1)
      if (loadMissing s1 g k as n).isEmpty then
        match loadPoison s1 g k as n with
        | some a => poisonRes s1 (leafCommons a.2.2.2) a.2.2.1 a.2.1
        | none =>
          match readHomes s1 g.core (homeLanes s1 (fun a pa => (forwarded s1 g k a pa).isSome) as n) n with
          | (s2, false) => .stall s2
          | (s2, true) => .done (s2.setGroup g (putLoaded { k with seq := k.seq + 1 } f.data f.sz scalar
              (loadValues s1 g.core k.ctx as (forwardByte (s1.sbOf g)) n)))
      else .done (pendLoad s1 g k f scalar as (loadCells s1 g k as n) (loadMissing s1 g k as n))

/-- What a prefetch of one address comes to (R68, R69): the address and leaf it reads, nothing because it is dropped, or a
fault that is suppressed. -/
inductive Fetched where
  | at_ (pa : Nat) (leaf : W64)
  | dropped
  | fault
  deriving DecidableEq, Repr

/-- A prefetch of one address. It is dropped when the translation misses the TLB, on device, uncached and moving pages and
on poisoned sectors; a missing permission and a rejected request are faults (R68, R440, *Table 4-12*). A line an L1 cache
may hold is asked for in state S, and its home slice fills it (R70, R317); any other line is read through its home
slice. -/
def prefetchAddr (s : State) (g : Grp) (ctx v n : Nat) : State × Fetched :=
  if 2 ^ 56 ≤ v then (s, .fault) else
  match s.tlbFind (.core g.core) false ctx v with
  | none => (s, .dropped)
  | some e =>
    let pa := leafAddr e.level v e.leaf
    if !leafR e.leaf || s.homeStatus pa ≠ 0 then (s, .fault)
    else if leafAttr e.leaf ≥ 3 || s.poisoned (s.epochOf ctx e.leaf) pa n then (s, .dropped)
    else if cacheable s pa e.leaf then
      (prefetchLine s g.core (lineNo pa), .at_ pa e.leaf)
    else (homeRead s .pref g.core (leafAttr e.leaf) pa, .at_ pa e.leaf)

/-- A line that a run-ahead prefetch asked for: one prefetch until a demand access reads the line (*Table 17-9*). -/
def aheadFetch (s : State) (c l : Nat) : State :=
  if (s.core c).prefs.contains l then s else countUp (s.modCore c fun k => { k with prefs := l :: k.prefs }) 0 c 5 1

/-- A prefetch of one address in run-ahead mode. -/
def aheadAddr (s : State) (g : Grp) (ctx v n : Nat) : State × Fetched :=
  match prefetchAddr s g ctx v n with
  | (s1, .at_ pa leaf) => (aheadFetch s1 g.core (lineNo pa), .at_ pa leaf)
  | r => r

/-- What LD and SLD do in run-ahead: prefetches that return their values into the shadow registers, invalid where one
was dropped; a fault ends run-ahead (R68, R69). -/
def loadPf (f : MWord) (scalar : Bool) (s : State) (g : Grp) (gg : Group) (act : W32) : State × Ahead :=
  let n := szBytes f.sz
  let es := s.sbOf g
  let (s1, vs) := (memAddrs gg act false scalar f).foldl (fun (acc : State × List (Nat × Fetched)) a =>
    if a.2 % n ≠ 0 then (acc.1, acc.2 ++ [(a.1, .fault)]) else
    let (s1, r) := aheadAddr acc.1 g gg.ctx a.2 n
    (s1, acc.2 ++ [(a.1, r)])) (s, [])
  if vs.any fun x => decide (x.2 = .fault) then (s1, .fault)
  else if vs.any fun x => decide (x.2 = .dropped) then (s1, .dropped)
  else (s1, .value (putLoaded gg f.data f.sz scalar (vs.filterMap fun x => match x.2 with
    | .at_ pa leaf =>
      let e := s1.epochOf gg.ctx leaf
      some (x.1, leNat ((List.range n).map fun i =>
        (forwardByte es e (pa + i)).getD (s1.coreByte g.core e (cacheable s1 pa leaf) (pa + i))))
    | _ => none)))

def loadIssue (g : Grp) (f : MWord) (scalar : Bool) (s : State) : Host.Outcome State Fault Refusal :=
  let x := memIss s g f .load false scalar (if scalar then [0, 1, 2, 3, 4, 5] else [0, 1, 2, 3, 4, 5, 6])
    (dataKinds scalar f.sz) true false false (dispOk f)
  .next (issuePf x g (loadBody g f scalar) (loadPf f scalar) s)

/-- LD (R89, R94, R305). -/
def execLd (g : Grp) (f : MWord) (s : State) : Host.Outcome State Fault Refusal := loadIssue g f false s
/-- SLD: a group-level load of at most 64 bits (R95). -/
def execSld (g : Grp) (f : MWord) (s : State) : Host.Outcome State Fault Refusal := loadIssue g f true s

/-- PF: never faults, dropped when its translation misses or fails; MARK 00 (R97, *Table 4-12*). -/
def execPf (g : Grp) (f : MWord) (s : State) : Host.Outcome State Fault Refusal :=
  let x := memIss s g f .load false false [0, 1, 2, 3, 4, 5, 6] [.z] false false true (dispOk f)
  .next (issuePf x g
    (fun s k act => .done ((memAddrs k act false false f).foldl (fun s a => (prefetchAddr s g k.ctx a.2 1).1) s))
    (fun s g gg act => ((memAddrs gg act false false f).foldl (fun s a => (aheadAddr s g gg.ctx a.2 1).1) s,
      .value gg)) s)

/-! ## Stores (R304) -/

/-- The bytes a store writes in a lane. -/
def storeBytes (k : Group) (f : MWord) (scalar : Bool) (i : Nat) : List Byte :=
  let n := szBytes f.sz
  if scalar then leBytes n (k.opS none f.data).toNat
  else
    let v := packFields 32 (fun j => (laneOf (k.v (f.data.toNat + j)) i).toNat) (szRegs false f.sz)
    leBytes n v

/-- The entry of one line: lanes in order, the highest-numbered lane's bytes remain (R90). -/
def lineEntry (g : Grp) (k : Group) (f : MWord) (e : Option Nat) (attr : Nat) (l : Nat) (v : Nat)
    (ws : List (Nat × List Byte)) : SbEntry :=
  let bytes := ws.flatMap fun w => (List.range w.2.length).filterMap fun i =>
    if lineNo (w.1 + i) = l then some ((w.1 + i) % 128, (nth? w.2 i).getD 0) else none
  { slot := g.slot, ctx := k.ctx, seq := k.seq, after := if isRel f.mark f.scope then k.seq else k.ordSeq, va := va v, line := l
    mask := BitVec.ofNat 128 (packFields 1 (fun i => if bytes.any fun b => b.1 = i then 1 else 0) 128)
    data := lineOf fun i => ((bytes.reverse.find? fun b => b.1 = i).map (·.2)).getD 0
    attr := BitVec.ofNat 3 attr, epoch := e, size := szBytes f.sz }

/-- The distinct lines of the lanes' addresses, increasing (R304). -/
def storeLines (as : List (Nat × Nat × Nat × W64)) : List Nat :=
  (distinct (as.map fun a => lineNo a.2.2.1)).foldr (fun l acc =>
    (acc.takeWhile fun x => decide (x < l)) ++ l :: (acc.dropWhile fun x => decide (x < l))) []

/-- The store-buffer entries of a store: one for each distinct line, in increasing line order (R304). -/
def storeEntries (s : State) (g : Grp) (k : Group) (f : MWord) (scalar : Bool) (as : List (Nat × Nat × Nat × W64)) :
    List SbEntry :=
  (storeLines as).map fun l =>
    let mine := as.filter fun a => decide (lineNo a.2.2.1 = l)
    let a := (mine.head?).getD (0, 0, 0, 0)
    lineEntry g k f (s.epochOf k.ctx a.2.2.2) (leafAttr a.2.2.2) l a.2.1
      (mine.map fun a => (a.2.2.1, storeBytes k f scalar a.1))

/-- ST and SST after the fetch: one entry for each distinct line, in increasing line order; a device page alone and
after the drain of the group's stores; a release waits for the answers still outstanding (R72, R99, R304, R307). -/
def storeBody (g : Grp) (f : MWord) (scalar : Bool) (s : State) (k : Group) (act : W32) : Res :=
  let n := szBytes f.sz
  let (s1, ls) := lanesAccess s g k .w n (attrPlain n) (memAddrs k act false scalar f)
  match lanesRes ls with
  | some r => r
  | none =>
    let as := lanesOk ls
    let dev := as.any fun a => s1.onDevice a.2.2.1
    if dev && (k.memBusy || !(s1.sbOf g).isEmpty) then .wait
    else if sameLine k as || (isRel f.mark f.scope && !k.reqs.isEmpty) then .wait
    else if Config.sbEntries < (s1.core g.core).sb.length + (storeLines as).length then .wait
    else .done ((s1.modCore g.core fun c => { c with sb := c.sb ++ storeEntries s1 g k f scalar as }).setGroup g
        { k with seq := k.seq + 1 })

def storeIssue (g : Grp) (f : MWord) (scalar : Bool) (s : State) : Host.Outcome State Fault Refusal :=
  issue (memIss s g f .store false scalar (if scalar then [0, 2, 4, 5] else [0, 2, 4, 5, 6]) (dataKinds scalar f.sz)
    false true true (dispOk f)) g (storeBody g f scalar) s

/-- ST (R304). -/
def execSt (g : Grp) (f : MWord) (s : State) : Host.Outcome State Fault Refusal := storeIssue g f false s
/-- SST (R95, R304). -/
def execSst (g : Grp) (f : MWord) (s : State) : Host.Outcome State Fault Refusal := storeIssue g f true s

/-! ## Atomics (R91, R92, *Tables 4-7 and 4-8*) -/

def aopOf (x : W64) : Nat := bits x 63 56
def locOf (x : W64) : Nat := bits x 55 54
def valOf (x : W64) : BitVec 9 := x.extractLsb' 9 9
def cmpOf (x : W64) : BitVec 9 := x.extractLsb' 0 9

/-- Is the combination of AOP, SZ and LOC listed? -/
def atomListed (aop loc : Nat) (sz : BitVec 3) : Bool :=
  if aop = 0x11 then sz == 5 && loc == 1
  else (aop ≤ 9 || aop == 0x10) && (sz == 4 || sz == 5) && loc ≤ 2

/-- The kinds of VAL and CMP at a size (R92). -/
def valKinds (scalar : Bool) (sz : BitVec 3) : List Kind := if scalar then [.s] else if sz = 5 then [.pr, .s] else [.v, .s]

/-- VAL or CMP in a lane: with SZ 101 a scalar gives all 64 bits, a vector names a pair (R92). -/
def atomOperand (k : Group) (sz : BitVec 3) (code : BitVec 9) (i : Nat) : Nat :=
  if sz = 5 then (if code.toNat < 0x100 then (k.opPair code i).toNat else (k.opS none code).toNat)
  else if code.toNat < 0x100 then (k.opL none code i).toNat else (k.opS none code).toNat % 2 ^ 32

/-- What issue needs of an atomic: its extension word is required (R83), VAL and CMP follow R92. -/
def atomIss (s : State) (g : Grp) (f : MWord) (scalar : Bool) : Iss :=
  let n := s.vregsOf g
  let x := f.ext.getD 0
  let ok := decide (bits x 53 18 = 0) && atomListed (aopOf x) (locOf x) f.sz &&
    accepts n false (valKinds scalar f.sz) (valOf x) &&
    (if aopOf x = 9 then accepts n false (valKinds scalar f.sz) (cmpOf x) else decide (cmpOf x = opZero))
  let i := memIss s g f .store true scalar [4, 5] (.z :: dataKinds scalar f.sz) true true false ok
  { i with
    direct := true
    reads := i.reads ++ regsOf (valOf x) (if f.sz = 5 then 2 else 1) ++ regsOf (cmpOf x) (if f.sz = 5 then 2 else 1)
    bad := if f.ext.isNone then some 0x0503 else i.bad }

/-- The attributes an atomic accepts: LOC 00 a write-back page, LOC 01 any but device (R92). -/
def attrAtom (loc : Nat) (leaf : W64) (_ : Nat) : Bool := if loc = 0 then decide (leafAttr leaf = 0) else decide (leafAttr leaf ≠ 4)

/-- Write the old values of an atomic to DATA. -/
def putOld (k : Group) (f : MWord) (scalar : Bool) (olds : List (Nat × Nat)) : Group :=
  if f.data = opZero then k else putLoaded k f.data f.sz scalar olds

/-- Does the core own the line in its L1 data cache (R317)? -/
def ownsLine (s : State) (c l : Nat) : Bool :=
  match tfind (s.core c).l1 l with
  | some y => y.dirtyOwner
  | none => false

/-- The new bytes of an atomic in a lane, over the old value. -/
def atomNew (k : Group) (f : MWord) (x : W64) (lane old : Nat) : List Byte :=
  leBytes (szBytes f.sz) (atomicResult (aopOf x) (8 * szBytes f.sz) old (atomOperand k f.sz (valOf x) lane)
    (atomOperand k f.sz (cmpOf x) lane))

/-- The lanes act in order on the owned lines; the old values (R90). -/
def atomL1Lanes (g : Grp) (f : MWord) (x : W64) (k : Group) (as : List (Nat × Nat × Nat × W64)) (s : State) :
    State × List (Nat × Nat) :=
  let n := szBytes f.sz
  as.foldl (fun (acc : State × List (Nat × Nat)) a =>
    let l := lineNo a.2.2.1
    let o := a.2.2.1 % 128
    let d := ((tfind (acc.1.core g.core).l1 l).map (·.data)).getD 0
    let old := leNat ((List.range n).map fun i => lineByte d (o + i))
    let new := atomNew k f x a.1 old
    let d' := lineOf fun i => if o ≤ i ∧ i < o + n then (nth? new (i - o)).getD 0 else lineByte d i
    (acc.1.modCore g.core fun c => { c with l1 := tput c.l1 l { st := .m, data := d', commons := false } }, acc.2 ++ [(a.1, old)])) (s, [])

/-- Atomics in the L1 data cache: with every line owned, lanes act in order; otherwise the requests for ownership go
out and the instruction has not completed (R90, R92, R320, log entry 15). -/
def atomL1 (g : Grp) (f : MWord) (scalar : Bool) (x : W64) (as : List (Nat × Nat × Nat × W64)) (s : State) (k : Group) : Res :=
  let ls := distinct (as.map fun a => lineNo a.2.2.1)
  if ls.all (ownsLine s g.core) then
    match as.find? fun a => s.poisoned none a.2.2.1 (szBytes f.sz) with
    | some a => .fault 0x0701 a.2.1 0
    | none =>
      let (s1, olds) := atomL1Lanes g f x k as s
      let s2 := demandRead (ls.foldl (fun s l => wakeSpins s g.core l) s1) g.core ls
      .done (s2.modGroup g fun k => putOld k f scalar olds)
  else .stall (ls.foldl (fun s l => if ownsLine s g.core l then s else requestLine s g.core l true false) s)

/-- The requests of a near atomic as the group remembers them, one for each lane in lane order. -/
def nearReqs (f : MWord) (k : Group) (as : List (Nat × Nat × Nat × W64)) : List Req :=
  ((List.range as.length).zip as).map fun (j, a) =>
    { id := k.nextId + j, seq := k.seq, atom := true, pa := BitVec.ofNat 48 a.2.2.1, lane := a.1, dst := if f.data = opZero then none else some f.data
      sz := f.sz, acq := isAcq f.mark f.scope, answer := none }

/-- The requests of a near atomic on their way to the home slices. -/
def nearSends (s : State) (g : Grp) (f : MWord) (x : W64) (k : Group) (as : List (Nat × Nat × Nat × W64)) : List NsReq :=
  ((List.range as.length).zip as).map fun (j, a) =>
    { slot := g.slot, ctx := k.ctx, req := some (k.nextId + j), pa := BitVec.ofNat 48 a.2.2.1, va := va a.2.1
      aop := BitVec.ofNat 8 (aopOf x), sz := f.sz, val := w64 (atomOperand k f.sz (valOf x) a.1)
      cmp := w64 (atomOperand k f.sz (cmpOf x) a.1), epoch := s.epochOf k.ctx a.2.2.2
      attr := BitVec.ofNat 3 (leafAttr a.2.2.2) }

/-- Atomics at the home slice: one request for each lane, in lane order; the old values come with the
acknowledgements (R223, R225, R226). -/
def atomNear (g : Grp) (f : MWord) (x : W64) (as : List (Nat × Nat × Nat × W64)) (s : State) (k : Group) : Res :=
  .done ((s.modCore g.core fun c => { c with nsa := c.nsa ++ nearSends s g f x k as }).setGroup g
    { k with reqs := k.reqs ++ nearReqs f k as, nextId := k.nextId + as.length, seq := k.seq + 1 })

/-- The lanes act in order on the core's larder; the old values (R187). -/
def atomLarderLanes (f : MWord) (x : W64) (k : Group) (as : List (Nat × Nat × Nat × W64)) (c : Core) : Core × List (Nat × Nat) :=
  as.foldl (fun (acc : Core × List (Nat × Nat)) a =>
    let old := larderRead acc.1 a.2.1 (szBytes f.sz)
    (larderWrite acc.1 a.2.1 (atomNew k f x a.1 old), acc.2 ++ [(a.1, old)])) (c, [])

/-- Atomics in the larder, lanes in order (R187). -/
def atomLarder (g : Grp) (f : MWord) (scalar : Bool) (x : W64) (s : State) (k : Group) (act : W32) : Res :=
  let n := szBytes f.sz
  let ls := (memAddrs k act true scalar f).map fun a => larderLane n a.1 a.2
  match lanesRes ls with
  | some r => r
  | none =>
    let as := lanesOk ls
    if as.any fun a => scoreHolds (s.core g.core) a.2.1 n true then .wait else
    match as.find? fun a => larderPoisoned (s.core g.core) a.2.1 n with
    | some a => .fault 0x0701 a.2.1 0
    | none =>
      let (c, olds) := atomLarderLanes f x k as (s.core g.core)
      .done ((s.setCore g.core c).setGroup g (putOld k f scalar olds))

/-- Does the operation send near-store atomics (R223)? -/
def SieveOp.atomic (op : SieveOp) : Bool := op.fn == 5 && bit op.desc 496

/-- An atomic scatter of the group is outstanding: its atomics come first in program order (R72, R225, DEDUCED, log
entry 140). -/
def scatterAhead (s : State) (g : Grp) (k : Group) : Bool :=
  (s.core g.core).sieveQ.any fun o => o.atomic && decide (o.slot = g.slot) && decide (o.ctx = k.ctx) && decide (o.gen = k.gen)

/-- ATOM and SATOM after the fetch. A release waits until the group's stores and requests have been performed (R99,
R307). -/
def atomBody (g : Grp) (f : MWord) (scalar : Bool) (s : State) (k : Group) (act : W32) : Res :=
  let x := f.ext.getD 0
  if isRel f.mark f.scope && (!k.reqs.isEmpty || !(s.sbOf g).isEmpty) then .wait
  else if locOf x = 2 then atomLarder g f scalar x s k act
  else
    let (s1, ls) := lanesAccess s g k .rw (szBytes f.sz) (attrAtom (locOf x)) (memAddrs k act true scalar f)
    match lanesRes ls with
    | some r => r
    | none =>
      let as := lanesOk ls
      -- same-address order with the group's own buffered stores (R302)
      if as.any fun a => (s1.sbOf g).any fun e => decide (e.line = lineNo a.2.2.1) then .wait
      else if locOf x = 0 then atomL1 g f scalar x as s1 k
      else if scatterAhead s1 g k then .wait else atomNear g f x as s1 k

/-- ATOM (R91). -/
def execAtom (g : Grp) (f : MWord) (s : State) : Host.Outcome State Fault Refusal :=
  issue (atomIss s g f false) g (atomBody g f false) s
/-- SATOM (R91, R95). -/
def execSatom (g : Grp) (f : MWord) (s : State) : Host.Outcome State Fault Refusal :=
  issue (atomIss s g f true) g (atomBody g f true) s

/-! ## The larder's narrow and row views (R184, R185) -/

def larderIss (s : State) (g : Grp) (f : MWord) (cls : Cls) (row store : Bool) : Iss :=
  { memIss s g f cls store row (if row then [6] else [4]) (if row then [.qd] else [.v]) (!store) store store (dispOk f) with
    direct := store }

/-- In run-ahead a larder load that the scoreboard holds gives an invalid result, and one that faults ends run-ahead
(R69, R189). -/
def larderPf (body : State → Group → W32 → Res) (s : State) (g : Grp) (gg : Group) (act : W32) : State × Ahead :=
  match body (s.setGroup g gg) gg act with
  | .done s1 => ({ s with counters := s1.counters }, match s1.group? g with
    | some k => .value k
    | none => .dropped)
  | .fault _ _ _ => (s, .fault)
  | _ => (s, .dropped)

/-- The cycles beyond the first of a narrow access: one fewer than the distinct entries that the lanes touch in the bank
where they touch most (R174, R184). -/
def laneConflicts (offs : List Nat) : Nat :=
  let entries := distinct (offs.map (· / 256))
  (List.range 32).foldl (fun n b => max n (entries.countP fun e => decide (e / 128 = b))) 0 - 1

/-- LARDER_LANE_CONFLICT counts them (R184). -/
def countConflicts (s : State) (c : Nat) (as : List (Nat × Nat × Nat × W64)) : State :=
  countUp s 0 c 14 (laneConflicts (as.map (·.2.1)))

/-- LLD after the fetch. -/
def lldBody (g : Grp) (f : MWord) (s : State) (k : Group) (act : W32) : Res :=
  let c := s.core g.core
  let ls := (memAddrs k act false false f).map fun a => larderLane 4 a.1 a.2
  match lanesRes ls with
  | some r => r
  | none =>
    let as := lanesOk ls
    if as.any fun a => scoreHolds c a.2.1 4 false then .wait else
    match as.find? fun a => larderPoisoned c a.2.1 4 with
    | some a => .fault 0x0701 a.2.1 0
    | none => .done (countConflicts (s.setGroup g (putLoaded k f.data 4 false (as.map fun a => (a.1, larderRead c a.2.1 4)))) g.core as)

/-- LLD (R184). -/
def execLld (g : Grp) (f : MWord) (s : State) : Host.Outcome State Fault Refusal :=
  .next (issuePf (larderIss s g f .load false false) g (lldBody g f) (larderPf (lldBody g f)) s)

/-- A larder store with a release mark waits until the group's stores and requests have been performed (R100, R307). -/
def larderRel (s : State) (g : Grp) (k : Group) (f : MWord) : Bool :=
  isRel f.mark f.scope && (!k.reqs.isEmpty || !(s.sbOf g).isEmpty)

/-- The larder after a narrow store: lanes in order (R90, R184). -/
def lstLanes (f : MWord) (k : Group) (as : List (Nat × Nat × Nat × W64)) (c : Core) : Core :=
  as.foldl (fun c a => larderWrite c a.2.1 (storeBytes k f false a.1)) c

/-- LST (R184, R188). -/
def execLst (g : Grp) (f : MWord) (s : State) : Host.Outcome State Fault Refusal :=
  issue (larderIss s g f .store false true) g
    (fun s k act =>
      let ls := (memAddrs k act false false f).map fun a => larderLane 4 a.1 a.2
      match lanesRes ls with
      | some r => r
      | none =>
        let as := lanesOk ls
        if larderRel s g k f || as.any fun a => scoreHolds (s.core g.core) a.2.1 4 true then .wait
        else .done (countConflicts (s.setCore g.core (lstLanes f k as (s.core g.core))) g.core as)) s

/-- The row view's address: a multiple of 512, one 512-byte row (R89, R185). -/
def rowLane (k : Group) (f : MWord) : Lane := larderLane 512 0 (effAddr k false f 0)

/-- The quad registers of a row load: 16 bytes of the row for each lane (R185). -/
def putRow (c : Core) (k : Group) (f : MWord) (o : Nat) : Group :=
  (List.range 4).foldl (fun k j =>
    k.putV (f.data.toNat + j) allOnes32 fun i => w32 (larderRead c (o + 16 * i + 4 * j) 4)) k

/-- The 512 bytes of a row store. -/
def rowBytes (k : Group) (f : MWord) : List Byte :=
  (List.range 32).flatMap fun i => (List.range 4).flatMap fun j => vecBytes (laneOf (k.v (f.data.toNat + j)) i)

/-- LLD.R after the fetch: all 32 lanes of the quad (R185). -/
def lldRBody (g : Grp) (f : MWord) (s : State) (k : Group) (_ : W32) : Res :=
  let c := s.core g.core
  match rowLane k f with
  | .bad r => r
  | .ok _ o _ _ =>
    if scoreHolds c o 512 false then .wait
    else if larderPoisoned c o 512 then .fault 0x0701 o 0
    else .done (s.setGroup g (putRow c k f o))

/-- LLD.R (R185). -/
def execLldR (g : Grp) (f : MWord) (s : State) : Host.Outcome State Fault Refusal :=
  .next (issuePf (larderIss s g f .load true false) g (lldRBody g f) (larderPf (lldRBody g f)) s)

/-- LST.R: all 32 lanes (R185). -/
def execLstR (g : Grp) (f : MWord) (s : State) : Host.Outcome State Fault Refusal :=
  issue (larderIss s g f .store true true) g
    (fun s k _ => match rowLane k f with
      | .bad r => r
      | .ok _ o _ _ =>
        if larderRel s g k f || scoreHolds (s.core g.core) o 512 true then .wait
        else .done (s.setCore g.core (larderWrite (s.core g.core) o (rowBytes k f)))) s

end Sys2Proof.Machine
end

