-- ==== Sys2Proof/Machine/Control.lean ====
section
/-! DEFINITION. Classes T, C and Y: tally instructions, branches, EXIT, YIELD, SPIN, BAR.G, the three fences, BRK, and
an illegal word (R54, R55, R61, R62, R64, R83, R96, R101, R112 to R115, R308, R310, R337 to R344). -/

namespace Sys2Proof.Machine

/-! ## Tally instructions -/

def tlyMark (m : BitVec 9) : BitVec 2 := m.extractLsb' 7 2
def tlyScope (m : BitVec 9) : BitVec 2 := m.extractLsb' 5 2
def tlyCmp (m : BitVec 9) : Bool := m.getLsbD 4
def tlyRcv (m : BitVec 9) : Nat := bits m 3 2

/-- What issue needs of a tally instruction: it issues alone (R72), MOD as R112. -/
def tlyIss (s : State) (g : Grp) (f : RWord) (bs cs ds : List Kind) (acq rel watch : Bool) (dregs : Nat) : Iss :=
  let n := s.vregsOf g
  let x := f.ext.isSome
  { ext := f.ext, gp := f.gp, gn := f.gn, cls := .ender, access := true, alone := true, direct := true
    reads := regsOf f.a 1 ++ regsOf f.b 1 ++ regsOf f.c 1 ++ [0x140 + f.gp.toNat], writes := regsOf f.dst dregs
    bad := illegalUnless (accepts n x [.s] f.a && accepts n x bs f.b && accepts n x cs f.c && accepts n x ds f.dst &&
      markOk acq rel (tlyMark f.mod) (tlyScope f.mod) && decide (bits f.mod 1 0 = 0) && (watch || decide (bits f.mod 4 2 = 0))) }

/-- The tally of SRC_A, or the fault: TALLY_HANDLE with SRC_A in AUXILIARY; a dead tally slice rejects the request
(R112, R116, R447). -/
def withTally (s : State) (k : Group) (f : RWord) (body : Nat → Res) : Res :=
  let h := k.opS f.ext f.a
  if s.deadEps.contains (.tallySlice (hallOfTally (h.toNat / 32768))) then .fault 0x0714 k.pc.toNat 0 else
  match s.tallyOf k.ctx h.toNat with
  | none => .fault 0x0601 k.pc.toNat h
  | some n => body n

/-- A release waits until the group's stores and requests have been performed (R99, R307). -/
def tlyHold (s : State) (g : Grp) (k : Group) (f : RWord) : Bool :=
  isRel (tlyMark f.mod) (tlyScope f.mod) && (!k.reqs.isEmpty || !(s.sbOf g).isEmpty)

/-- TLY.ADD, TLY.SUB and TLY.SETMAX: DST receives the value before (*Tables 4-17 and 12-4*). -/
def tlyArith (op : TallyOp) (g : Grp) (f : RWord) (s : State) : Host.Outcome State Fault Refusal :=
  issue (tlyIss s g f [.s, .x] [.z] [.s, .z] true true false 1) g
    (fun s k _ => if tlyHold s g k f then .wait else
      withTally s k f fun n =>
        .done ((tallyApply s n op (k.opS f.ext f.b).toNat).modGroup g fun k => k.putS f.dst (w64 (s.tally n).value))) s

/-- TLY.ADD. -/
def execTlyAdd (g : Grp) (f : RWord) (s : State) : Host.Outcome State Fault Refusal := tlyArith .add g f s
/-- TLY.SUB. -/
def execTlySub (g : Grp) (f : RWord) (s : State) : Host.Outcome State Fault Refusal := tlyArith .sub g f s
/-- TLY.SETMAX. -/
def execTlySetmax (g : Grp) (f : RWord) (s : State) : Host.Outcome State Fault Refusal := tlyArith .setmax g f s

/-- TLY.READ: the value in DST, the flags word in the next scalar; DST is one of s0 to s62 (R85, *Table 4-17*). -/
def execTlyRead (g : Grp) (f : RWord) (s : State) : Host.Outcome State Fault Refusal :=
  let x := tlyIss s g f [.z] [.z] [.s] true false false 2
  issue { x with bad := if f.dst = 0x13F then some 0x0504 else x.bad } g
    (fun s k _ => withTally s k f fun n =>
      .done (s.setGroup g ((k.putS f.dst (w64 (s.tally n).value)).putS (f.dst + 1) (w64 (s.tallyFlags n k.ctx))))) s

/-- DST of TLY.WATCH: the status in [63:48], the handle in [31:0]. -/
def watchWord (status : W16) (h : Nat) : W64 := w64 (status.toNat * 2 ^ 48 + h)

/-- TLY.WATCH (R341, R342): the receiver is checked before the watch is taken. With RCV 00 the path waits, unless the
registration fails or fires at once. -/
def execTlyWatch (g : Grp) (f : RWord) (s : State) : Host.Outcome State Fault Refusal :=
  let rcv := tlyRcv f.mod
  issue (tlyIss s g f [.s, .x] (if rcv = 1 ∨ rcv = 3 then [.s] else [.z]) [.s, .z] true false true 1) g
    (fun s k _ => withTally s k f fun n =>
      let t := (k.opS f.ext f.b).toNat
      let arg := k.opS none f.c
      let put := fun (s : State) (w : W64) => Res.done (s.modGroup g fun k => k.putS f.dst w)
      let reg := fun (r : Receiver) (a : W32) => register s n k.ctx t (tlyCmp f.mod) r a
      match rcv with
      | 0 =>
        match reg (.path k.station k.inst k.index) 0 with
        | (s1, none) => put s1 (watchWord 0x0602 0)
        | (s1, some w) =>
          match (s1.watch w).bell with
          | some b => put (freeWatch s1 w) (watchWord b.status 0)
          | none => .jump (s1.modGroup g fun k =>
              branchTo k ((k.activePath.map (·.mask)).getD 0) (fun _ => (nextPc k f.ext, .watch w f.dst)) (nextPc k f.ext) (nextPc k f.ext))
      | 1 =>
        match s.notifyQueue k.ctx arg.toNat with
        | none => put s (watchWord 0x0608 0)
        | some q => match reg (.queue q) (arg.setWidth 32) with
          | (s1, none) => put s1 (watchWord 0x0602 0)
          | (s1, some w) => put s1 (watchWord 0 (watchHandle w (s1.watch w).tag))
      | 2 => match reg .steward 0 with
        | (s1, none) => put s1 (watchWord 0x0602 0)
        | (s1, some w) => put s1 (watchWord 0 (watchHandle w (s1.watch w).tag))
      | _ => match reg .partner (arg.setWidth 32) with
        | (s1, none) => put s1 (watchWord 0x0602 0)
        | (s1, some w) => put s1 (watchWord 0 (watchHandle w (s1.watch w).tag))) s

/-- Does a handle name a pending watch that a context may cancel (R342, R344)? -/
def cancellable (s : State) (ctx h : Nat) : Bool :=
  let x := s.watch (h / 65536)
  decide (h < 2 ^ 32) && x.alloc && decide (x.tag = h % 65536) && decide (x.ctx = ctx) && x.bell.isNone &&
  (match x.rcv with
   | .path _ _ _ => false
   | _ => true)

/-- TLY.CANCEL: the watch fires with 0x0605 and DST reads 0x0000, or 0x0606 (R344). -/
def execTlyCancel (g : Grp) (f : RWord) (s : State) : Host.Outcome State Fault Refusal :=
  issue (tlyIss s g f [.z] [.z] [.s, .z] false false false 1) g
    (fun s k _ =>
      let h := (k.opS f.ext f.a).toNat
      if cancellable s k.ctx h then .done ((fire s (h / 65536) 0x0605).modGroup g fun k => k.putS f.dst 0)
      else .done (s.setGroup g (k.putS f.dst (watchWord 0x0606 0)))) s

/-! ## Branches (R113, R114) -/

/-- The absolute address in an extension word is well formed (*Table 4-6*). -/
def extAddrOk (x : W64) : Bool := decide (bits x 63 56 = 0) && decide (bits x 2 0 = 0)

/-- The target of BRA and CALL. -/
def bTarget (k : Group) (f : BWord) : VAddr :=
  match f.ext with
  | some x => x.setWidth 56
  | none => k.pc + (f.tgt.signExtend 56) <<< 3

/-- What issue needs of a format-B instruction. -/
def bIss (f : BWord) (writes : List Nat) (ok : Bool) : Iss :=
  { ext := f.ext, gp := f.gp, gn := f.gn, cls := .alu, access := false, alone := false, reads := [0x140 + f.gp.toNat],
    writes := writes
    bad := illegalUnless (decide (f.hi = 0) && decide (f.lo = 0) && (match f.ext with
      | some x => extAddrOk x && decide (f.tgt = 0)
      | none => true) && ok) }

/-- The reconvergence address of BRA: RCV words from the branch (R114). -/
def braReconv (k : Group) (f : BWord) : VAddr := k.pc + (f.rcv.signExtend 56) <<< 3

/-- A backward branch after 96 opportunities as the active path, with another path runnable: the manager switches away
first (R59 case 4). A target is backward at or below the branch's own address. -/
def backTurn (k : Group) (targets : List VAddr) : Bool :=
  decide (96 ≤ k.opp) && otherRunnable k && targets.any fun t => decide (t ≤ k.pc)

/-- The branch does not issue in this opportunity, and waits for the switch (R59). -/
def backStall (s : State) (g : Grp) (k : Group) : Res := .jump (s.setGroup g (loseTurn .backward k))

/-- BRA: a divergent branch with RCV 0 is illegal before the path splits (R114). -/
def execBra (g : Grp) (f : BWord) (s : State) : Host.Outcome State Fault Refusal :=
  issue (bIss f [] true) g
    (fun s k act =>
      let t := bTarget k f
      let n := nextPc k f.ext
      if backTurn k [t] then backStall s g k else
      if diverges k act (fun _ => t) n && decide (f.rcv = 0) then .fault 0x0504 k.pc.toNat 0
      else .jump (s.setGroup g (branchTo k act (fun _ => (t, .run)) n (braReconv k f)))) s

/-- A link or target pair holds a 56-bit address: the low 32 bits, then the high 24 (R113). -/
def linkPair (pc : VAddr) : W64 := pc.setWidth 64

/-- CALL: the link of each active lane is the next instruction, which is also the reconvergence address. -/
def execCall (g : Grp) (f : BWord) (s : State) : Host.Outcome State Fault Refusal :=
  let link := f.rcv.extractLsb' 13 9
  issue (bIss f (regsOf link 2) (accepts (s.vregsOf g) false [.pr] link && decide (bits f.rcv 12 0 = 0))) g
    (fun s k act =>
      let n := nextPc k f.ext
      if backTurn k [bTarget k f] then backStall s g k else
      let k1 := k.putPair link act fun _ => linkPair n
      .jump (s.setGroup g (branchTo k1 act (fun _ => (bTarget k f, .run)) n n))) s

/-- What issue needs of an indirect branch: its extension word is required for BRX and RET, absent for CALLX (R83). -/
def xIss (s : State) (g : Grp) (f : RWord) (as ds : List Kind) (must : Bool) : Iss :=
  let v := s.vregsOf g
  { ext := f.ext, gp := f.gp, gn := f.gn, cls := .alu, access := false, alone := false
    reads := regsOf f.a 2 ++ [0x140 + f.gp.toNat], writes := regsOf f.dst 2
    bad := if f.ext.isSome != must then some 0x0503 else
      illegalUnless (accepts v false as f.a && decide (f.b = opZero) && decide (f.c = opZero) && accepts v false ds f.dst &&
        decide (f.mod = 0) && (match f.ext with
          | some x => extAddrOk x
          | none => true)) }

/-- The target of lane `i`: a scalar, or a pair (R114). -/
def xTarget (k : Group) (f : RWord) (i : Nat) : Nat :=
  if f.a.toNat < 0x100 then (k.opPair f.a i).toNat else (k.opS none f.a).toNat

/-- The fault of a target: bits [31:24] of the second register, alignment, range (R114, R116). -/
def targetFault (k : Group) (f : RWord) (i : Nat) : Option Res :=
  let t := xTarget k f i
  if f.a.toNat < 0x100 && decide (2 ^ 56 ≤ t) then some (.fault 0x0504 k.pc.toNat 0)
  else if t % 8 ≠ 0 then some (.fault 0x0403 t 0)
  else if 2 ^ 56 ≤ t then some (.fault 0x0401 t 0) else none

/-- Branch to the targets of SRC_A after the link, if any, has been written. -/
def xBranch (g : Grp) (f : RWord) (reconv : VAddr) (link : Bool) (s : State) (k : Group) (act : W32) : Res :=
  match (maskList act).findSome? (targetFault k f) with
  | some r => r
  | none =>
    if backTurn k ((maskList act).map fun i => va (xTarget k f i)) then backStall s g k else
    let n := nextPc k f.ext
    let k1 := if link then k.putPair f.dst act fun _ => linkPair n else k
    .jump (s.setGroup g (branchTo k1 act (fun i => (va (xTarget k f i), .run)) n reconv))

/-- BRX. -/
def execBrx (g : Grp) (f : RWord) (s : State) : Host.Outcome State Fault Refusal :=
  issue (xIss s g f [.s, .pr] [.z] true) g (fun s k act => xBranch g f ((f.ext.getD 0).setWidth 56) false s k act) s
/-- CALLX: its link goes to the DST pair. -/
def execCallx (g : Grp) (f : RWord) (s : State) : Host.Outcome State Fault Refusal :=
  issue (xIss s g f [.s, .pr] [.pr] false) g (fun s k act => xBranch g f (nextPc k f.ext) true s k act) s
/-- RET. -/
def execRet (g : Grp) (f : RWord) (s : State) : Host.Outcome State Fault Refusal :=
  issue (xIss s g f [.pr] [.z] true) g (fun s k act => xBranch g f ((f.ext.getD 0).setWidth 56) false s k act) s

/-! ## EXIT, YIELD, SPIN, BAR.G -/

/-- What issue needs of a system or wait instruction without an extension word. -/
def sysIss (s : State) (g : Grp) (f : RWord) (as bs : List Kind) (cls : Cls) (access modOk : Bool) : Iss :=
  let v := s.vregsOf g
  { ext := f.ext, gp := f.gp, gn := f.gn, cls := cls, access := access, alone := false
    reads := regsOf f.a 1 ++ regsOf f.b 1 ++ [0x140 + f.gp.toNat], writes := []
    bad := if f.ext.isSome then some 0x0503 else
      illegalUnless (accepts v false as f.a && accepts v false bs f.b && decide (f.c = opZero) && decide (f.dst = opZero) && modOk) }

/-- Mill and sieve operations of a slot that have not completed. -/
def State.unitOps (s : State) (g : Grp) : Bool :=
  (s.core g.core).millQ.any (fun o => decide (o.slot = g.slot)) || (s.core g.core).sieveQ.any fun o => decide (o.slot = g.slot)

/-- Everything the group has sent has been answered and performed. -/
def State.quiet (s : State) (g : Grp) (k : Group) : Bool :=
  k.loads.isEmpty && k.reqs.isEmpty && (s.sbOf g).isEmpty && !s.unitOps g

/-- EXIT: the active lanes end (R54). The last threads of a group end only when its loads, stores, requests and unit
operations have completed; then the group leaves its slot (log entry 16). -/
def execExitOp (g : Grp) (f : RWord) (s : State) : Host.Outcome State Fault Refusal :=
  issue (sysIss s g f [.z] [.z] .ender false (decide (f.mod = 0))) g
    (fun s k act =>
      let k1 := endThreads (useTurn k) act
      if k1.live = 0 then (if s.quiet g k then .jump (s.dropGroup g) else .wait)
      else match k.active.bind k1.path? with
        | some p => .jump (s.setGroup g (setPc k1 (k.active.getD 0) (p.pc + va (instrLen f.ext))))
        | none => .jump (s.setGroup g (if k1.active.isSome then k1 else switchPath k1))) s

/-- YIELD: the path goes on to the next instruction and its turn ends when another path is runnable (R61). -/
def execYield (g : Grp) (f : RWord) (s : State) : Host.Outcome State Fault Refusal :=
  issue (sysIss s g f [.z] [.z] .alu false (decide (f.mod = 0))) g
    (fun s k _ =>
      let k1 := goOn k (nextPc k f.ext)
      .jump (s.setGroup g (if otherRunnable k1 && decide (k1.active = k.active) then switchPath { k1 with active := none } else k1))) s

/-- The attribute SPIN accepts: any but device (R115). -/
def attrSpin (leaf : W64) (_ : Nat) : Bool := decide (leafAttr leaf ≠ 4)

/-- The word SPIN reads: forwarded bytes, else the core's own line, else the home's (R115, R305). -/
def spinWord (s : State) (g : Grp) (k : Group) (v pa : Nat) (leaf : W64) : Nat :=
  leNat ((List.range 4).map fun i => (forwarded s g k (0, v, pa, leaf) (pa + i)).getD
    (s.coreByte g.core (s.epochOf k.ctx leaf) (cacheable s pa leaf) (pa + i)))

/-- The active path waits at SPIN for its word's line, and the manager switches (R59, R62). -/
def spinWait (k : Group) (pa : Nat) : Group :=
  match k.active.bind k.path? with
  | some p => switchPath { useTurn k with
      stack := tput (useTurn k).stack (k.active.getD 0) { p with kind := .spin (some (lineNo pa)), wait := 0, turn := .go }, active := none }
  | none => k

/-- SPIN reads its word as a load does: a line that an L1 cache may hold is asked for first, so that a write or an
invalidation reaches it. The path waits while the word equals the comparand (R62, R115). -/
def execSpin (g : Grp) (f : RWord) (s : State) : Host.Outcome State Fault Refusal :=
  issue (sysIss s g f [.s] [.s] .ender true (decide (f.mod = 0))) g
    (fun s k _ =>
      let v := (k.opS none f.a).toNat
      match laneAccess s g k .r 4 attrSpin 0 v with
      | (_, .bad r) => r
      | (s1, .ok _ _ pa leaf) =>
        if sameLine k [(0, v, pa, leaf)] || k.loads.any (fun l => readsSame l [(0, v, pa, leaf)] 4) || k.incomplete k.ordSeq then .wait
        else if (loadPoison s1 g k [(0, v, pa, leaf)] 4).isSome then poisonRes s1 (leafCommons leaf) pa v
        else if (loadMissing s1 g k [(0, v, pa, leaf)] 4).isEmpty = false then
          .stall ((loadMissing s1 g k [(0, v, pa, leaf)] 4).foldl (fun s l => requestLine s g.core l.1 false l.2) s1)
        else match readHomes s1 g.core (homeLanes s1 (fun a pa => (forwarded s1 g k a pa).isSome) [(0, v, pa, leaf)] 4) 4 with
          | (s2, false) => .stall s2
          | (s2, true) =>
            if spinWord s1 g k v pa leaf = bits (k.opS none f.b) 31 0 then .jump (s2.setGroup g (spinWait k pa))
            else .done s2) s

/-- BAR.G: the active lanes arrive and wait; the others go on, reconverging at the next instruction (R64, R96). -/
def execBarG (g : Grp) (f : RWord) (s : State) : Host.Outcome State Fault Refusal :=
  let id := bits f.mod 2 0
  issue (sysIss s g f [.z] [.z] .ender false (decide (bits f.mod 8 3 = 0))) g
    (fun s k act =>
      let n := nextPc k f.ext
      .jump (s.setGroup g (releaseBar (branchTo (arrive k (islandCycles s g.core) id act) act (fun _ => (n, .barrier id)) n n) id))) s

/-! ## Fences (R101, R308, R310) -/

def fenceScope (f : RWord) : Nat := bits f.mod 6 5
def fenceModOk (f : RWord) : Bool := decide (bits f.mod 8 7 = 0) && decide (bits f.mod 4 0 = 0)

/-- The fence completes: later loads wait for the values of earlier ones, later stores drain after earlier ones. -/
def fencePass (g : Grp) (s : State) (k : Group) : Res := .done (s.setGroup g { k with ordSeq := k.seq })

def fenceIssue (hold : State → Group → Bool) (g : Grp) (f : RWord) (s : State) : Host.Outcome State Fault Refusal :=
  issue (sysIss s g f [.z] [.z] .ender true (fenceModOk f)) g
    (fun s k _ =>
      if s.unitOps g then .wait
      else if fenceScope f = 0 then .done s
      else if hold s k then .wait else fencePass g s k) s

/-- FENCE.ORD waits for nothing further. -/
def execFenceOrd (g : Grp) (f : RWord) (s : State) : Host.Outcome State Fault Refusal := fenceIssue (fun _ _ => false) g f s
/-- FENCE.SEQ waits until every earlier store and atomic has been performed. -/
def execFenceSeq (g : Grp) (f : RWord) (s : State) : Host.Outcome State Fault Refusal :=
  fenceIssue (fun s _ => !(s.sbOf g).isEmpty || (s.core g.core).nsa.any fun r => decide (r.slot = g.slot)) g f s
/-- FENCE.DONE also waits for every acknowledgement the group has outstanding. -/
def execFenceDone (g : Grp) (f : RWord) (s : State) : Host.Outcome State Fault Refusal :=
  fenceIssue (fun s k => !(s.sbOf g).isEmpty || !k.reqs.isEmpty) g f s

/-- BRK parks the group with reason DEBUG: it completes, and the group is in debug mode from then on (log entry 17). -/
def execBrk (g : Grp) (f : RWord) (s : State) : Host.Outcome State Fault Refusal :=
  issue (sysIss s g f [.z] [.z] .ender false (decide (f.mod = 0))) g
    (fun s k _ => .jump (s.setGroup g (beginPark { goOn k (nextPc k f.ext) with debug := true } 7 0 0 0))) s

/-- A word that no instruction has raises ILLEGAL_OPCODE (R83); a word that is an instruction's raises nothing here. -/
def execIllegalOpcode (g : Grp) (w : W64) (x : Option W64) (s : State) : Host.Outcome State Fault Refusal :=
  match decodeCore g w x with
  | some _ => .next s
  | none => issue { ext := x, gp := 0, gn := false, cls := .ender, access := false, alone := false, reads := [],
                    writes := [], bad := some 0x0503 } g (fun _ _ _ => .wait) s

end Sys2Proof.Machine
end

