-- ==== Sys2Proof/Machine/CoreEvents.lean ====
section
/-! DEFINITION. Events at a core: path switches, spin timeouts, the barrier watchdog, miss notices and run-ahead, the
arrival of load data, parks and bells, the drain of the store buffer and its acknowledgements (R59, R62, R66 to R77,
R242, R306, R312). -/

namespace Sys2Proof.Machine

/-- Change a group that runs; every other state is left alone. -/
def onRunning (s : State) (g : Grp) (f : Group → Group) : Host.Outcome State Fault Refusal :=
  match s.group? g with
  | some k => if k.mode = .running then .next (s.setGroup g (f k)) else .next s
  | none => .next s

/-- The active path gives way (R59 cases 3 to 5): it could not issue in its last opportunity and another runnable path
can; it stands at a backward branch after 96 opportunities; or its 128 opportunities are used. -/
def mustSwitch (k : Group) : Bool :=
  decide (128 ≤ k.opp) || (match (k.activePath.map (·.turn)).getD .go with
    | .backward => true
    | .stalled _ => otherReady k
    | .go => false)

/-- PATH_SWITCH (R59): the entry named becomes the active one; it is the runnable path with the largest wait count, and the
lowest of those. -/
def execPathSwitch (g : Grp) (entry : Nat) (s : State) : Host.Outcome State Fault Refusal :=
  onRunning s g fun k =>
    match longestWait (k.stack.filter fun e => decide (k.active ≠ some e.1)) runnable with
    | none => k
    | some (i, p) => if i = entry ∧ mustSwitch k = true then countWaits (activate k i p) else k

/-- SPIN_TIMEOUT: 1,024 core cycles have passed for a spin-waiting path (R62). -/
def execSpinTimeout (g : Grp) (entry : Nat) (s : State) : Host.Outcome State Fault Refusal :=
  onRunning s g fun k => match k.path? entry with
    | some p => if spinWaiting p then pickIfIdle { endRunAhead k with stack := tput k.stack entry { p with kind := .spin none, wait := 0 } } else k
    | none => k

/-- BARRIER_STALL: when the watchdog count of a pending barrier has reached 2^LOG2 the group parks; AUXILIARY holds the
expected set and the arrived threads (R66). -/
def execBarrierStall (g : Grp) (bar : Nat) (s : State) : Host.Outcome State Fault Refusal :=
  match s.group? g with
  | none => .next s
  | some k => match tfind k.bars bar with
    | none => .next s
    | some b =>
      if 2 ^ k.barWdog ≤ b.at (islandCycles s g.core) then .next (s.setGroup g (beginPark k 6 0x0680 0 (k.live ++ b.arrived)))
      else .next s

/-- MISS_NOTICE: the notice of the home slice that the load's line is being fetched from memory arrives (R242); the group
enters run-ahead when the rest of R67 holds. -/
def execMissNotice (g : Grp) (load : Nat) (s : State) : Host.Outcome State Fault Refusal :=
  match s.group? g with
  | none => .next s
  | some k => match k.loads.find? fun l => decide (l.id = load) with
    | none => .next s
    | some l =>
      if l.addrs.any fun a => (s.core g.core).notes.contains (lineNo a.2.2.toNat) then
        .next (enterRunAhead g (s.setGroup g
          { k with loads := k.loads.map fun x => if x.id = load then { x with noticed := true } else x }))
      else .next s

/-- The lanes of a waiting load with the leaf each address has now: the TLB's, else the table's. -/
def arrivalLanes (s : State) (g : Grp) (k : Group) (l : PendingLoad) : List (Nat × Nat × Nat × W64) :=
  let leafFor := fun (v : Nat) => ((s.tlbFind (.core g.core) false k.ctx v).map (·.leaf)).getD
    (match s.walk k.ctx v with
     | .leaf _ _ e => e
     | _ => 0)
  l.addrs.map fun a => (a.1, a.2.1.toNat, a.2.2.toNat, leafFor a.2.1.toNat)

/-- A byte a waiting load has already been forwarded. -/
def PendingLoad.knownByte (l : PendingLoad) (pa : Nat) : Option Byte :=
  (l.known.find? fun c => decide (c.1 = pa)).map (·.2)

/-- The lines a waiting load still lacks. -/
def arrivalMissing (s : State) (g : Grp) (k : Group) (l : PendingLoad) : List (Nat × Bool) :=
  missing s g.core (arrivalLanes s g k l) (fun pa => (l.knownByte pa).isSome) (szBytes l.sz)

/-- The lane of a waiting load that consumes poison, if one does. -/
def arrivalPoison (s : State) (g : Grp) (k : Group) (l : PendingLoad) : Option (Nat × Nat × Nat × W64) :=
  (arrivalLanes s g k l).find? fun a =>
    consumed s (s.epochOf k.ctx a.2.2.2) (fun pa => (l.knownByte pa).isSome) a.2.2.1 (szBytes l.sz)

/-- The group after a waiting load has completed: the values in its destination, run-ahead over when it is the load that
run-ahead waits for (R69, R241). -/
def arrivalDone (s : State) (g : Grp) (k : Group) (l : PendingLoad) : Group :=
  let vals := loadValues s g.core k.ctx (arrivalLanes s g k l) (fun _ => l.knownByte) (szBytes l.sz)
  Group.deliver { k with
      loads := k.loads.filter fun x => decide (x.id ≠ l.id)
      ra := if (k.ra.map (·.load)) = some l.id then none else k.ra } l.seq
    fun x => putLoaded x l.dst l.sz l.scalar vals

/-- An older load of the group that reads a byte of this one is still waiting (R302). -/
def olderSame (k : Group) (l : PendingLoad) : Bool :=
  k.loads.any fun x => decide (x.seq < l.seq) &&
    readsSame x (l.addrs.map fun a => (a.1, a.2.1.toNat, a.2.2.toNat, 0)) (szBytes l.sz)

/-- LOAD_DATA_ARRIVAL: the load completes when every line it needs is at hand and no older load reads its bytes; otherwise
the missing lines are asked for again. Run-ahead ends (R69); poison parks the group (R440). -/
def execLoadDataArrival (g : Grp) (load : Nat) (s : State) : Host.Outcome State Fault Refusal :=
  match s.group? g with
  | none => .next s
  | some k => match k.loads.find? fun l => decide (l.id = load) with
    | none => .next s
    | some l =>
      if (arrivalMissing s g k l).isEmpty = false then
        .next ((arrivalMissing s g k l).foldl (fun s x => requestLine s g.core x.1 false x.2) s)
      else if olderSame k l then .next s
      else match arrivalPoison s g k l with
        | some a =>
          if leafCommons a.2.2.2 = true ∧ s.failedCommons a.2.2.1 = true then .next (s.setGroup g (beginPark k 6 0x0703 a.2.1 0))
          else if leafCommons a.2.2.2 then .next (s.setGroup g (beginPark k 4 0 a.2.1 0))
          else .next (s.setGroup g (beginPark k 6 0x0701 a.2.1 0))
        | none =>
          match readHomes s g.core (homeLanes s (fun _ pa => (l.knownByte pa).isSome) (arrivalLanes s g k l) (szBytes l.sz)) (szBytes l.sz) with
          | (s1, false) => .next s1
          | (s1, true) => .next (s1.modGroup g fun _ => arrivalDone s g k l)

/-- RUN_AHEAD_LIMIT: the instruction limit or the shadow registers are spent (R69). -/
def execRunAheadLimit (g : Grp) (s : State) : Host.Outcome State Fault Refusal :=
  match s.group? g with
  | none => .next s
  | some k => match k.ra with
    | some r => if raSpent r (raLimit s g k) then .next (s.setGroup g (endRunAhead k)) else .next s
    | none => .next s

/-- The record of a group that has stopped (R75, R76): at its replay point, every spin-waiting path woken, the barrier
counts as they stand (R66). -/
def parkRecord (s : State) (g : Grp) (k : Group) (p : ParkReq) : Parked :=
  let k1 := wakeAllSpins { stampBars k.rollback (islandCycles s g.core) with ra := none, units := [], reqs := [], mode := .running }
  { station := k.station, inst := k.inst, index := k.index, reason := p.reason, status := p.status, pc := k1.pc,
    time := s.now, addr := p.addr, core := g.core, aux := p.aux, resume := false, grp := k1 }

/-- A park with reason FAULT loses the context; its loss address is FAULT_ADDR, or AUXILIARY for the faults that have
none (R374, *Table 13-3*). -/
def parkLoss (s : State) (g : Grp) (k : Group) (p : ParkReq) : State :=
  if p.reason = 6 then
    lose s k.ctx p.status g.core (w32 k.station) (if p.status = 0x0410 ∨ p.status = 0x0680 then p.aux else p.addr.setWidth 64)
  else s

/-- The near-store atomics that a slot has sent go on without it: no answer is taken any more (R72, R227). -/
def orphanNear (c : Core) (slot : Nat) : List NsReq := c.nsa.map fun r => if r.slot = slot then { r with req := none } else r

/-- PARK_COMPLETE: the waits of R73 are over; the tentative stores are cancelled (R72), the record is written and the
group leaves its slot. -/
def execParkComplete (g : Grp) (s : State) : Host.Outcome State Fault Refusal :=
  match s.group? g with
  | none => .next s
  | some k => match k.mode with
    | .parking p =>
      let drained := (s.sbOf g).all (tentative k)
      let done := decide (p.reason = 6) || (k.reqs.isEmpty && !s.unitOps g)
      if drained && done then
        let s1 := (s.modCore g.core fun c => { c with
          sb := c.sb.filter fun e => decide (e.slot ≠ g.slot)
          nsa := orphanNear c g.slot }).dropGroup g
        .next (parkLoss { s1 with parked := s1.parked ++ [parkRecord s g k p] } g k p)
      else .next s
    | _ => .next s

/-- A bell reaches a group (R74, R76): the waiting path continues with its status; a group being written or already
stored keeps the bell in FLAGS bit 0. -/
def deliverBell (s : State) (st i ix w : Nat) (status : W16) : State :=
  match s.findGroup st i ix with
  | some (g, k) =>
    let k1 := k.deliver 0 fun x => wakePath x w status
    s.setGroup g (match k.mode with
      | .running | .waitParked => pickIfIdle k1
      | _ => { k1 with bell := true })
  | none => match s.findParked st i ix with
    | some p => { s with parked := s.parked.map fun q => if q = p then { p with grp := { wakePath p.grp w status with bell := true } } else q }
    | none => s

/-- GROUP_WAKE: the bell of a fired watch reaches its waiting path, and the watch returns to the pool (R74, R342,
R343). -/
def execGroupWake (watch : Nat) (s : State) : Host.Outcome State Fault Refusal :=
  let x := s.watch watch
  match x.bell, x.rcv with
  | some b, .path st i ix => if s.firstBell watch then .next (freeWatch (deliverBell s st i ix watch b.status) watch) else .next s
  | _, _ => .next s

/-! ## The store buffer drains (R306, *Table 11-1*) -/

/-- A queue stops with a status, and the Steward says so (R366, R369). -/
def stopQueue (s : State) (qi : Nat) (status : W16) : State :=
  match tfind s.queues qi with
  | none => s
  | some q =>
    if q.stopped.isSome then s else
    notify { s with queues := tput s.queues qi { q with stopped := some status } }
      (noticeOf s 0x8002 q.ctx (((s.ctx? q.ctx).map (·.gen)).getD 0) status (w32 (qi * 2 ^ 18 + q.tag)) 0)

/-- A new tail is announced: TAIL ≤ T ≤ HEAD + N, or the queue stops with 0x0308 (R366). A context that is not ACTIVE has
its doorbell stores discarded (R374, R375). -/
def announceTail (s : State) (qi t : Nat) : State :=
  match tfind s.queues qi with
  | none => s
  | some q =>
    let live := match s.ctx? q.ctx with
      | some c => decide (c.state = .active)
      | none => false
    if q.notify || q.stopped.isSome || !live then s
    else if q.tail ≤ t ∧ t ≤ q.head + 2 ^ q.log2 then { s with queues := tput s.queues qi { q with tail := t } }
    else stopQueue s qi 0x0308

/-- The bytes an entry writes, as runs of one byte. -/
def entryBytes (e : SbEntry) : List Host.Cell :=
  ((List.range 128).filter fun i => e.mask.getLsbD i).map fun i => (128 * e.line + i, lineByte e.data i)

/-- The first address an entry writes. -/
def entryAddr (e : SbEntry) : Nat := 128 * e.line + (((List.range 128).find? fun i => e.mask.getLsbD i).getD 0)

/-- The number in the bytes an entry writes. -/
def entryWord (e : SbEntry) : Nat := leNat ((entryBytes e).map (·.2))

/-- Bytes 0 to the highest written one, in whole words, zeros where nothing was written (R412). -/
def postPayload (e : SbEntry) : List Byte :=
  let top := ((List.range 128).filter fun i => e.mask.getLsbD i).foldl max 0
  (List.range (4 * cdiv (top + 1) 4)).map fun i => if e.mask.getLsbD i then lineByte e.data i else 0

/-- Write an entry's bytes at the home, one run after the other (R323): the slice sees a write of class CORE (R237, R244). -/
def entryWrite (s0 : State) (e : SbEntry) : State :=
  let s := homeWrite s0 .core e.attr.toNat (entryAddr e) (entryBytes e).length
  let s1 := recallLine s e.line
  let s2 := foldCommitted s1 (s1.homeOf (128 * e.line)) e.line
  let full := fun k => (List.range 32).all fun i => e.mask.getLsbD (32 * (k % 4) + i)
  let ks := (List.range 4).map (4 * e.line + ·)
  let m := (entryBytes e).foldl (fun m c => tset 0 m c.1 c.2) s2.mem
  refreshFlight { s2 with mem := m, poison := s2.poison.filter fun k => !(ks.contains k && full k) } e.line

/-- Remove an entry from its store buffer. -/
def dropEntry (s : State) (c i : Nat) : State := s.modCore c fun k => { k with sb := dropNth k.sb i }

/-- The issuing group faults on a store that was refused; the store is not performed (R257, R264). -/
def storeFault (s : State) (c i : Nat) (e : SbEntry) (status : W16) : State :=
  (dropEntry s c i).modGroup { core := c, slot := e.slot } fun k => beginPark k 6 status e.va.toNat 0

/-- An entry performed at its end point whose acknowledgement is still to come: the memory controller's, for memory behind
the home slice (*Table 11-1*). -/
def awaitAck (s : State) (c : Nat) (e : SbEntry) : State :=
  s.modGroup { core := c, slot := e.slot } fun k =>
    { k with reqs := k.reqs ++ [{ id := k.nextId, seq := e.seq, atom := false, pa := BitVec.ofNat 48 (entryAddr e), lane := 0, dst := none, sz := 0, acq := false, answer := some 0 }],
             nextId := k.nextId + 1 }

/-- Perform an entry at its target. -/
def performEntry (s : State) (c i : Nat) (e : SbEntry) : State :=
  let pa := entryAddr e
  if s.homeStatus pa ≠ 0 then storeFault s c i e (s.homeStatus pa) else
  match s.placeOf pa with
  | .egress off =>
    let o := off % 65536
    if o < 0x8000 then queueEvent (dropEntry s c i) (off / 65536) false (o / 128) (postPayload e) else dropEntry s c i
  | .doorbell slot off =>
    match s.queues.find? fun q => decide (q.2.slot = some slot) with
    | some (qi, q) => if off = 0 ∧ e.size = 8 ∧ q.ctx = e.ctx then announceTail (dropEntry s c i) qi (entryWord e) else dropEntry s c i
    | none => dropEntry s c i
  | .epochPage ctx off =>
    let p := s.ctxPart ctx
    { dropEntry s c i with epochQ := tput s.epochQ p ((tget [] s.epochQ p) ++ [{ ctx := ctx, offset := off, size := e.size, word := w64 (entryWord e) }]) }
  | .tallyWindow _ _ | .nothing => dropEntry s c i
  | .bin _ _ | .hbm _ _ | .cellar _ _ _ =>
    match e.epoch with
    | some n =>
      if s.pageCopying pa then s else
      match claimLine s e.line true with
      | (s1, false) => s1
      | (s1, true) =>
        let (s2, st) := poolWriteLine s1 n e.line e.mask e.data
        if st = 0 then dropEntry s2 c i else storeFault s2 c i e st
    | none =>
      let bin := match s.placeOf pa with
        | .bin _ _ => true
        | _ => false
      if bin || s.isHeld pa || decide (e.attr ≠ 0) then
        match claimLine s e.line true with
        | (s1, false) => s1
        | (s1, true) =>
          let s2 := dropEntry (entryWrite s1 e) c i
          if bin || decide (e.attr = 0) then s2 else awaitAck s2 c e
      else
        match tfind (s.core c).l1 e.line with
        | some y =>
          if y.dirtyOwner then
            let d := lineOf fun j => if e.mask.getLsbD j then lineByte e.data j else lineByte y.data j
            wakeSpins (dropEntry (s.modCore c fun k => { k with l1 := tput k.l1 e.line { y with st := .m, data := d } }) c i) c e.line
          else requestLine s c e.line true false
        | none => requestLine s c e.line true false

/-- May an entry drain now (R72, R306, R308)? Its group's older loads have completed, its older entries to the line and
the entries it is ordered after have drained; a device page's entries drain in order. -/
def drainable (s : State) (c i : Nat) (e : SbEntry) : Bool :=
  let earlier := ((s.core c).sb.take i).filter fun x => decide (x.slot = e.slot)
  let g := s.group? { core := c, slot := e.slot }
  (match g with
   | some k => !tentative k e
   | none => true) &&
  !(earlier.any fun x => decide (x.line = e.line) || decide (x.seq < e.after)) &&
  !(s.onDevice (128 * e.line) && !earlier.isEmpty)

/-- STORE_DRAIN (R306). A write-back line that the core does not own is asked for, and a line that caches hold is taken back
by its home for a write there; the entry stays until then. -/
def execStoreDrain (core entry : Nat) (s : State) : Host.Outcome State Fault Refusal :=
  match nth? (s.core core).sb entry with
  | none => .next s
  | some e => if drainable s core entry e then .next (performEntry s core entry e) else .next s

/-- The old value of an atomic goes to its lane of the destination (R226). -/
def putAnswer (k : Group) (r : Req) (v : W64) : Group :=
  match r.dst with
  | some d => if d.toNat < 0x100 then putLoaded k d r.sz false [(r.lane, v.toNat)] else putLoaded k d r.sz true [(0, v.toNat)]
  | none => k

/-- The end point of a write in memory: the HBM channel group or the cellar device (R313). -/
def State.memEnd (s : State) (pa : Nat) : Option EndPoint :=
  match s.placeOf pa with
  | .hbm g _ => some (.hbmGroup g)
  | .cellar _ die dev => some (.cellarDevice die dev)
  | _ => none

/-- An earlier write of the group to the same end point has not completed: writes sent to one end point complete in the
order in which they were sent (R306). -/
def ackWaits (s : State) (k : Group) (r : Req) : Bool :=
  k.reqs.any fun x => decide (x.id < r.id) && !x.atom && !r.atom && decide (s.memEnd x.pa.toNat = s.memEnd r.pa.toNat)

/-- An answer to a request that was discarded is dropped and counted in LATE_ACK (R312). -/
def lateAck (s : State) (g : Grp) (req : Nat) : State :=
  if (s.core g.core).late.contains (g.slot, req) then
    countUp (s.modCore g.core fun c => { c with late := c.late.erase (g.slot, req) }) 0 g.core 16 1
  else s

/-- WRITE_ACK: an acknowledgement, with the old value of an atomic that has been applied (R226, R310). -/
def execWriteAck (g : Grp) (req : Nat) (s : State) : Host.Outcome State Fault Refusal :=
  match s.group? g with
  | none => .next (lateAck s g req)
  | some k => match k.reqs.find? fun r => decide (r.id = req) with
    | none => .next (lateAck s g req)
    | some r => match r.answer with
      | none => .next s
      | some v =>
        if ackWaits s k r then .next s else
        .next (s.setGroup g (Group.deliver { k with reqs := k.reqs.filter fun x => decide (x.id ≠ req) } r.seq
          fun x => putAnswer x r v))

/-- What a group has sent and may wait for in vain (R312): a request, a load, or an entry of its store buffer. -/
def reqTarget (s : State) (g : Grp) (k : Group) (w : Awaited) : Option PAddr :=
  match w with
  | .request id => (k.reqs.find? fun r => decide (r.id = id)).map fun r => r.pa
  | .load id => (k.loads.find? fun l => decide (l.id = id)).bind fun l => l.addrs.head?.map fun a => a.2.2
  | .store i => ((s.sbOf g)[i]?).map fun e => BitVec.ofNat 48 (entryAddr e)

/-- The answer to a discarded request is late when it comes (R312). -/
def lateOf (g : Grp) (w : Awaited) : List (Nat × Nat) :=
  match w with
  | .request id | .load id => [(g.slot, id)]
  | .store _ => []

/-- Discard what a group waits for: a store leaves the store buffer unperformed (R312). -/
def discard (s : State) (g : Grp) (k : Group) (w : Awaited) : State :=
  s.modCore g.core fun c => { c with
    late := c.late ++ lateOf g w
    nsa := match w with
      | .request id => c.nsa.map fun r => if r.slot = g.slot ∧ r.req = some id then { r with req := none } else r
      | _ => c.nsa
    sb := match w with
      | .store i => match (s.sbOf g)[i]? with
        | some e => c.sb.erase e
        | none => c.sb
      | _ => c.sb }

/-- FENCE_ENDPOINT_LOST: no answer came within TIMEOUT_US. The request is discarded and the group parks with 0x0410 and
the target's physical address (R312). -/
def execFenceEndpointLost (g : Grp) (w : Awaited) (s : State) : Host.Outcome State Fault Refusal :=
  match s.group? g with
  | none => .next s
  | some k =>
    match reqTarget s g k w with
    | none => .next s
    | some pa =>
      let k1 := match w with
        | .request id => { k with reqs := k.reqs.filter fun r => decide (r.id ≠ id) }
        | _ => k
      .next ((discard s g k w).setGroup g (beginPark k1 6 0x0410 0 (pa.setWidth 64)))

end Sys2Proof.Machine
end

