-- ==== Sys2Proof/Machine/Units.lean ====
section
/-! DEFINITION. What the mill, the sieve and the DMA engines share: tile descriptors, reading and writing through
translation or in a larder, the scoreboard, and the acceptance and the end of an operation (R34, R35, R109, R110, R135,
R192 to R198, R205, R440). -/

namespace Sys2Proof.Machine

/-! ## Tile descriptors (*Tables 2-6 and 2-7*) -/

structure Tile where
  fmt : Nat
  larder : Bool
  colMajor : Bool
  rows : Nat
  cols : Nat
  base : Nat
  stride : Nat
  sbase : Nat
  sstride : Nat
  cert : Nat
  deriving DecidableEq, Repr

def Tile.ofWord (d : BitVec 512) : Tile :=
  { fmt := bits d 503 496, larder := decide (bits d 495 488 = 1), colMajor := bit d 481, rows := bits d 479 464,
    cols := bits d 463 448, base := bits d 439 384, stride := bits d 383 352, sbase := bits d 343 288,
    sstride := bits d 287 272, cert := bits d 255 200 }

/-- Bits per element of a format code; 0 for a code that *Table 2-7* does not list. -/
def fmtBits : Nat → Nat
  | 0x01 | 0x02 | 0x03 | 0x04 | 0x10 => 8
  | 0x05 | 0x06 => 6
  | 0x07 | 0x08 | 0x11 => 4
  | 0x20 | 0x21 => 16
  | 0x22 | 0x30 => 32
  | 0x23 | 0x31 => 64
  | _ => 0

/-- Formats with block scales. -/
def isMx (fmt : Nat) : Bool := decide (3 ≤ fmt) && decide (fmt ≤ 7)

/-- Rows in memory: the columns of a column-major tile. -/
def Tile.lines (t : Tile) : Nat := if t.colMajor then t.cols else t.rows
def Tile.perLine (t : Tile) : Nat := if t.colMajor then t.rows else t.cols
/-- Packed bytes of one row in memory. -/
def Tile.lineBytes (t : Tile) : Nat := cdiv (t.perLine * fmtBits t.fmt) 8
/-- One past the last byte of the elements. -/
def Tile.stop (t : Tile) : Nat := t.base + (t.lines - 1) * t.stride + t.lineBytes
def Tile.scaleStop (t : Tile) : Nat := t.sbase + (t.lines - 1) * t.sstride + t.perLine / 32
/-- Bytes of the certificates of the tile (R145, R167). -/
def Tile.certBytes (t : Tile) : Nat := 16 * (cdiv t.rows 32 * cdiv t.cols 32)

/-- R35. A tile in the larder lies below 1 MiB whole, its scales and certificates with it. -/
def tileOk (d : BitVec 512) : Bool :=
  let t := Tile.ofWord d
  decide (bits d 511 504 = 1) && decide (bits d 495 488 ≤ 1) && decide (bits d 487 482 = 0) && !bit d 480 &&
  decide (bits d 447 440 = 0) && decide (bits d 351 344 = 0) && decide (bits d 271 256 = 0) && decide (bits d 199 192 = 0) &&
  decide (bits d 127 0 = 0) && decide (fmtBits t.fmt ≠ 0) && decide (1 ≤ t.rows) && decide (1 ≤ t.cols) &&
  decide (t.base % 16 = 0) && decide (t.stride % 16 = 0) && decide (t.lineBytes ≤ t.stride) &&
  (if isMx t.fmt then decide (t.sbase ≠ 0) && decide (t.cols % 32 = 0) && decide (t.cols / 32 ≤ t.sstride)
   else decide (t.sbase = 0) && decide (t.sstride = 0)) &&
  (!t.larder || (decide (t.stop ≤ 2 ^ 20) && (!isMx t.fmt || decide (t.scaleStop ≤ 2 ^ 20)) &&
    (decide (t.cert = 0) || decide (t.cert + t.certBytes ≤ 2 ^ 20))))

/-- The bytes of an element: address, count, and the bit its value starts at. -/
def Tile.elemAt (t : Tile) (r c : Nat) : Nat × Nat × Nat :=
  let line := if t.colMajor then c else r
  let o := (if t.colMajor then r else c) * fmtBits t.fmt
  (t.base + line * t.stride + o / 8, cdiv (o % 8 + fmtBits t.fmt) 8, o % 8)

/-- The bytes of a part of a tile, row of memory by row of memory. -/
def Tile.spans (t : Tile) (r0 r1 c0 c1 : Nat) : List (Nat × Nat) :=
  let (l0, l1, i0, i1) := if t.colMajor then (c0, c1, r0, r1) else (r0, r1, c0, c1)
  if i1 ≤ i0 then [] else
  (List.range (l1 - l0)).map fun j =>
    let b := t.base + (l0 + j) * t.stride
    (b + i0 * fmtBits t.fmt / 8, cdiv (i1 * fmtBits t.fmt) 8 - i0 * fmtBits t.fmt / 8)

/-- The block scales of a part of a tile (R149). -/
def Tile.scaleSpans (t : Tile) (r0 r1 c0 c1 : Nat) : List (Nat × Nat) :=
  if isMx t.fmt then
    let (l0, l1, i0, i1) := if t.colMajor then (c0, c1, r0, r1) else (r0, r1, c0, c1)
    if i1 ≤ i0 then [] else (List.range (l1 - l0)).map fun j => (t.sbase + (l0 + j) * t.sstride + i0 / 32, cdiv i1 32 - i0 / 32)
  else []

def Tile.allSpans (t : Tile) : List (Nat × Nat) := t.spans 0 t.rows 0 t.cols

/-- Do rows of `n` bytes at a stride hold a byte of [a, b)? -/
def strided (base stride lines n a b : Nat) : Bool :=
  if b ≤ a ∨ n = 0 ∨ lines = 0 ∨ b ≤ base then false
  else
    let j := if stride = 0 then 0 else min (lines - 1) ((b - 1 - base) / stride)
    decide (a < base + j * stride + n)

/-- Do bytes of the spans overlap the elements or scales of a tile (R124, R207)? -/
def Tile.overlaps (t : Tile) (larder : Bool) (ss : List (Nat × Nat)) : Bool :=
  (t.larder == larder) && ss.any fun p => strided t.base t.stride t.lines t.lineBytes p.1 (p.1 + p.2) ||
    (isMx t.fmt && strided t.sbase t.sstride t.lines (t.perLine / 32) p.1 (p.1 + p.2))

/-! ## Reaching bytes -/

/-- What reaching a range comes to. -/
inductive Reach where
  | ok
  | wait
  | fault (status : W16) (at_ : Nat)
  deriving DecidableEq, Repr

/-- A range cut at line boundaries. -/
def pieces (v n : Nat) : List (Nat × Nat) :=
  (linesOf v n).map fun l =>
    let a := max v (128 * l)
    (a, min (v + n) (128 * l + 128) - a)

/-- The requester class of the unit that a structure serves (*Table 9-2*). -/
def classOf : TlbStruct → RClass
  | .core _ | .island _ => .unit
  | .engine _ _ => .dma
  | .folest => .port
  | .hall _ => .walk

/-- A core of the hall die from which a structure's unit sends its requests. -/
def sourceOf : TlbStruct → Nat
  | .core c => c
  | st => 352 * hallOfStruct st

/-- Claim the line of a piece at its home (R323): while a cache owns it, or for a write holds it, the home takes it back and
the unit waits. -/
def claimPiece (s : State) (need : Need) (pa n : Nat) : State × Reach :=
  match claimRange s pa n (decide (need ≠ .r)) with
  | (s1, true) => (s1, .ok)
  | (s1, false) => (s1, .wait)

/-- One piece: translation and permission, no device page, the home's answer, for a read its poison, and the home's claim
(R137, R264, R281, R323, R440). -/
def reachPiece (s : State) (st : TlbStruct) (ctx : Nat) (need : Need) (v n : Nat) : State × Reach :=
  match translate s st false ctx v need with
  | (s1, .fault x) => (s1, .fault x v)
  | (s1, .moving) => (s1, .wait)
  | (s1, .ok pa leaf) =>
    if leafAttr leaf = 4 then (s1, .fault 0x0404 v)
    else if s1.homeStatus pa ≠ 0 then (s1, .fault (s1.homeStatus pa) v)
    else if need ≠ .w ∧ s1.poisoned (s1.epochOf ctx leaf) pa n = true then (s1, if leafCommons leaf then (if s1.failedCommons pa then .fault 0x0703 v else .wait) else .fault 0x0701 v)
    else claimPiece s1 need pa n

/-- Reach pieces in order; the first that is not ok answers, and one that waits lets the next ones be sent for too. -/
def reachPieces (s : State) (st : TlbStruct) (ctx : Nat) (need : Need) (ps : List (Nat × Nat)) : State × Reach :=
  ps.foldl (fun (acc : State × Reach) p => match acc.2 with
    | .fault _ _ => acc
    | r =>
      let (s1, x) := reachPiece acc.1 st ctx need p.1 p.2
      (s1, if r = .ok then x else r)) (s, .ok)

/-- The physical address and leaf of an address that has been reached. -/
def State.peek (s : State) (st : TlbStruct) (ctx v : Nat) : Option (Nat × W64) :=
  match s.tlbFind st false ctx v with
  | some e => some (leafAddr e.level v e.leaf, e.leaf)
  | none => match s.walk ctx v with
    | .leaf level _ e => some (leafAddr level v e, e)
    | _ => none

/-- The home slice sees a unit's access to a piece that has been reached, with the unit's class (R237, *Table 9-4*). A write
in an epoch goes to the pool. -/
def seePiece (st : TlbStruct) (ctx : Nat) (need : Need) (s : State) (p : Nat × Nat) : State :=
  match s.peek st ctx p.1 with
  | some (pa, leaf) =>
    if need = .r then homeRead s (classOf st) (sourceOf st) (leafAttr leaf) pa
    else if (s.epochOf ctx leaf).isSome then s
    else homeWrite s (classOf st) (leafAttr leaf) pa p.2
  | none => s

/-- Reach a list of ranges of context memory. When every piece is ok the home slices see the accesses. -/
def reach (s : State) (st : TlbStruct) (ctx : Nat) (need : Need) (ss : List (Nat × Nat)) : State × Reach :=
  let ps := ss.flatMap fun p => pieces p.1 p.2
  match reachPieces s st ctx need ps with
  | (s1, .ok) => (ps.foldl (seePiece st ctx need) s1, .ok)
  | r => r

/-- Reach ranges of a tile that lies in context memory or in a core's larder. -/
def unitReach (s : State) (c ctx : Nat) (larder : Bool) (need : Need) (ss : List (Nat × Nat)) : State × Reach :=
  if larder then
    (s, if need ≠ .w ∧ (ss.any fun p => larderPoisoned (s.core c) p.1 p.2) = true then .fault 0x0701 0 else .ok)
  else reach s (.core c) ctx need ss

/-- A byte of context memory that has been reached. -/
def State.virtByte (s : State) (st : TlbStruct) (ctx v : Nat) : Byte :=
  match s.peek st ctx v with
  | some (pa, leaf) => s.readByte (s.epochOf ctx leaf) pa
  | none => 0

def State.virtBytes (s : State) (st : TlbStruct) (ctx v n : Nat) : List Byte :=
  (pieces v n).flatMap fun p => match s.peek st ctx p.1 with
    | some (pa, leaf) => s.read (s.epochOf ctx leaf) pa p.2
    | none => zeros p.2

/-- Write bytes of context memory that has been reached; in an epoch the write may be refused (R257). -/
def virtWrite (s : State) (st : TlbStruct) (ctx v : Nat) (bs : List Byte) : State × W16 :=
  (pieces v bs.length).foldl (fun (acc : State × W16) p =>
    if acc.2 ≠ 0 then acc else
    match acc.1.peek st ctx p.1 with
    | some (pa, leaf) => acc.1.unitWrite (acc.1.epochOf ctx leaf) pa (slice bs (p.1 - v) p.2)
    | none => (acc.1, 0x0401)) (s, 0)

/-- Bytes of a tile's space. -/
def unitBytes (s : State) (c ctx : Nat) (larder : Bool) (v n : Nat) : List Byte :=
  if larder then (List.range n).map fun i => tget 0 (s.core c).larder (v + i) else s.virtBytes (.core c) ctx v n

def unitPut (s : State) (c ctx : Nat) (larder : Bool) (v : Nat) (bs : List Byte) : State × W16 :=
  if larder then (s.modCore c fun k => larderWrite k v bs, 0) else virtWrite s (.core c) ctx v bs

/-- The bits of an element. -/
def Tile.elem (t : Tile) (s : State) (c ctx r k : Nat) : Nat :=
  let (a, n, sh) := t.elemAt r k
  leNat (unitBytes s c ctx t.larder a n) / 2 ^ sh % 2 ^ fmtBits t.fmt

/-- Element `i` of a key set or an index list: row by row (R206). -/
def Tile.key (t : Tile) (s : State) (c ctx i : Nat) : Nat := t.elem s c ctx (i / t.cols) (i % t.cols)

/-! ## The scoreboard (R192 to R197) -/

/-- An entry for a range of larder bytes, in whole 64-byte units. -/
def scoreOf (unit : BitVec 2) (slot seq : Nat) (write : Bool) (a b : Nat) : Score :=
  { write := write, unit := unit, slot := BitVec.ofNat 6 slot, start := BitVec.ofNat 14 (a / 64),
    last := BitVec.ofNat 14 ((b - 1) / 64), seq := seq }

/-- Does an access of the operation `seq` wait for an entry of an earlier operation (R195)? -/
def scoreEarlier (k : Core) (seq : Nat) (write : Bool) (ss : List (Nat × Nat)) : Bool :=
  ss.any fun p => k.scores.any fun e => decide (e.seq < seq) && decide (e.start.toNat ≤ (p.1 + p.2 - 1) / 64) &&
    decide (p.1 / 64 ≤ e.last.toNat) && (e.write || write)

/-- Release every entry of an operation (R196). -/
def releaseScores (k : Core) (seq : Nat) : Core := { k with scores := k.scores.filter fun e => decide (e.seq ≠ seq) }

/-- LARDER_MAP of a core (*Table 7-1*, R180): the banks in the mill part of an instance placed on it. -/
def State.larderMap (s : State) (c : Nat) : W32 :=
  maskOf fun b => s.insts.any fun e => decide (e.2.core = some c) && (match tfind s.stations (e.1 / 4096) with
    | some x => decide (e.2.base / 32768 ≤ b) && decide (b < e.2.base / 32768 + x.mill)
    | none => false)

/-- Do ranges of a larder lie in mill banks alone (R190)? -/
def State.inMillBanks (s : State) (c : Nat) (ss : List (Nat × Nat)) : Bool :=
  ss.all fun p => decide (p.2 = 0) ||
    (List.range ((p.1 + p.2 - 1) / 32768 + 1)).all fun b => decide (b < p.1 / 32768) || bit (s.larderMap c) b

/-! ## Acceptance and the end of an operation (R109, R110) -/

/-- Does the group's store buffer hold an entry to bytes of one of the ranges (R135, R205)? Lines are compared by physical
address, since several mappings may name one frame (R247, R364). -/
def sbOverlaps (s : State) (g : Grp) (ctx : Nat) (ss : List (Nat × Nat)) : Bool :=
  let sb := s.sbOf g
  !sb.isEmpty && ss.any fun p => (pieces p.1 p.2).any fun q => match s.peek (.core g.core) ctx q.1 with
    | some (pa, _) => sb.any fun e => decide (e.line = lineNo pa)
    | none => false

/-- Read 64 bytes of a descriptor. An address that cannot be read faults the instruction with the access's own status,
a moving page parks it, as for a load. -/
def readDesc (s : State) (g : Grp) (k : Group) (v : Nat) : State × Sum Res (BitVec 512) :=
  match translate s (.core g.core) false k.ctx v .r with
  | (s1, .fault st) => (s1, .inl (.fault st v 0))
  | (s1, .moving) => (s1, .inl (.park 3 v))
  | (s1, .ok pa leaf) =>
    let e := s1.epochOf k.ctx leaf
    if leafAttr leaf = 4 then (s1, .inl (.fault 0x0404 v 0))
    else if s1.homeStatus pa ≠ 0 then (s1, .inl (.fault (s1.homeStatus pa) v 0))
    else if sbOverlaps s1 g k.ctx [(v, 64)] then (s1, .inl .wait)
    else if s1.poisoned e pa 64 then (s1, .inl (poisonRes s1 (leafCommons leaf) pa v))
    else match claimRange s1 pa 64 false with
      | (s2, false) => (s2, .inl (.stall s2))
      | (s2, true) => (homeRead s2 .unit g.core (leafAttr leaf) pa, .inr (BitVec.ofNat 512 (leNat (s2.read e pa 64))))

/-- Read several descriptors in order; an address that is not a multiple of 64 makes the operation's descriptor
invalid. -/
def readDescs (g : Grp) (k : Group) (invalid : Res) : State → List Nat → State × Sum Res (List (BitVec 512))
  | s, [] => (s, .inr [])
  | s, v :: vs =>
    if v % 64 ≠ 0 then (s, .inl invalid) else
    match readDesc s g k v with
    | (s1, .inl r) => (s1, .inl r)
    | (s1, .inr d) => match readDescs g k invalid s1 vs with
      | (s2, .inl r) => (s2, .inl r)
      | (s2, .inr ds) => (s2, .inr (d :: ds))

/-- What issue needs of an X or G instruction: it issues alone (R72) and ends run-ahead (R69). -/
def unitIss (s : State) (g : Grp) (f : RWord) (ds : List Kind) (modOk : Bool) : Iss :=
  let v := s.vregsOf g
  { ext := f.ext, gp := f.gp, gn := f.gn, cls := .ender, access := true, alone := true
    reads := regsOf f.a 1 ++ [0x140 + f.gp.toNat], writes := regsOf f.dst 1
    bad := if f.ext.isSome then some 0x0503 else
      illegalUnless (accepts v false [.s] f.a && decide (f.b = opZero) && decide (f.c = opZero) && accepts v false ds f.dst && modOk) }

/-- The group that an operation belongs to, if it still holds the slot. -/
def opGroup (s : State) (g : Grp) (ctx gen : Nat) : Option Group :=
  (s.group? g).bind fun k => if k.ctx = ctx ∧ k.gen = gen then some k else none

/-- The completion word arrives in DST (R109); a park for a load that issued later does not take it back (R72, R73). -/
def deliverWord (s : State) (g : Grp) (ctx gen : Nat) (dst : BitVec 9) (w : W64) : State :=
  match opGroup s g ctx gen with
  | none => s
  | some k => s.setGroup g (Group.deliver { k with units := k.units.erase dst.toNat } 0 fun x => x.putS dst w)

/-- The group parks with a fault of an accepted operation, at the instruction that started it (R110). -/
def unitFault (s : State) (g : Grp) (ctx gen : Nat) (status : W16) (pc : VAddr) : State :=
  match opGroup s g ctx gen with
  | none => s
  | some k => s.setGroup g (beginPark k 6 status pc.toNat 0)

end Sys2Proof.Machine
end

