-- ==== Sys2Proof/Machine/MillMath.lean ====
section
/-! DEFINITION. The arithmetic of the mill: element values, products, beat sums, accumulator entries, their combination,
conversion to the output format and the error bound (R148 to R167). -/

namespace Sys2Proof.Machine

/-! ## Elements (*Table 6-1*) -/

def e4m3 : Fmt := { eb := 4, mb := 3 }
def e5m2 : Fmt := { eb := 5, mb := 2 }
def e2m3 : Fmt := { eb := 2, mb := 3 }
def e3m2 : Fmt := { eb := 3, mb := 2 }
def e2m1 : Fmt := { eb := 2, mb := 1 }

/-- The value of an encoding of which no pattern is an infinity or a NaN. -/
def Fmt.plain (f : Fmt) (w : Nat) : MVal :=
  let ex := w / 2 ^ f.mb % 2 ^ f.eb
  let fr := w % 2 ^ f.mb
  let m : Int := if ex = 0 then (fr : Nat) else (2 ^ f.mb + fr : Nat)
  .fin (if f.neg w then -m else m) (if ex = 0 then f.emin else f.emin + ex - 1)

def mvalOf : FV → MVal
  | .nan _ => .nan
  | .inf neg => .inf neg
  | .fin neg m e => .fin (if neg then -(m : Int) else m) e

/-- The value of an element's bits (R148, R150, R151). -/
def elemVal (fmt w : Nat) : MVal :=
  match fmt with
  | 0x01 | 0x03 => if w % 128 = 127 then .nan else e4m3.plain w
  | 0x02 | 0x04 => mvalOf (e5m2.unpack w)
  | 0x05 => e2m3.plain w
  | 0x06 => e3m2.plain w
  | 0x07 | 0x08 => e2m1.plain w
  | 0x10 => .fin (sext 8 w) 0
  | 0x11 => .fin (sext 4 w) 0
  | 0x20 => mvalOf (bf16.unpack w)
  | _ => mvalOf (f16.unpack w)

/-- An element times its block's E8M0 scale (R149). -/
def scaleVal (x : Nat) : MVal → MVal
  | .fin m e => if x = 255 then .nan else .fin m (e + x - 127)
  | v => if x = 255 then .nan else v

/-- ⌊log₂|x|⌋ of a nonzero finite value. -/
def MVal.log : MVal → Option Int
  | .fin m e => if m = 0 then none else some (Dy.log { m := m, e := e })
  | _ => none

def maxLog (vs : List MVal) : Option Int :=
  (vs.filterMap MVal.log).foldl (fun acc x => match acc with
    | none => some x
    | some y => some (max x y)) none

/-! ## Products and beat sums (R152 to R154, R157 step 5, R159) -/

/-- The product of two values (R159). -/
def MVal.mul : MVal → MVal → MVal
  | .fin m e, .fin n f => .fin (m * n) (e + f)
  | .inf a, .inf b => .inf (a != b)
  | .inf a, .fin m _ | .fin m _, .inf a => if m = 0 then .nan else .inf (a != decide (m < 0))
  | _, _ => .nan

/-- Toward zero, or up, to `n` significand bits. -/
def sigBits (rm : Rm) (n : Nat) (a : Dy) : Dy := if a.isZero then a else a.roundAt rm (a.log - (n - 1 : Nat))

/-- What the products of one beat in one column come to: the sum B, the window loss W and the beat's side sum as FP32
bits, and the special products. -/
structure Beat where
  sum : Dy
  loss : Nat
  side : Nat
  nan : Bool
  pinf : Bool
  ninf : Bool

def up32 (a : Dy) : Nat := a.toFmt f32 .rup false

/-- One beat of one array column: stationary and broadcast elements by k, and the elements of the whole beat entry for
E_beat; products of a rerun are multiplied by 2^-k (R164). -/
def mkBeat (fp16 : Bool) (k : Nat) (stat beat entry : List MVal) : Beat :=
  let ps := (stat.zip beat).map fun p => p.1.mul p.2
  let exact : List Dy := ps.filterMap fun p => match p with
    | .fin m e => some ({ m := m, e := e } : Dy)
    | _ => none
  let cut : List Dy := exact.map fun p => (if fp16 then sigBits .rtz 18 p else p).scale (-(k : Int))
  let (sum, loss) : Dy × Dy := match maxLog stat, maxLog entry with
    | some a, some b =>
      let q := a + b - k - 50
      let kept : List Dy := cut.map fun p => p.roundAt .rtz q
      (Dy.sum kept, Dy.sum ((cut.zip kept).map fun p => p.1.abs.sub p.2.abs))
    | _, _ => (Dy.zero, Dy.zero)
  { sum := sum, loss := up32 loss
    side := up32 (Dy.sum (exact.map fun p => (sigBits .rup 8 p.abs).scale (-(k : Int))))
    nan := ps.contains .nan, pinf := ps.contains (.inf false), ninf := ps.contains (.inf true) }

/-! ## Accumulator entries (*Table 6-2*, R155 to R159, R163, R165) -/

structure Acc where
  value : Nat
  comp : Nat
  side : Nat
  resid : Nat
  ovfd : Bool
  satd : Bool
  deriving DecidableEq, Repr

def Acc.zero : Acc := { value := 0, comp := 0, side := 0, resid := 0, ovfd := false, satd := false }

/-- The entry as *Table 6-2* lays it out. -/
def Acc.word (a : Acc) : BitVec 128 :=
  BitVec.ofNat 128 (place a.value 0 32 + place a.comp 32 32 + place a.side 64 31 + (if a.satd then 2 ^ 95 else 0) +
    place a.resid 96 31 + (if a.ovfd then 2 ^ 127 else 0))

def Acc.nan (a : Acc) : Bool := match f32.unpack a.value with
  | .nan _ => true
  | _ => false
def Acc.isInf (a : Acc) (neg : Bool) : Bool := decide (f32.unpack a.value = .inf neg)
def Acc.special (a : Acc) : Bool := a.nan || a.isInf false || a.isInf true

/-- VALUE + COMP of an entry that is not special. -/
def Acc.exact (a : Acc) : Dy := ((dyOf f32 a.value).getD Dy.zero).add ((dyOf f32 a.comp).getD Dy.zero)

/-- The sum of FP32 magnitudes and an exact loss, rounded once toward +∞; an infinity stays. -/
def upSum (ws : List Nat) (loss : Dy) : Nat :=
  if ws.any fun w => decide (f32.infBits ≤ w) then f32.infBits else up32 ((Dy.sum (ws.filterMap (dyOf f32))).add loss)

/-- The special value an add leaves, if any (R159). -/
def specialOf (nan pinf ninf : Bool) : Option Nat :=
  if nan || (pinf && ninf) then some f32.cnan
  else if pinf then some f32.infBits
  else if ninf then some (f32.signBit true + f32.infBits)
  else none

/-- Leave the sum T in an entry: a special value, the compensated pair, or the saturated value when VALUE would be
infinite (R157, R159, R165). `side` and `resid` are the FP32 addends of those fields. The add that saturates VALUE leaves COMP 0
and adds its window loss alone to RESID (DESIGN CHOICE, log entry 128). -/
def Acc.leave (a : Acc) (sp : Option Nat) (t : Dy) (side resid : List Nat) : Acc :=
  let sd := upSum side Dy.zero
  let o := a.ovfd || decide (sd = f32.infBits)
  match sp with
  | some v => { value := v, comp := 0, side := sd, resid := upSum resid Dy.zero, ovfd := o, satd := a.satd }
  | none =>
    let (v, c, loss) := compPair t
    match f32.unpack v with
    | .inf neg =>
      { value := f32.signBit neg + (f32.infBits - 1), comp := 0, side := sd, resid := upSum resid Dy.zero, ovfd := o, satd := true }
    | _ => { value := v, comp := c, side := sd, resid := upSum resid loss, ovfd := o, satd := a.satd }

/-- The add of a beat (R157). A saturated entry ignores it, a special product too (DESIGN CHOICE, log entry 126). -/
def Acc.addBeat (a : Acc) (b : Beat) : Acc :=
  if a.satd then a else
  a.leave (specialOf (a.nan || b.nan) (a.isInf false || b.pinf) (a.isInf true || b.ninf)) (a.exact.add b.sum)
    [a.side, b.side] [a.resid, b.loss]

/-- The right-hand entry added into the left-hand one (R157); a saturated left-hand entry ignores the add (R165). -/
def Acc.combine (l r : Acc) : Acc :=
  let x := l.leave (specialOf (l.nan || r.nan) (l.isInf false || r.isInf false) (l.isInf true || r.isInf true))
    (l.exact.add r.exact) [l.side, r.side] [l.resid, r.resid]
  let y := if l.satd then l else x
  { y with ovfd := y.ovfd || l.ovfd || r.ovfd, satd := y.satd || l.satd || r.satd }

/-! ## Output formats (R161, R163, R165, R166) -/

def outFmt : Nat → Fmt
  | 0x01 => e4m3
  | 0x02 => e5m2
  | 0x20 => bf16
  | 0x21 => f16
  | 0x22 => f32
  | _ => f64

/-- The bits of the largest finite value. -/
def maxBits (code : Nat) : Nat := if code = 0x01 then 0x7E else (outFmt code).infBits - 1
/-- The canonical NaN of a format. -/
def outNan : Nat → Nat
  | 0x01 | 0x02 => 0x7F
  | c => (outFmt c).cnan
/-- Formats whose subnormal results are flushed to +0. -/
def flushes (code : Nat) : Bool := decide (code ≤ 2) || decide (code = 0x20)

/-- The value of a finite pattern of an output format. -/
def outDy (code w : Nat) : Dy :=
  match (outFmt code).plain w with
  | .fin m e => { m := m, e := e }
  | _ => Dy.zero

/-- The exponent of the last place of a value in a format. -/
def ulpExp (f : Fmt) (a : Dy) : Int := if a.isZero then f.emin else max (a.log - f.mb) f.emin

/-- spacing(y) (R163, R166). -/
def spacing (code : Nat) (y : Dy) : Dy := { m := 1, e := ulpExp (outFmt code) y }

/-- Does the value overflow the output format (R163)? -/
def outOverflows (code : Nat) (rtz : Bool) (v : Dy) : Bool :=
  if code = 0x23 then false else
  let mx := outDy code (maxBits code)
  let sp := spacing code mx
  (mx.add (if rtz then sp else sp.scale (-1))).le v.abs

/-- A stored output: its bits, its flags, and its bound bᵢ as FP32 bits. -/
structure OutEl where
  bits : Nat
  nan : Bool
  odd : Bool
  ftz : Bool
  sat : Bool
  bound : Nat
  deriving DecidableEq, Repr

/-- bᵢ = t × SIDE + RESID + U, every operation rounded toward +∞ (R166). -/
def boundOf (t : Bool) (a : Acc) (u : Dy) : Nat :=
  let ts := if t then (match dyOf f32 a.side with
    | some d => up32 (d.scale (-17))
    | none => f32.infBits) else 0
  upSum [upSum [ts, a.resid] Dy.zero, up32 u] Dy.zero

/-- Convert an entry to the output format (R161, R165, R166). -/
def convertOut (code : Nat) (rtz t : Bool) (a : Acc) : OutEl :=
  let f := outFmt code
  let inf := f32.infBits
  if a.nan then { bits := outNan code, nan := true, odd := true, ftz := false, sat := false, bound := inf }
  else if a.special then
    if code = 0x01 then { bits := outNan code, nan := true, odd := true, ftz := false, sat := false, bound := inf }
    else { bits := f.signBit (a.isInf true) + f.infBits, nan := false, odd := true, ftz := false, sat := false, bound := inf }
  else
    let v := a.exact
    let neg := decide (v.m < 0)
    if outOverflows code rtz v then
      { bits := f.signBit neg + maxBits code, nan := false, odd := false, ftz := false, sat := true, bound := inf }
    else
      let r := if code = 0x23 then v else v.roundAt (if rtz then .rtz else .rne) (ulpExp f v)
      let q := ulpExp f r
      let mag := if r.isZero then 0 else (q - f.emin).toNat * 2 ^ f.mb + (r.abs.roundAt .rtz q).m.toNat
      let minNormal : Dy := { m := 1, e := f.emin + f.mb }
      let un := a.ovfd || a.satd
      if flushes code && !r.isZero && r.abs.lt minNormal then
        { bits := 0, nan := false, odd := false, ftz := true, sat := false, bound := if un then inf else boundOf t a minNormal }
      else
        let u := if code = 0x23 then Dy.zero else if rtz then spacing code r else (spacing code r).scale (-1)
        { bits := if r.isZero then 0 else f.signBit neg + mag, nan := false, odd := false, ftz := false, sat := false
          bound := if un then inf else boundOf t a u }

end Sys2Proof.Machine
end

