-- ==== Sys2Proof/Machine/Mill.lean ====
section
/-! DEFINITION. The mill: acceptance of its operations, the geometry of an operation, its blocks, reruns, certificates
and completion, faults and cancellation, and debug access to the accumulators (R110, R111, R118 to R147, R160 to R173).
Cycle-exact timing is left out: the operand `cycles` of the completion is what the core counted. -/

namespace Sys2Proof.Machine

/-! ## The operation descriptor (*Table 5-2*) -/

/-- e and the output formats of a format pair (*Table 5-3*). -/
def pairOf (a b : Nat) : Option (Nat × List Nat) :=
  let fp8 := fun (x : Nat) => decide (1 ≤ x) && decide (x ≤ 4)
  let low := fun (x : Nat) => decide (5 ≤ x) && decide (x ≤ 8)
  let floats := [0x23, 0x22, 0x20, 0x21, 0x01, 0x02]
  if (fp8 a && (fp8 b || low b)) || (low a && fp8 b) then some (1, floats)
  else if low a && low b then some (2, floats)
  else if (a = 0x10 ∨ a = 0x11) ∧ (b = 0x10 ∨ b = 0x11) then some (if a = 0x11 ∧ b = 0x11 then 2 else 1, [0x23, 0x22])
  else if a = b ∧ (a = 0x20 ∨ a = 0x21) then some (1, [0x23, 0x22, 0x20, 0x21])
  else none

/-- The shape of an operation (R125, R126). -/
structure Geo where
  modeA : Bool
  arrange : Nat
  m : Nat
  n : Nat
  k : Nat
  e : Nat
  slices : Nat
  kp : Nat
  u : Nat
  s : Nat
  passes : Nat
  statBlocks : Nat
  stripes : Nat
  deriving DecidableEq, Repr

def Geo.stat (g : Geo) : Nat := if g.modeA then g.m else g.n
def Geo.stripeDim (g : Geo) : Nat := if g.modeA then g.n else g.m
def Geo.blocks (g : Geo) : Nat := g.statBlocks * g.stripes
/-- P is 1 and there is one stationary block (R130). -/
def Geo.single (g : Geo) : Bool := decide (g.passes = 1) && decide (g.statBlocks = 1)

/-- The accumulator columns of an operation: 32 in mode W, the rounded column count in mode A (R125, R156). -/
def geoU (modeA : Bool) (m : Nat) : Nat := if modeA then (if m ≤ 8 then 8 else if m ≤ 16 then 16 else 32) else 32
def geoMax (modeA : Bool) (m : Nat) : Nat := if modeA then 2048 / geoU modeA m else 64

def geoOf (d : BitVec 512) (x w : Tile) : Geo :=
  let modeA := decide (bits d 503 502 = 1)
  let arr := bits d 501 500
  let m := x.rows
  let n := w.cols
  let k := x.cols
  let e := ((pairOf x.fmt w.fmt).map (·.1)).getD 1
  let slices := if arr = 0 then 4 else if arr = 1 then 2 else 1
  let kp := 32 * e * (4 / slices)
  let s := if bits d 495 488 = 0 then geoMax modeA m else bits d 495 488
  { modeA := modeA, arrange := arr, m := m, n := n, k := k, e := e, slices := slices, kp := kp, u := geoU modeA m
    s := s, passes := cdiv k kp, statBlocks := cdiv (if modeA then m else n) (32 * slices)
    stripes := cdiv (if modeA then n else m) s }

/-- The descriptor's own fields (R123, R124, R169); `fn` 0 is MLD.S, 1 MMA.W, 2 MMA.A. -/
def millDescOk (fn : Nat) (d : BitVec 512) : Bool :=
  decide (bits d 511 504 = 1) && decide (bits d 503 502 ≤ 1) && decide (fn = 0 ∨ bits d 503 502 = fn - 1) &&
  decide (bits d 501 500 ≠ 3) && decide (bits d 487 480 = 0) && decide (bits d 423 416 = 0) && decide (bits d 359 352 = 0) &&
  decide (bits d 295 288 = 0) && decide (bits d 191 0 = 0) && (decide (bits d 287 256 ≠ 0) || decide (bits d 255 192 = 0)) &&
  (bit d 498 || decide (bits d 495 488 % 32 = 0))

/-- The bytes an operation writes: OUT and its certificates. -/
def outSpans (d : BitVec 512) (o : Tile) : List (Nat × Nat) :=
  o.allSpans ++ (if bit d 497 then [(o.cert, o.certBytes)] else [])

/-- The descriptor together with its tiles (R124, R130, R168). -/
def millOk (fn : Nat) (d xd wd od : BitVec 512) : Bool :=
  let x := Tile.ofWord xd
  let w := Tile.ofWord wd
  let o := Tile.ofWord od
  let g := geoOf d x w
  tileOk xd && tileOk wd && tileOk od &&
  decide (x.rows = o.rows) && decide (x.cols = w.rows) && decide (w.cols = o.cols) &&
  (match pairOf x.fmt w.fmt with
   | some p => p.2.contains o.fmt
   | none => false) &&
  !(isMx x.fmt && x.colMajor) && !(isMx w.fmt && (!w.colMajor || decide (w.rows % 32 ≠ 0))) &&
  decide (x.cert = 0) && decide (w.cert = 0) && decide (o.cert % 16 = 0) && (!bit d 497 || decide (o.cert ≠ 0)) &&
  decide (bits d 495 488 ≤ geoMax g.modeA x.rows) && (decide (fn ≠ 0) || g.single) &&
  !(x.overlaps o.larder (outSpans d o)) && !(w.overlaps o.larder (outSpans d o))

/-- Larder ranges an operation takes entries for (R193): write or read, first byte, one past the last. -/
def millRanges (fn : Nat) (d : BitVec 512) (x w o : Tile) : List (Bool × Nat × Nat) :=
  let rd := fun (t : Tile) => if t.larder then
    (false, t.base, t.stop) :: (if isMx t.fmt then [(false, t.sbase, t.scaleStop)] else []) else []
  if fn = 0 then rd (if bit d 502 then x else w)
  else rd x ++ rd w ++ (if o.larder then
    (true, o.base, o.stop) :: (if bit d 497 then [(true, o.cert, o.cert + o.certBytes)] else []) else [])

/-! ## Acceptance (R109, R110, R138, R193, R197) -/

/-- A mill operation as accepted: nothing of it has started. -/
def newMillOp (fn : Nat) (g : Grp) (f : RWord) (k : Group) (seq : Nat) (d xd wd od : BitVec 512) : MillOp :=
  { slot := g.slot, ctx := k.ctx, gen := k.gen, seq := seq, fn := fn, pc := k.pc, dst := f.dst,
    desc := d, xTile := xd, wTile := wd, outTile := od, started := false, reused := false, stat := [], block := 0,
    k := 0, overflowed := false, retries := 0, maxK := 0, nan := false, ftz := false, sat := false, certs := [] }

/-- The core after the acceptance: the operation joins the queue and takes its scoreboard entries (R138, R193). -/
def acceptMill (c : Core) (g : Grp) (op : MillOp) (rs : List (Bool × Nat × Nat)) : Core :=
  { c with seq := op.seq, millQ := c.millQ ++ [op],
           scores := c.scores ++ rs.map fun r => scoreOf 0 g.slot op.seq r.1 r.2.1 r.2.2 }

def millBody (fn : Nat) (g : Grp) (f : RWord) (s : State) (k : Group) (_ : W32) : Res :=
  let invalid := Res.fault 0x0502 k.pc.toNat 0
  let v := (k.opS none f.a).toNat
  if 8 ≤ (s.core g.core).millQ.length then .wait else
  match readDescs g k invalid s [v] with
  | (_, .inl r) => r
  | (s1, .inr ds) =>
    let d := ds.headD 0
    if millDescOk fn d = false then invalid else
    match readDescs g k invalid s1 [bits d 479 424, bits d 415 360, bits d 351 296] with
    | (_, .inl r) => r
    | (s2, .inr ts) =>
      let xd := (nth? ts 0).getD 0
      let wd := (nth? ts 1).getD 0
      let od := (nth? ts 2).getD 0
      if millOk fn d xd wd od = false then invalid else
      let rs := millRanges fn d (.ofWord xd) (.ofWord wd) (.ofWord od)
      let c := s2.core g.core
      if 16 < c.scores.length + rs.length then .wait else
      .done ((s2.setCore g.core (acceptMill c g (newMillOp fn g f k (c.seq + 1) d xd wd od) rs)).setGroup g
        { k with units := k.units ++ regsOf f.dst 1 })

def millIssue (fn : Nat) (g : Grp) (f : RWord) (s : State) : Host.Outcome State Fault Refusal :=
  issue (unitIss s g f [.s, .z] (decide (f.mod = 0))) g (millBody fn g f) s

/-- MLD.S: load and hold the stationary operand (R122, R130). -/
def execMldS (g : Grp) (f : RWord) (s : State) : Host.Outcome State Fault Refusal := millIssue 0 g f s
/-- MMA.W: OUT = X · W in mode W (R122). -/
def execMmaW (g : Grp) (f : RWord) (s : State) : Host.Outcome State Fault Refusal := millIssue 1 g f s
/-- MMA.A: OUT = X · W in mode A (R122). -/
def execMmaA (g : Grp) (f : RWord) (s : State) : Host.Outcome State Fault Refusal := millIssue 2 g f s

/-! ## Operands -/

/-- An element of X or W with its block scale. -/
def Tile.mval (t : Tile) (s : State) (c ctx r k : Nat) : MVal :=
  let v := elemVal t.fmt (t.elem s c ctx r k)
  if isMx t.fmt then
    let line := if t.colMajor then k else r
    let i := if t.colMajor then r else k
    scaleVal (leNat (unitBytes s c ctx t.larder (t.sbase + line * t.sstride + i / 32) 1)) v
  else v

def MillOp.geo (o : MillOp) : Geo := geoOf o.desc (.ofWord o.xTile) (.ofWord o.wTile)

/-- The stationary and the broadcast tile of an operation (R129). -/
def MillOp.statTile (o : MillOp) : Tile := .ofWord (if o.geo.modeA then o.xTile else o.wTile)
def MillOp.beatTile (o : MillOp) : Tile := .ofWord (if o.geo.modeA then o.wTile else o.xTile)
def MillOp.statAddr (o : MillOp) : VAddr := va (if o.geo.modeA then bits o.desc 479 424 else bits o.desc 415 360)

/-- Element k of stationary column `i`, and of broadcast position `j`. -/
def MillOp.statElem (o : MillOp) (s : State) (c k i : Nat) : MVal :=
  if o.geo.modeA then (Tile.ofWord o.xTile).mval s c o.ctx i k else (Tile.ofWord o.wTile).mval s c o.ctx k i
def MillOp.beatElem (o : MillOp) (s : State) (c k j : Nat) : MVal :=
  if o.geo.modeA then (Tile.ofWord o.wTile).mval s c o.ctx k j else (Tile.ofWord o.xTile).mval s c o.ctx j k

/-- The ranges of the stationary and stripe dimensions that a block covers (R126, stripe innermost). -/
def Geo.statRange (g : Geo) (b : Nat) : Nat × Nat :=
  let i := b / g.stripes * (32 * g.slices)
  (i, min g.stat (i + 32 * g.slices))
def Geo.stripeRange (g : Geo) (b : Nat) : Nat × Nat :=
  let j := b % g.stripes * g.s
  (j, min g.stripeDim (j + g.s))

/-- The elements a block loads: by k, the stationary columns and the broadcast positions. -/
def MillOp.loadStat (o : MillOp) (s : State) (c b : Nat) : List (List MVal) :=
  let (i0, i1) := o.geo.statRange b
  (List.range o.geo.k).map fun k => (List.range (i1 - i0)).map fun i => o.statElem s c k (i0 + i)
def MillOp.loadBeat (o : MillOp) (s : State) (c b : Nat) : List (List MVal) :=
  let (j0, j1) := o.geo.stripeRange b
  (List.range (j1 - j0)).map fun j => (List.range o.geo.k).map fun k => o.beatElem s c k (j0 + j)

/-- Spans of the stationary and the broadcast operand of a block, scales included. -/
def partSpans (t : Tile) (r0 r1 c0 c1 : Nat) : List (Nat × Nat) := t.spans r0 r1 c0 c1 ++ t.scaleSpans r0 r1 c0 c1
def MillOp.statSpans (o : MillOp) (b : Nat) : List (Nat × Nat) :=
  let (i0, i1) := o.geo.statRange b
  if o.geo.modeA then partSpans o.statTile i0 i1 0 o.geo.k else partSpans o.statTile 0 o.geo.k i0 i1
def MillOp.beatSpans (o : MillOp) (b : Nat) : List (Nat × Nat) :=
  let (j0, j1) := o.geo.stripeRange b
  if o.geo.modeA then partSpans o.beatTile 0 o.geo.k j0 j1 else partSpans o.beatTile j0 j1 0 o.geo.k
/-- Rows and columns of OUT that a block covers. -/
def Geo.outRange (g : Geo) (b : Nat) : Nat × Nat × Nat × Nat :=
  let (i0, i1) := g.statRange b
  let (j0, j1) := g.stripeRange b
  if g.modeA then (i0, i1, j0, j1) else (j0, j1, i0, i1)
/-- The sub-tiles a block covers, with whether it is the last block that does (R145, R169). -/
def coveredSubs (g : Geo) (b : Nat) : List (Nat × Nat × Bool) :=
  let (r0, r1, c0, c1) := g.outRange b
  let is := (List.range (cdiv r1 32 - r0 / 32)).map (r0 / 32 + ·)
  let js := (List.range (cdiv c1 32 - c0 / 32)).map (c0 / 32 + ·)
  is.flatMap fun i => js.map fun j =>
    (i, j, if g.modeA then decide (min (32 * j + 32) g.n ≤ c1) else decide (min (32 * i + 32) g.m ≤ r1))

/-- The bytes that a block writes: its outputs, and the certificates that it covers last (R143, R169). -/
def MillOp.outSpans (o : MillOp) (b : Nat) : List (Nat × Nat) :=
  let t := Tile.ofWord o.outTile
  let (r0, r1, c0, c1) := o.geo.outRange b
  t.spans r0 r1 c0 c1 ++ (if bit o.desc 497 then
    ((coveredSubs o.geo b).filter fun x => x.2.2).map fun x => (t.cert + 16 * (x.1 * cdiv o.geo.n 32 + x.2.1), 16)
  else [])

/-- The larder ranges that the operation recorded at acceptance (R193). -/
def MillOp.ranges (o : MillOp) : List (Bool × Nat × Nat) :=
  millRanges o.fn o.desc (.ofWord o.xTile) (.ofWord o.wTile) (.ofWord o.outTile)

/-- Does a range of the operation, of its reads alone for a start, overlap an entry of an earlier operation (R195)? -/
def MillOp.rangeHeld (o : MillOp) (k : Core) (start : Bool) : Bool :=
  o.ranges.any fun r => !(start && r.1) && scoreEarlier k o.seq r.1 [(r.2.1, r.2.2 - r.2.1)]

/-- Reach what a block needs: its operands, then its outputs; a start needs the operands alone. A range in a lane bank is a
mill-port conflict (R134, R135, R137, R190, R195). -/
def millReach (s : State) (c : Nat) (o : MillOp) (start : Bool) : State × Reach :=
  let st := if o.reused then [] else o.statSpans o.block
  let bt := if o.fn = 0 then [] else o.beatSpans o.block
  let ot := if o.fn = 0 || start then [] else o.outSpans o.block
  let out := Tile.ofWord o.outTile
  let g : Grp := { core := c, slot := o.slot }
  let held := o.rangeHeld (s.core c) start ||
    (!o.statTile.larder && sbOverlaps s g o.ctx st) || (!o.beatTile.larder && sbOverlaps s g o.ctx bt)
  if held then (s, .wait) else
  let lane := fun (t : Tile) ss => t.larder && !s.inMillBanks c ss
  if lane o.statTile st || lane o.beatTile bt || lane out ot then (s, .fault 0x0501 0) else
  match unitReach s c o.ctx o.statTile.larder .r st with
  | (s1, .ok) => match unitReach s1 c o.ctx o.beatTile.larder .r bt with
    | (s2, .ok) => unitReach s2 c o.ctx out.larder .w ot
    | r => r
  | r => r

/-! ## The sums of a block (*Table 6-4*, R160) -/

/-- The first k of an array in a pass. -/
def Geo.kBase (g : Geo) (a p : Nat) : Nat :=
  p * g.kp + (if g.arrange = 0 then 0 else if g.arrange = 1 then a % 2 * (32 * g.e) else a * (32 * g.e))
/-- The slice of the stationary block that an array takes (*Table 5-4*). -/
def Geo.sliceOf (g : Geo) (a : Nat) : Nat := if g.arrange = 0 then a else if g.arrange = 1 then a / 2 else 0

/-- Column `i` of a list of rows, and a range of a list. -/
def colOf (rows : List (List MVal)) (i : Nat) : List MVal := rows.map fun r => (nth? r i).getD (.fin 0 0)
def sub {α : Type} (l : List α) (a n : Nat) : List α := (l.drop a).take n

/-- The entry of array `a`, column `col`, position `j` after the last pass, before any combination. -/
def rawEntry (g : Geo) (fp16 : Bool) (kk : Nat) (stat beat : List (List MVal)) (a col j : Nat) : Acc :=
  let column := colOf stat (32 * g.sliceOf a + col)
  let row := (nth? beat j).getD []
  (List.range g.passes).foldl (fun acc p =>
    acc.addBeat (mkBeat fp16 kk (sub column (g.kBase a p) (32 * g.e)) (sub row (g.kBase a p) (32 * g.e))
      (sub row (p * g.kp) g.kp))) Acc.zero

/-- The entry of an array as the block leaves it: after the combination where it is a left-hand one. -/
def lastEntry (g : Geo) (raw : Nat → Acc) (a : Nat) : Acc :=
  if g.arrange = 0 then raw a
  else if g.arrange = 1 then (if a % 2 = 0 then (raw a).combine (raw (a + 1)) else raw a)
  else match a with
    | 0 => ((raw 0).combine (raw 1)).combine ((raw 2).combine (raw 3))
    | 2 => (raw 2).combine (raw 3)
    | _ => raw a

/-- A finished block: for each array its entries by position and column. -/
def blockEntries (g : Geo) (fp16 : Bool) (kk : Nat) (stat beat : List (List MVal)) (width len : Nat) : List (List (List Acc)) :=
  let raws := (List.range 4).map fun a => (List.range len).map fun j =>
    (List.range (min 32 (width - 32 * g.sliceOf a))).map fun col => rawEntry g fp16 kk stat beat a col j
  let raw := fun (j col a : Nat) => ((((nth? raws a).bind fun x => nth? x j).bind fun x => nth? x col).getD Acc.zero)
  (List.range 4).map fun a => (List.range len).map fun j =>
    (List.range (min 32 (width - 32 * g.sliceOf a))).map fun col => lastEntry g (raw j col) a

/-- The result entry of stationary column `i`, position `j` (*Table 6-4*). -/
def resultOf (g : Geo) (es : List (List (List Acc))) (i j : Nat) : Acc :=
  let a := if g.arrange = 0 then i / 32 else if g.arrange = 1 then 2 * (i / 32) else 0
  ((((nth? es a).bind fun x => nth? x j).bind fun x => nth? x (i % 32)).getD Acc.zero)

/-- Fill a cleared accumulator set with the entries of a block (R155, R156): array a, set t, index j × U + col. -/
def fillSet (acc : Table (BitVec 128)) (set : Bool) (u : Nat) (es : List (List (List Acc))) : Table (BitVec 128) :=
  let t := if set then 1 else 0
  let cleared := acc.filter fun e => decide (e.1 / 2048 % 2 ≠ t)
  ((List.range es.length).zip es).foldl (fun m ae => ((List.range ae.2.length).zip ae.2).foldl (fun m je =>
    ((List.range je.2.length).zip je.2).foldl (fun m ce => tset 0 m (4096 * ae.1 + 2048 * t + je.1 * u + ce.1) ce.2.word) m) m) cleared

/-! ## Starting and draining (R127, R130, R131, R143 to R146, R164 to R169) -/

/-- Replace the operation at the front of the queue. -/
def setFront (k : Core) (o : MillOp) : Core := { k with millQ := o :: k.millQ.drop 1 }

/-- May a held operand be reused (R131)? -/
def heldFits (k : Core) (o : MillOp) : Bool :=
  match k.held with
  | none => false
  | some h => decide (o.fn ≠ 0) && bit o.desc 496 && o.geo.single && decide (h.slot = o.slot) && decide (h.ctx = o.ctx) &&
      decide (h.gen = o.gen) && decide (h.tile = o.statAddr) &&
      (h.modeA == o.geo.modeA) && decide (h.arrange.toNat = o.geo.arrange)

/-- What the mill holds after an operation with one stationary block and one pass (R130). -/
def heldOf (o : MillOp) (elems : List (List MVal)) : Held :=
  { slot := o.slot, ctx := o.ctx, gen := o.gen, seq := o.seq, tile := o.statAddr, modeA := o.geo.modeA, arrange := BitVec.ofNat 2 o.geo.arrange, elems := elems }

/-- What the mill holds once an operation has loaded its stationary operand: that operand, when the operation has one
stationary block and one pass and its group still has its slot (R130, R132). -/
def holdOperand (s : State) (c : Nat) (o : MillOp) (elems : List (List MVal)) : Option Held :=
  if o.geo.single && (opGroup s { core := c, slot := o.slot } o.ctx o.gen).isSome then some (heldOf o elems) else none

/-- The first beats of a block as the hoppers hold them (R133): the element group that row `r` of array `a` takes from each of
up to 16 beats of the first pass. -/
def hopperFill (o : MillOp) (beats : List (List MVal)) : Hoppers :=
  { seq := o.seq
    rows := (List.range 32).map fun r => (beats.take 16).map fun row => (List.range 4).map fun a =>
      sub row (o.geo.kBase a 0 + r * o.geo.e) o.geo.e }

/-- Element `k` of beat `j` of the first pass, from the hoppers. -/
def Hoppers.elem (h : Hoppers) (e j k : Nat) : Option MVal := do
  let row ← nth? h.rows (k % (32 * e) / e)
  let entry ← nth? row j
  let group ← nth? entry (k / (32 * e))
  nth? group (k % e)

/-- The beats of a block: the first ones as the hoppers took them when the operation started (R133, R134). -/
def hopperBeats (h : Option Hoppers) (o : MillOp) (beats : List (List MVal)) : List (List MVal) :=
  match h with
  | none => beats
  | some h => if h.seq ≠ o.seq ∨ o.block ≠ 0 then beats else
    ((List.range beats.length).zip beats).map fun b => if 16 ≤ b.1 then b.2 else
      ((List.range b.2.length).zip b.2).map fun x => if x.1 < o.geo.kp then (h.elem o.geo.e b.1 x.1).getD x.2 else x.2

/-- The front operation with the held operand, where it fits (R131). -/
def frontOp (k : Core) (o : MillOp) : MillOp :=
  { o with
    reused := heldFits k o
    stat := match k.held with
      | some h => if heldFits k o then h.elems else []
      | none => [] }

/-- Replace an operation of the queue, by its acceptance number. -/
def setOp (k : Core) (o : MillOp) : Core := { k with millQ := k.millQ.map fun (x : MillOp) => if x.seq = o.seq then o else x }

/-- Has an operation sent its last pass, so that the next one may start while it drains (R127, R138)? -/
def MillOp.onLast (o : MillOp) : Bool := o.started && !o.overflowed && (decide (o.fn = 0) || decide (o.geo.blocks ≤ o.block + 1))

/-- The operation that starts next: the first that has not, when every one before it is on its last block (R138). -/
def nextStart : List MillOp → Option MillOp
  | [] => none
  | o :: t => if o.started = false then some o else if o.onLast then nextStart t else none

/-- MILL_OP_START: the first stationary row of the next operation is present (R127). It reuses the held operand, or loads
its own, which the mill then holds or drops (R130 to R132); the hoppers take its first beats (R133). -/
def execMillOpStart (core : Nat) (s : State) : Host.Outcome State Fault Refusal :=
  match nextStart (s.core core).millQ with
  | none => .next s
  | some o =>
    let o1 := frontOp (s.core core) o
    match millReach s core o1 true with
    | (s1, .ok) =>
      let es := o.loadStat s1 core 0
      let h := if o1.reused then (s1.core core).held else holdOperand s1 core o es
      let run := { o1 with started := true, stat := if o1.reused then o1.stat else es }
      if o.fn = 0 then .next (s1.modCore core fun k => releaseScores (setOp { k with held := h } run) o.seq)
      else .next (s1.modCore core fun k => setOp { k with held := h, hoppers := some (hopperFill o (o.loadBeat s1 core 0)) } run)
    | (s1, .wait) => .next s1
    | (_, .fault _ _) => .next s

def bitAt (b : Bool) (i : Nat) : Nat := if b then 2 ^ i else 0

/-- The certificate bits of one sub-tile in one block, merged into what earlier blocks left (R167, R169). -/
def certMerge (old : Option CertAcc) (els : List (Acc × OutEl)) : CertAcc :=
  let base : CertAcc := old.getD { bound := 0, side := 0, resid := 0, flags := 0 }
  els.foldl (fun (c : CertAcc) e =>
    { bound := w32 (max c.bound.toNat e.2.bound), side := w32 (max c.side.toNat e.1.side), resid := w32 (max c.resid.toNat e.1.resid)
      flags := c.flags ||| BitVec.ofNat 16 (bitAt (decide (e.2.bound = f32.infBits)) 15 + bitAt e.2.sat 14 + bitAt e.2.ftz 13 +
        bitAt e.2.odd 10) }) base

/-- The 16 bytes of a certificate (*Table 6-3*). -/
def certBytes (o : MillOp) (c : CertAcc) (trunc : Bool) : List Byte :=
  leBytes 16 (c.bound.toNat * 2 ^ 96 + c.side.toNat * 2 ^ 64 + c.resid.toNat * 2 ^ 32 + place o.k 24 8 + bitAt o.geo.modeA 19 +
    place o.geo.arrange 17 2 + c.flags.toNat + bitAt trunc 12 + bitAt (bit o.desc 499) 11 + 1)

/-- Write a block's outputs, one row of memory after the other (R143 step 3). -/
def writeOutputs (s : State) (c : Nat) (o : MillOp) (outAt : Nat → Nat → OutEl) : State × W16 :=
  let t := Tile.ofWord o.outTile
  let (r0, r1, c0, c1) := o.geo.outRange o.block
  let n := fmtBits t.fmt / 8
  let (l0, l1, i0, i1) := if t.colMajor then (c0, c1, r0, r1) else (r0, r1, c0, c1)
  (List.range (l1 - l0)).foldl (fun (acc : State × W16) a =>
    if acc.2 ≠ 0 then acc else
    let l := l0 + a
    let bs := (List.range (i1 - i0)).flatMap fun b =>
      leBytes n (if t.colMajor then outAt (i0 + b) l else outAt l (i0 + b)).bits
    unitPut acc.1 c o.ctx t.larder (t.base + l * t.stride + i0 * n) bs) (s, 0)

/-- Merge and, at its last block, write each certificate. -/
def writeCerts (s : State) (c : Nat) (o : MillOp) (trunc : Bool) (el : Nat → Nat → Acc × OutEl) : State × W16 × Table CertAcc :=
  let t := Tile.ofWord o.outTile
  let g := o.geo
  let (r0, r1, c0, c1) := g.outRange o.block
  (coveredSubs g o.block).foldl (fun (acc : State × W16 × Table CertAcc) x =>
    if acc.2.1 ≠ 0 then acc else
    let (i, j, lastOne) := x
    let idx := i * cdiv g.n 32 + j
    let rs := (List.range 32).filter fun r => decide (r0 ≤ 32 * i + r) && decide (32 * i + r < r1)
    let cs := (List.range 32).filter fun q => decide (c0 ≤ 32 * j + q) && decide (32 * j + q < c1)
    let m := certMerge (tfind acc.2.2 idx) (rs.flatMap fun r => cs.map fun q => el (32 * i + r) (32 * j + q))
    if lastOne then
      let (s1, st) := unitPut acc.1 c o.ctx t.larder (t.cert + 16 * idx) (certBytes o m trunc)
      (s1, st, tdel acc.2.2 idx)
    else (acc.1, 0, tput acc.2.2 idx m)) (s, 0, o.certs)

/-- Both operands FP16: products are truncated, and t = 2^-17 (R153, R166). -/
def MillOp.fp16 (o : MillOp) : Bool := decide ((Tile.ofWord o.xTile).fmt = 0x21) && decide ((Tile.ofWord o.wTile).fmt = 0x21)

/-- The elements and entries of the block that the operation is at, as the state gives them. -/
def MillOp.sums (o : MillOp) (s : State) (c : Nat) : List (List MVal) × List (List (List Acc)) :=
  let g := o.geo
  let st := if o.reused then o.stat else o.loadStat s c o.block
  let bt := hopperBeats (s.core c).hoppers o (o.loadBeat s c o.block)
  let (i0, i1) := g.statRange o.block
  let (j0, j1) := g.stripeRange o.block
  (st, blockEntries g o.fp16 o.k st bt (i1 - i0) (j1 - j0))

/-- The result entry of OUT[r][c] in the current block. -/
def MillOp.resultAt (o : MillOp) (es : List (List (List Acc))) (r c : Nat) : Acc :=
  let (i0, _) := o.geo.statRange o.block
  let (j0, _) := o.geo.stripeRange o.block
  if o.geo.modeA then resultOf o.geo es (r - i0) (c - j0) else resultOf o.geo es (c - i0) (r - j0)

/-- Does any entry or output of the block overflow at its final add (R163)? -/
def blockOverflows (o : MillOp) (es : List (List (List Acc))) : Bool :=
  let (r0, r1, c0, c1) := o.geo.outRange o.block
  let fmt := (Tile.ofWord o.outTile).fmt
  let rtz := bit o.desc 499
  (List.range (r1 - r0)).any fun r => (List.range (c1 - c0)).any fun c =>
    let a := o.resultAt es (r0 + r) (c0 + c)
    a.ovfd || a.satd || (!a.special && outOverflows fmt rtz a.exact)

/-- Drain a block that is written: accumulators, outputs, certificates, then the next block (R143). -/
def drainBlock (s : State) (c : Nat) (o : MillOp) : State × W16 :=
  let (st, es) := o.sums s c
  let t := Tile.ofWord o.outTile
  let el := fun r q => let a := o.resultAt es r q; (a, convertOut t.fmt (bit o.desc 499) o.fp16 a)
  let (r0, r1, c0, c1) := o.geo.outRange o.block
  let all := (List.range (r1 - r0)).flatMap fun r => (List.range (c1 - c0)).map fun q => (el (r0 + r) (c0 + q)).2
  match writeOutputs s c o (fun r q => (el r q).2) with
  | (s1, w) =>
    if w ≠ 0 then (s, w) else
    match (if bit o.desc 497 then writeCerts s1 c o o.fp16 el else (s1, 0, o.certs)) with
    | (s2, w2, certs) =>
      if w2 ≠ 0 then (s, w2) else
      let o1 := { o with
        block := o.block + 1, k := 0, overflowed := false, maxK := max o.maxK o.k, certs := certs
        stat := if o.geo.single then st else []
        nan := o.nan || all.any (·.nan), ftz := o.ftz || all.any (·.ftz), sat := o.sat || all.any (·.sat) }
      (s2.modCore c fun k =>
        let mine := (k.held.map fun h => decide (h.seq = o.seq)).getD false && !o.reused
        let k0 := { k with
          accum := fillSet k.accum k.liveSet o.geo.u es, liveSet := !k.liveSet
          held := if mine then some (heldOf o st) else k.held
          hoppers := if (k.hoppers.map (·.seq)) = some o.seq then none else k.hoppers }
        let k1 := setFront k0 o1
        if o1.block = o.geo.blocks then releaseScores k1 o.seq else k1, 0)

/-- MILL_BLOCK_DRAIN: the block's final add has completed. A block that overflows under OVF = 0 below k = 24 waits for
its rerun; any other is drained (R143, R146, R164). -/
def execMillBlockDrain (core : Nat) (s : State) : Host.Outcome State Fault Refusal :=
  match (s.core core).millQ with
  | [] => .next s
  | o :: _ =>
    if !o.started || decide (o.fn = 0) || o.overflowed || decide (o.geo.blocks ≤ o.block) then .next s else
    match millReach s core o false with
    | (s1, .ok) =>
      if !bit o.desc 498 && decide (o.k < 24) && blockOverflows o (o.sums s1 core).2 then
        .next (s1.modCore core fun k => setFront { k with hoppers := none } { o with overflowed := true })
      else match drainBlock s1 core o with
        | (s2, w) => .next (if w = 0 then s2 else s1)
    | (s1, .wait) => .next s1
    | (_, .fault _ _) => .next s

/-- MILL_RESCALE_RETRY: the block starts again under the next rescale exponent (R146, R164). -/
def execMillRescaleRetry (core : Nat) (s : State) : Host.Outcome State Fault Refusal :=
  match (s.core core).millQ with
  | [] => .next s
  | o :: _ =>
    if o.overflowed then
      .next ((countUp s 0 core 11 1).modCore core fun k => setFront k { o with overflowed := false, k := o.k + 8, retries := min 255 (o.retries + 1), maxK := max o.maxK (o.k + 8) })
    else .next s

/-! ## Ends of operations (R139, R140, R142, *Table 5-5*) -/

/-- The completion word. -/
def millWord (status : W16) (o : MillOp) (cycles : Nat) : W64 :=
  let c := min cycles 0xFFFFFF
  if o.fn = 0 then w64 (status.toNat * 2 ^ 48 + c)
  else w64 (status.toNat * 2 ^ 48 + place o.retries 40 8 + place o.maxK 32 8 + bitAt o.nan 27 + bitAt o.reused 26 + bitAt o.ftz 25 +
    bitAt o.sat 24 + c)

/-- An operation leaves the queue with its completion word; its entries are released. -/
def endMillOp (s : State) (c : Nat) (o : MillOp) (w : W64) : State :=
  deliverWord (s.modCore c fun k => releaseScores { k with millQ := k.millQ.filter fun x => decide (x.seq ≠ o.seq) } o.seq)
    { core := c, slot := o.slot } o.ctx o.gen o.dst w

/-- MILL_COMPLETE: every block has drained; the word is written and the tally raised (R139). -/
def execMillComplete (core cycles : Nat) (s : State) : Host.Outcome State Fault Refusal :=
  match (s.core core).millQ with
  | [] => .next s
  | o :: _ =>
    if !o.started || (decide (o.fn ≠ 0) && decide (o.block < o.geo.blocks)) then .next s else
    .next (raiseTally (endMillOp s core o (millWord 0 o cycles)) o.ctx (bits o.desc 287 256) (bits o.desc 255 192))

/-- An operation completes with 0x0506 (OP_CANCELLED) and no effect; its cycle count is not stated (log entry 1), and its other
fields are 0 (DESIGN CHOICE, log entry 125). -/
def cancelMill (s : State) (c : Nat) (o : MillOp) : State :=
  let (s1, n) := s.freeVal
  endMillOp s1 c o (millWord 0x0506 { o with fn := 0 } (n % 2 ^ 24))

/-- Do ranges of larder bytes hold a byte of bank `b` (R174)? -/
def bankIn (ss : List (Nat × Nat)) (b : Nat) : Bool :=
  ss.any fun p => decide (p.2 ≠ 0) && decide (p.1 / 32768 ≤ b) && decide (b ≤ (p.1 + p.2 - 1) / 32768)

/-- Do two sets of larder ranges share a bank? -/
def banksMeet (a b : List (Nat × Nat)) : Bool := (List.range 32).any fun i => bankIn a i && bankIn b i

/-- The larder bytes of a tile with its scales. -/
def Tile.larderSpans (t : Tile) : List (Nat × Nat) :=
  if t.larder then t.allSpans ++ t.scaleSpans 0 t.rows 0 t.cols else []

/-- The banks' worth of bytes that R191 compares: the stationary tile, the broadcast tile, and OUT. -/
def MillOp.statBytes (o : MillOp) : List (Nat × Nat) := o.statTile.larderSpans
def MillOp.beatBytes (o : MillOp) : List (Nat × Nat) := if o.fn = 0 then [] else o.beatTile.larderSpans
def MillOp.outBytes (o : MillOp) : List (Nat × Nat) := if o.fn = 0 then [] else (Tile.ofWord o.outTile).larderSpans

/-- Can two streams of the operation, or one of them and the drain of the operation queued before it, need two entries of one
bank in one cycle (R190, R191)? Which cycle is timing (log entry 61). -/
def MillOp.mayConflict (o : MillOp) (before : Option MillOp) : Bool :=
  let prev := (before.map (·.outBytes)).getD []
  banksMeet o.statBytes o.beatBytes || banksMeet o.statBytes o.outBytes || banksMeet o.beatBytes o.outBytes ||
  banksMeet (o.statBytes ++ o.beatBytes ++ o.outBytes) prev

/-- The fault that stops the front operation where it stands, if any. -/
def millFaultNow (s : State) (c : Nat) (o : MillOp) : Option W16 :=
  match millReach s c (if o.started then o else frontOp (s.core c) o) false with
  | (_, .fault st _) => some st
  | (_, .wait) => none
  | (s1, .ok) =>
    if decide (o.fn ≠ 0) && decide (o.block < o.geo.blocks) then
      (match (drainBlock s1 c o).2 with
       | 0 => none
       | w => some w)
    else none

/-- The operation that a fault status stops, with those queued behind it: the front one, or with a mill-port conflict the one
behind it, whose reads meet the drain of the front one's last block. -/
def faultedOp (s : State) (c : Nat) (status : W16) : List MillOp → Option (MillOp × List MillOp)
  | [] => none
  | o :: rest =>
    if (status = 0x0501 ∧ o.mayConflict none = true) ∨ millFaultNow s c o = some status then some (o, rest)
    else match rest with
      | p :: t => if status = 0x0501 ∧ o.onLast = true ∧ p.mayConflict (some o) = true then some (p, t) else none
      | [] => none

/-- The later operations of the group of a faulted one, which are cancelled (R140). -/
def laterMill (o : MillOp) (rest : List MillOp) : List MillOp :=
  rest.filter fun x => decide (x.slot = o.slot) && decide (x.ctx = o.ctx) && decide (x.gen = o.gen)

/-- MILL_FAULT (R140): a mill-port conflict, or the fault that an operand or output raises. The operation stops, the live
set and the held operand are dropped, later operations of the group are cancelled and the group parks. The discarded set
then holds zeros (DESIGN CHOICE, log entry 124). -/
def execMillFault (core : Nat) (status : W16) (s : State) : Host.Outcome State Fault Refusal :=
  match faultedOp s core status (s.core core).millQ with
  | none => .next s
  | some (o, rest) =>
    let (s1, n) := s.freeVal
    let s2 := s1.modCore core fun k => { k with held := none, hoppers := none, accum := fillSet k.accum k.liveSet o.geo.u [] }
    let s3 := endMillOp s2 core o (millWord status o (n % 2 ^ 24))
    let s4 := (laterMill o rest).foldl (fun s x => cancelMill s core x) s3
    .next (unitFault s4 { core := core, slot := o.slot } o.ctx o.gen status o.pc)

/-- The operations of a context stop (R142). -/
def abortMill (s : State) (ctx : Nat) : State :=
  s.cores.foldl (fun s e =>
    let mine := e.2.millQ.filter fun o => decide (o.ctx = ctx)
    mine.foldl (fun s o => cancelMill s e.1 o) s) s

/-! ## Debug access to the accumulators (R111, R121, R173) -/

/-- What MACC.RD and MACC.WR check: debug mode, alignment; they wait until the mill's queue is empty. -/
def maccBody (need : Need) (act : State → Grp → Group → Nat → Nat → State) (g : Grp) (f : RWord) (s : State) (k : Group) (_ : W32) : Res :=
  let v := (k.opS none f.a).toNat
  if k.debug = false then .fault 0x0505 k.pc.toNat 0
  else if v % 64 ≠ 0 then .fault 0x0403 v 0
  else if !(s.core g.core).millQ.isEmpty || sbOverlaps s g k.ctx [(v, 16384)] then .wait
  else match reach s (.core g.core) k.ctx need [(v, 16384)] with
    | (s1, .wait) => .stall s1
    | (_, .fault st x) => .fault st x 0
    | (s1, .ok) => .done (act s1 g k v (bits f.mod 3 0))

/-- The bytes of an accumulator tile, entry by entry (R173). -/
def tileBytes (c : Core) (tile : Nat) : List Byte :=
  (List.range 1024).flatMap fun i => vecBytes (tget 0 c.accum (1024 * tile + i))

/-- The accumulators with a tile loaded from bytes; any held operand is dropped (R132, R173). -/
def loadTile (c : Core) (tile : Nat) (bs : List Byte) : Core :=
  { c with
    held := none
    accum := (List.range 1024).foldl (fun m i => tset 0 m (1024 * tile + i) (BitVec.ofNat 128 (le bs (16 * i) 16))) c.accum }

/-- MACC.RD: the 1,024 entries of a tile as 16,384 bytes. -/
def execMaccRd (g : Grp) (f : RWord) (s : State) : Host.Outcome State Fault Refusal :=
  issue (unitIss s g f [.s, .z] (decide (bits f.mod 8 4 = 0))) g
    (maccBody .w (fun s g k v tile =>
      (virtWrite s (.core g.core) k.ctx v (tileBytes (s.core g.core) tile)).1) g f) s

/-- MACC.WR: load a tile; any held operand is dropped (R132). -/
def execMaccWr (g : Grp) (f : RWord) (s : State) : Host.Outcome State Fault Refusal :=
  issue (unitIss s g f [.s, .z] (decide (bits f.mod 8 4 = 0))) g
    (maccBody .r (fun s g k v tile =>
      s.modCore g.core fun c => loadTile c tile (s.virtBytes (.core g.core) k.ctx v 16384)) g f) s

end Sys2Proof.Machine
end

