-- ==== Sys2Proof/Machine/Sieve.lean ====
section
/-! DEFINITION. The sieve: sorted sets, hash probes, gather and scatter; and the application of a near-store atomic at a
home slice (R203 to R227). -/

namespace Sys2Proof.Machine

/-! ## The descriptor (*Table 8-2*, R206, R207) -/

def isSet (fn : Nat) : Bool := decide (fn ≤ 2)
/-- Bytes of a key. -/
def keyBytes (t : Tile) : Nat := fmtBits t.fmt / 8
def isKeys (t : Tile) : Bool := decide (t.fmt = 0x30) || decide (t.fmt = 0x31)
/-- Bytes of a probe table and of one slot (R212). -/
def slotBytes (t : Tile) : Nat := 2 * keyBytes t
def tableBytes (d : BitVec 512) (a : Tile) : Nat := 2 ^ bits d 295 288 * slotBytes a

/-- The descriptor's own fields: reserved ones and those of other operations are 0. -/
def sieveDescOk (fn : Nat) (d : BitVec 512) : Bool :=
  let z := fun (hi lo : Nat) => decide (bits d hi lo = 0)
  let probe := fn == 3
  let elem := decide (4 ≤ fn)
  decide (bits d 511 504 = 1) && decide (bits d 503 500 = fn) && z 423 416 && z 135 128 &&
  (isSet fn || z 499 499) && (probe || z 498 498) && (fn == 0 || fn == 2 || z 497 497) && (fn == 5 || z 496 496) &&
  (if elem then decide (2 ≤ bits d 495 488) && decide (bits d 495 488 ≤ 8) else z 495 488) &&
  (bit d 496 || z 487 480) && (isSet fn || fn == 5 || (z 415 360 && z 31 0)) &&
  (if probe then decide (1 ≤ bits d 359 352) && decide (4 ≤ bits d 295 288) && decide (bits d 295 288 ≤ 32) else z 359 352 && z 295 288) &&
  (if fn == 5 then z 351 296 else if fn == 4 then !z 351 296 else true) &&
  (!z 287 256 || z 255 192) && (probe || elem || z 191 136) && (elem || z 127 64) &&
  (!bit d 496 || ((bits d 495 488 == 2 || bits d 495 488 == 3) &&
    atomListed (bits d 487 480) 1 (if bits d 495 488 = 2 then 4 else 5) && decide (bits d 487 480 ≠ 9)))

/-- The tiles that a descriptor names, in the order A, B, OUT; an absent one is 0. -/
def sieveTiles (fn : Nat) (d : BitVec 512) : List Nat :=
  [bits d 479 424] ++ (if isSet fn || fn == 5 then [bits d 415 360] else []) ++ (if bits d 351 296 = 0 then [] else [bits d 351 296])

/-- The descriptor together with its tiles (R207). -/
def sieveOk (fn : Nat) (d ad bd od : BitVec 512) : Bool :=
  let a := Tile.ofWord ad
  let b := Tile.ofWord bd
  let o := Tile.ofWord od
  let hasB := isSet fn || fn == 5
  let hasO := decide (bits d 351 296 ≠ 0)
  let size := 2 ^ bits d 495 488
  tileOk ad && !a.colMajor && isKeys a && decide (bits d 63 32 ≤ a.rows * a.cols) &&
  (!hasB || (tileOk bd && !b.colMajor && decide (bits d 31 0 ≤ b.rows * b.cols))) &&
  (!hasB || decide (b.fmt = a.fmt)) &&
  (!hasO || (tileOk od && !o.colMajor)) &&
  (!hasO || !isSet fn || decide (o.fmt = if bit d 497 then 0x30 else a.fmt)) &&
  (!(fn == 3) || (decide (bits d 191 136 % min 128 (tableBytes d a) = 0) && (!hasO || decide (o.fmt = a.fmt)))) &&
  (!decide (4 ≤ fn) || decide (bits d 191 136 % size = 0)) &&
  (!(fn == 4) || decide (size ≤ o.lineBytes)) &&
  (!(fn == 5) || (decide (size ≤ b.lineBytes) && decide (bits d 63 32 ≤ b.rows))) &&
  (!hasO || (!(a.overlaps o.larder o.allSpans) && !(hasB && b.overlaps o.larder o.allSpans) &&
    !(fn == 3 && (bit d 498 == o.larder) && o.allSpans.any fun p => decide (p.1 < bits d 191 136 + tableBytes d a) && decide (bits d 191 136 < p.1 + p.2))))

/-- Larder ranges an operation takes entries for (R222). -/
def sieveRanges (fn : Nat) (d : BitVec 512) (a b o : Tile) : List (Bool × Nat × Nat) :=
  let rd := fun (use : Bool) (w : Bool) (t : Tile) => if use && t.larder then [(w, t.base, t.stop)] else []
  rd true false a ++ rd (isSet fn || fn == 5) false b ++ rd (decide (bits d 351 296 ≠ 0)) true o ++
  (if fn == 3 && bit d 498 then [(false, bits d 191 136, bits d 191 136 + tableBytes d a)] else [])

/-- A sieve operation as accepted. -/
def newSieveOp (fn : Nat) (g : Grp) (f : RWord) (k : Group) (seq : Nat) (d ad bd od : BitVec 512) : SieveOp :=
  { slot := g.slot, ctx := k.ctx, gen := k.gen, seq := seq, fn := fn, pc := k.pc, dst := f.dst, desc := d,
    aTile := ad, bTile := bd, outTile := od }

/-- The core after the acceptance (R204, R222). -/
def acceptSieve (c : Core) (g : Grp) (op : SieveOp) (rs : List (Bool × Nat × Nat)) : Core :=
  { c with seq := op.seq, sieveQ := c.sieveQ ++ [op],
           scores := c.scores ++ rs.map fun r => scoreOf 1 g.slot op.seq r.1 r.2.1 r.2.2 }

/-- The descriptors of A, B and OUT among the tiles read, 0 where the operation has none. -/
def sieveTileA (ts : List (BitVec 512)) : BitVec 512 := (nth? ts 0).getD 0
def sieveTileB (fn : Nat) (ts : List (BitVec 512)) : BitVec 512 := if isSet fn || fn == 5 then (nth? ts 1).getD 0 else 0
def sieveTileOut (fn : Nat) (d : BitVec 512) (ts : List (BitVec 512)) : BitVec 512 :=
  if bits d 351 296 = 0 then 0 else (nth? ts (if isSet fn || fn == 5 then 2 else 1)).getD 0

def sieveBody (fn : Nat) (g : Grp) (f : RWord) (s : State) (k : Group) (_ : W32) : Res :=
  let invalid := Res.fault 0x0502 k.pc.toNat 0
  let v := (k.opS none f.a).toNat
  if 4 ≤ (s.core g.core).sieveQ.length then .wait else
  match readDescs g k invalid s [v] with
  | (_, .inl r) => r
  | (s1, .inr ds) =>
    let d := ds.headD 0
    if sieveDescOk fn d = false then invalid else
    match readDescs g k invalid s1 (sieveTiles fn d) with
    | (_, .inl r) => r
    | (s2, .inr ts) =>
      let ad := sieveTileA ts
      let bd := sieveTileB fn ts
      let od := sieveTileOut fn d ts
      if sieveOk fn d ad bd od = false then invalid else
      let rs := sieveRanges fn d (.ofWord ad) (.ofWord bd) (.ofWord od)
      let c := s2.core g.core
      if 16 < c.scores.length + rs.length then .wait else
      .done ((s2.setCore g.core (acceptSieve c g (newSieveOp fn g f k (c.seq + 1) d ad bd od) rs)).setGroup g
        { k with units := k.units ++ regsOf f.dst 1 })

def sieveIssue (fn : Nat) (g : Grp) (f : RWord) (s : State) : Host.Outcome State Fault Refusal :=
  issue (unitIss s g f [.s, .z] (decide (f.mod = 0))) g (sieveBody fn g f) s

/-- SIV.ISECT (*Table 8-1*). -/
def execSivIsect (g : Grp) (f : RWord) (s : State) : Host.Outcome State Fault Refusal := sieveIssue 0 g f s
/-- SIV.UNION. -/
def execSivUnion (g : Grp) (f : RWord) (s : State) : Host.Outcome State Fault Refusal := sieveIssue 1 g f s
/-- SIV.DIFF. -/
def execSivDiff (g : Grp) (f : RWord) (s : State) : Host.Outcome State Fault Refusal := sieveIssue 2 g f s
/-- SIV.PROBE. -/
def execSivProbe (g : Grp) (f : RWord) (s : State) : Host.Outcome State Fault Refusal := sieveIssue 3 g f s
/-- SIV.GATHER. -/
def execSivGather (g : Grp) (f : RWord) (s : State) : Host.Outcome State Fault Refusal := sieveIssue 4 g f s
/-- SIV.SCATTER. -/
def execSivScatter (g : Grp) (f : RWord) (s : State) : Host.Outcome State Fault Refusal := sieveIssue 5 g f s

/-! ## Sorted sets (R208 to R210) -/

/-- Merge two sorted inputs (key, position) until an input that stops at a bad key has been used up. -/
def mergeSets (fn : Nat) (aBad bBad : Bool) : Nat → List (Nat × Nat) → List Nat → List (Nat × Nat)
  | 0, _, _ => []
  | _ + 1, [], bs => if aBad then [] else if fn = 1 then bs.map fun b => (b, 0) else []
  | _ + 1, as, [] => if bBad then [] else if fn = 0 then [] else as
  | n + 1, (a, i) :: as, b :: bs =>
    if a = b then (if fn = 2 then mergeSets fn aBad bBad n as bs else (a, i) :: mergeSets fn aBad bBad n as bs)
    else if a < b then (if fn = 0 then mergeSets fn aBad bBad n as (b :: bs) else (a, i) :: mergeSets fn aBad bBad n as (b :: bs))
    else (if fn = 1 then (b, 0) :: mergeSets fn aBad bBad n ((a, i) :: as) bs else mergeSets fn aBad bBad n ((a, i) :: as) bs)

/-! ## What an operation writes -/

/-- A write that an operation performs at its end, or a near-store atomic. -/
inductive SWrite where
  | put (larder : Bool) (v : Nat) (bs : List Byte)
  | atom (v : Nat) (aop n : Nat) (val : Nat)
  deriving DecidableEq, Repr

/-- The flags of *Table 8-4*. -/
structure SFlags where
  range : Bool
  longp : Bool
  trunc : Bool
  deriving DecidableEq, Repr

def SFlags.none : SFlags := { range := false, longp := false, trunc := false }

/-- Flags of `a`, and those of `b` that a free value chooses. -/
def SFlags.some (a b : SFlags) (n : Nat) : SFlags :=
  { range := a.range || (b.range && decide (n % 2 = 1)), longp := a.longp || (b.longp && decide (n / 2 % 2 = 1))
    trunc := a.trunc || (b.trunc && decide (n / 4 % 2 = 1)) }

/-- An operation as far as it has come: translations made, writes planned, the fields of *Table 8-4*, what stopped it.
Elements beyond the one that stopped it may be under way: `all` has their flags too. -/
structure SRun where
  s : State
  ws : List SWrite
  count : Nat
  flags : SFlags
  all : SFlags
  unsorted : Bool
  stop : Reach

def SRun.start (s : State) (stop : Reach) : SRun :=
  { s := s, ws := [], count := 0, flags := .none, all := .none, unsorted := false, stop := stop }

/-- Reach a range; what stops the run stays. -/
def SRun.reach (r : SRun) (c ctx : Nat) (larder : Bool) (need : Need) (v n : Nat) : SRun :=
  if r.stop ≠ .ok then r else
  let (s1, st) := unitReach r.s c ctx larder need [(v, n)]
  { r with s := s1, stop := st }

def SRun.put (r : SRun) (w : SWrite) : SRun := if r.stop = .ok then { r with ws := r.ws ++ [w] } else r

/-- One element of an operation. The first element that stops stops the operation (R220). -/
def SRun.elem (r : SRun) (f : SRun → SRun) : SRun :=
  let x := f { r with stop := .ok }
  { x with
    stop := if r.stop = .ok then x.stop else r.stop
    flags := if r.stop = .ok then x.all else r.flags }

/-- Key `i` of a tile, reached and read. -/
def SRun.key (r : SRun) (c ctx : Nat) (t : Tile) (i : Nat) : SRun × Nat :=
  let (a, m, _) := t.elemAt (i / t.cols) (i % t.cols)
  let r1 := r.reach c ctx t.larder .r a m
  (r1, if r1.stop = .ok then t.key r1.s c ctx i else 0)

/-- Write element `i` of OUT, or count it as beyond the capacity (R210). -/
def SRun.outKey (r : SRun) (c ctx : Nat) (use : Bool) (o : Tile) (i v : Nat) : SRun :=
  if use = false then r
  else if o.rows * o.cols ≤ i then { r with all := { r.all with trunc := true } }
  else
    let (a, n, _) := o.elemAt (i / o.cols) (i % o.cols)
    (r.reach c ctx o.larder .w a n).put (.put o.larder a (leBytes n v))

/-- One input of a set operation: the keys read so far, whether its last key has been read, and whether it stops at a key
that is not greater than the one before, or that cannot be read (R208). -/
structure SInput where
  tile : Tile
  count : Nat
  keys : List Nat
  stopped : Bool

/-- Read the next key of an input. -/
def SInput.next (x : SInput) (r : SRun) (c ctx : Nat) : SRun × SInput :=
  if x.count ≤ x.keys.length then (r, x) else
  let (r1, v) := r.key c ctx x.tile x.keys.length
  if r1.stop ≠ .ok then (r1, { x with stopped := true })
  else match x.keys.getLast? with
    | some w => if v ≤ w then ({ r1 with unsorted := true }, { x with stopped := true }) else (r1, { x with keys := x.keys ++ [v] })
    | none => (r1, { x with keys := [v] })

/-- Read both inputs in the order of the merge: at each step the input whose last key read is the smaller goes on, both when
they are equal, the other one when one has ended; an input that stops ends the reading (R208). -/
def readSets (c ctx : Nat) : Nat → SRun → SInput → SInput → SRun × SInput × SInput
  | 0, r, x, y => (r, x, y)
  | n + 1, r, x, y =>
    let xEnd := decide (x.count ≤ x.keys.length)
    let yEnd := decide (y.count ≤ y.keys.length)
    if x.stopped || y.stopped || (xEnd && yEnd) then (r, x, y) else
    let goX := !xEnd && (yEnd || (match x.keys.getLast?, y.keys.getLast? with
      | some a, some b => decide (a ≤ b)
      | none, _ => true
      | _, none => false))
    let goY := !yEnd && (xEnd || (match x.keys.getLast?, y.keys.getLast? with
      | some a, some b => decide (b ≤ a)
      | _, none => true
      | none, _ => false))
    let (r1, x1) := if goX then x.next r c ctx else (r, x)
    let (r2, y1) := if goY && !x1.stopped then y.next r1 c ctx else (r1, y)
    readSets c ctx n r2 x1 y1

def runSet (op : SieveOp) (c : Nat) (r : SRun) : SRun :=
  let na := bits op.desc 63 32
  let nb := bits op.desc 31 0
  let (r1, x, y) := readSets c op.ctx (na + nb + 1) r { tile := .ofWord op.aTile, count := na, keys := [], stopped := false }
    { tile := .ofWord op.bTile, count := nb, keys := [], stopped := false }
  let res := mergeSets op.fn x.stopped y.stopped (x.keys.length + y.keys.length + 1) (x.keys.zip (List.range x.keys.length)) y.keys
  let use := decide (bits op.desc 351 296 ≠ 0)
  let r2 := ((List.range res.length).zip res).foldl (fun (r : SRun) z =>
    r.elem fun r => r.outKey c op.ctx use (.ofWord op.outTile) z.1 (if bit op.desc 497 then z.2.2 else z.2.1)) r1
  { r2 with count := res.length }

/-- The home slot of a key (R213). -/
def homeSlot (k32 : Bool) (log2 x : Nat) : Nat :=
  if k32 then (x * 0x9E3779B9) % 2 ^ 32 / 2 ^ (32 - log2) else (x * 0x9E3779B97F4A7C15) % 2 ^ 64 / 2 ^ (64 - log2)

/-- Examine slots in order until a hit, an empty slot, or the limit of lines (R214): none for the limit. -/
def probeFrom (r : SRun) (c ctx : Nat) (larder : Bool) (base log2 kb x : Nat) : Nat → Nat → SRun × Option (Option Nat)
  | 0, _ => (r, none)
  | n + 1, slot =>
    let a := base + slot % 2 ^ log2 * (2 * kb)
    let r1 : SRun := if larder && decide (2 ^ 20 < a + 2 * kb) then { r with stop := .fault 0x0405 a } else r.reach c ctx larder .r a (2 * kb)
    if r1.stop ≠ .ok then (r1, none) else
    let bs := unitBytes r1.s c ctx larder a (2 * kb)
    let key := le bs 0 kb
    if key = x then (r1, some (some (le bs kb kb)))
    else if key = 2 ^ (8 * kb) - 1 then (r1, some none)
    else probeFrom r1 c ctx larder base log2 kb x n (slot + 1)

/-- One probe key (R214): its element of OUT, whether it hit, whether it reached the limit. -/
def probeKey (r : SRun) (op : SieveOp) (c x : Nat) : SRun × Nat × Bool :=
  let a := Tile.ofWord op.aTile
  let kb := keyBytes a
  let ones := 2 ^ (8 * kb) - 1
  if x = ones then (r, ones, false) else
  let log2 := bits op.desc 295 288
  let home := homeSlot (kb == 4) log2 x
  let per := 128 / slotBytes a
  match probeFrom r c op.ctx (bit op.desc 498) (bits op.desc 191 136) log2 kb x
      (per - home % per + (bits op.desc 359 352 - 1) * per) home with
  | (r1, some (some v)) => (r1, v, true)
  | (r1, some none) => (r1, ones, false)
  | (r1, none) => (if r1.stop = .ok then { r1 with all := { r1.all with longp := true } } else r1, ones, false)

/-- The indices or probe keys of an operation, each with its number. -/
def eachKey (op : SieveOp) (c : Nat) (r : SRun) (f : SRun → Nat → Nat → SRun) : SRun :=
  (List.range (bits op.desc 63 32)).foldl (fun (r : SRun) i => r.elem fun r =>
    let (r1, x) := r.key c op.ctx (.ofWord op.aTile) i
    if r1.stop = .ok then f r1 i x else r1) r

def runProbe (op : SieveOp) (c : Nat) (r : SRun) : SRun :=
  eachKey op c r fun r i x =>
    let (r2, v, hit) := probeKey r op c x
    let r3 := r2.outKey c op.ctx (decide (bits op.desc 351 296 ≠ 0)) (.ofWord op.outTile) i v
    { r3 with count := r3.count + (if hit then 1 else 0) }

/-- Is an index out of range (R215)? -/
def outOfRange (d : BitVec 512) (i : Nat) : Bool := decide (bits d 127 64 ≠ 0) && decide (bits d 127 64 ≤ i)

def runGather (op : SieveOp) (c : Nat) (r : SRun) : SRun :=
  let size := 2 ^ bits op.desc 495 488
  let o := Tile.ofWord op.outTile
  eachKey op c r fun r i x =>
    let dest := o.base + i * o.stride
    let write := fun (r : SRun) (bs : List Byte) =>
      if o.rows ≤ i then { r with all := { r.all with trunc := true } } else (r.reach c op.ctx o.larder .w dest size).put (.put o.larder dest bs)
    if outOfRange op.desc x then
      let r1 := write r (zeros size)
      if r1.stop = .ok then { r1 with all := { r1.all with range := true } } else r1
    else
      let v := bits op.desc 191 136 + x * size
      let r2 := r.reach c op.ctx false .r v size
      let r3 := if r2.stop = .ok then write r2 (unitBytes r2.s c op.ctx false v size) else r2
      { r3 with count := r3.count + 1 }

def runScatter (op : SieveOp) (c : Nat) (r : SRun) : SRun :=
  let size := 2 ^ bits op.desc 495 488
  let b := Tile.ofWord op.bTile
  eachKey op c r fun r i x =>
    if outOfRange op.desc x then { r with all := { r.all with range := true } } else
    let v := bits op.desc 191 136 + x * size
    let src := b.base + i * b.stride
    let r2 := (r.reach c op.ctx b.larder .r src size).reach c op.ctx false (if bit op.desc 496 then .rw else .w) v size
    let bs := if r2.stop = .ok then unitBytes r2.s c op.ctx b.larder src size else []
    let r3 := r2.put (if bit op.desc 496 then .atom v (bits op.desc 487 480) size (leNat bs) else .put false v bs)
    { r3 with count := r3.count + 1 }

/-- Near-store atomics of the operation's group that are on their way: a scatter's atomics follow them (R225). -/
def atomicsAhead (s : State) (c : Nat) (op : SieveOp) : Bool :=
  op.atomic && (s.core c).nsa.any fun r => decide (r.slot = op.slot) && decide (r.ctx = op.ctx)

/-- Ranges of the inputs that the store buffer or the scoreboard may hold (R195, R205). -/
def sieveHeld (s : State) (c : Nat) (op : SieveOp) : Bool :=
  let a := Tile.ofWord op.aTile
  let b := Tile.ofWord op.bTile
  let o := Tile.ofWord op.outTile
  let g : Grp := { core := c, slot := op.slot }
  let inp := fun (t : Tile) => if t.larder then scoreEarlier (s.core c) op.seq false [(t.base, t.stop - t.base)] else sbOverlaps s g op.ctx t.allSpans
  let tb := (bits op.desc 191 136, tableBytes op.desc a)
  inp a || ((isSet op.fn || op.fn == 5) && inp b) ||
  (decide (bits op.desc 351 296 ≠ 0) && o.larder && scoreEarlier (s.core c) op.seq true [(o.base, o.stop - o.base)]) ||
  (op.fn == 3 && (if bit op.desc 498 then scoreEarlier (s.core c) op.seq false [tb] else sbOverlaps s g op.ctx [tb])) ||
  (op.fn == 4 && !(s.sbOf g).isEmpty) || atomicsAhead s c op

/-- Run an operation as far as it comes. -/
def sieveRun (s : State) (c : Nat) (op : SieveOp) : SRun :=
  if sieveHeld s c op then .start s .wait else
  let r := SRun.start s .ok
  match op.fn with
  | 3 => runProbe op c r
  | 4 => runGather op c r
  | 5 => runScatter op c r
  | _ => runSet op c r

/-! ## Near-store atomics (R223 to R227, R249, R251) -/

/-- Apply a near-store atomic at its home, plain or in an epoch: the state after, the status of a refused write, and the
old value. -/
def nearApply (s : State) (e : Option Nat) (pa aop n val cmp : Nat) : State × W16 × Nat :=
  let old := leNat (s.read e pa n)
  let (s1, st) := s.unitWrite e pa (leBytes n (atomicResult aop (8 * n) old val cmp))
  if st = 0 then (s1, 0, old) else (s, st, old)

/-- Perform one write of a sieve operation (R205, R216). -/
def sievePut (s : State) (c ctx : Nat) : SWrite → State × W16
  | .put larder v bs => unitPut s c ctx larder v bs
  | .atom v aop n val => match s.peek (.core c) ctx v with
    | some (pa, leaf) => let (s1, st, _) := nearApply s (s.epochOf ctx leaf) pa aop n val 0; (s1, st)
    | none => (s, 0x0401)

/-- Perform the writes in order; the first that an epoch refuses stops them (R257). -/
def sievePuts (s : State) (c ctx : Nat) (ws : List SWrite) : State × W16 :=
  ws.foldl (fun (acc : State × W16) w => if acc.2 ≠ 0 then acc else sievePut acc.1 c ctx w) (s, 0)

/-! ## Ends of operations (R218 to R221, *Table 8-4*) -/

def sieveWord (status : W16) (f : SFlags) (count : Nat) : W64 :=
  w64 (status.toNat * 2 ^ 48 + bitAt f.range 43 + bitAt f.longp 42 + bitAt f.trunc 41 + min count 0xFFFFFFFFFF)

def endSieveOp (s : State) (c : Nat) (o : SieveOp) (w : W64) : State :=
  deliverWord (s.modCore c fun k => releaseScores { k with sieveQ := k.sieveQ.filter fun x => decide (x.seq ≠ o.seq) } o.seq)
    { core := c, slot := o.slot } o.ctx o.gen o.dst w

/-- SIEVE_COMPLETE: the front operation has ended; UNSORTED is an outcome (R208, R218, R219). Until then OUT and the scatter's
targets hold their old bytes (DESIGN CHOICE, log entry 139). -/
def execSieveComplete (core : Nat) (s : State) : Host.Outcome State Fault Refusal :=
  match (s.core core).sieveQ with
  | [] => .next s
  | o :: _ =>
    let r := sieveRun s core o
    match r.stop with
    | .ok => match sievePuts r.s core o.ctx r.ws with
      | (s1, w) =>
        if w ≠ 0 then .next s else
        .next (raiseTally (endSieveOp (countUp s1 0 core 12 (bits o.desc 63 32 + bits o.desc 31 0)) core o (sieveWord (if r.unsorted then 0x0507 else 0) r.flags r.count)) o.ctx (bits o.desc 287 256) (bits o.desc 255 192))
    | .wait => .next r.s
    | .fault _ _ => .next s

/-- An operation completes with 0x0506 and no effect. -/
def cancelSieve (s : State) (c : Nat) (o : SieveOp) : State := endSieveOp s c o (w64 (0x0506 * 2 ^ 48))

/-- The fault of the front operation, if it has one. -/
def sieveFaultNow (s : State) (c : Nat) (o : SieveOp) : Option W16 :=
  let r := sieveRun s c o
  match r.stop with
  | .fault st _ => some st
  | .wait => none
  | .ok => match (sievePuts r.s c o.ctx r.ws).2 with
    | 0 => none
    | w => some w

/-- The writes that a stopped operation had performed: any subset, which a free value chooses (R220, log entry 1). -/
def someWrites (n : Nat) (ws : List SWrite) : List SWrite :=
  ((List.range ws.length).zip ws).filterMap fun p => if n / 2 ^ p.1 % 2 = 1 then some p.2 else none

/-- The later operations of the group of a faulted one, which are cancelled (R220). -/
def laterSieve (o : SieveOp) (rest : List SieveOp) : List SieveOp :=
  rest.filter fun x => decide (x.slot = o.slot) && decide (x.ctx = o.ctx) && decide (x.gen = o.gen)

/-- Perform what a stopped operation had already sent. -/
def sentWrites (c : Nat) (o : SieveOp) (r : SRun) : State :=
  let (s1, n) := r.s.freeVal
  (someWrites n r.ws).foldl (fun s w => (sievePut s c o.ctx w).1) s1

/-- SIEVE_FAULT (R220): the operation stops, its flags are those of the elements before the fault and perhaps of later ones, later operations of the group are cancelled, the group parks. -/
def execSieveFault (core : Nat) (status : W16) (s : State) : Host.Outcome State Fault Refusal :=
  match (s.core core).sieveQ with
  | [] => .next s
  | o :: rest =>
    if sieveFaultNow s core o ≠ some status then .next s else
    let r := sieveRun s core o
    let (s2, m) := (sentWrites core o r).freeVal
    let s4 := endSieveOp s2 core o (sieveWord status (r.flags.some r.all (m / 2 ^ 40)) (m % 2 ^ 40))
    let s5 := (laterSieve o rest).foldl (fun s x => cancelSieve s core x) s4
    .next (unitFault s5 { core := core, slot := o.slot } o.ctx o.gen status o.pc)

/-- The operation at the front is running: what it has already sent stays performed (R221). -/
def stopSieve (s : State) (c : Nat) (o : SieveOp) : State := cancelSieve (sentWrites c o (sieveRun s c o)) c o

/-- The operations of a context stop (R221). -/
def abortSieve (s : State) (ctx : Nat) : State :=
  s.cores.foldl (fun s e =>
    (e.2.sieveQ.filter fun o => decide (o.ctx = ctx)).foldl (fun s o =>
      if (e.2.sieveQ.head?.map (·.seq)) = some o.seq then stopSieve s e.1 o else cancelSieve s e.1 o) s) s

end Sys2Proof.Machine
end

