-- ==== Sys2Proof/Machine/Granary.lean ====
section
/-! DEFINITION. A home slice: lookups, fills and evictions by the attribute's policy, writes in epochs, near-store
atomics, folding, sealing and gating, the patrol scrub, and what error checking reports (R229 to R245, R249, R257 to
R265, R434 to R440, R448). The data of cache lines is the home view of memory (log entry 6). -/

namespace Sys2Proof.Machine

/-! ## Error checking (R434, R435, R438, R449) -/

/-- The die number of a compute die, and of the cellar die of an address, as event records name them. -/
def dieCD (c : Nat) : BitVec 8 := BitVec.ofNat 8 (0x10 + dieOfCore c)
def dieCL (d : Nat) : BitVec 8 := BitVec.ofNat 8 (0x42 + d)

/-- UNIT, DIE, INDEX of the store that holds an address, and its number in *Table 17-12*. -/
def State.storeOf (s : State) (pa : Nat) : BitVec 8 × BitVec 8 × W16 × Nat :=
  match s.placeOf pa with
  | .hbm g _ => (0x06, BitVec.ofNat 8 (hallOfGroup g), BitVec.ofNat 16 g, 0)
  | .cellar g d _ => (0x07, dieCL d, BitVec.ofNat 16 g, 1)
  | .bin h off => (0x04, BitVec.ofNat 8 h, BitVec.ofNat 16 (binBank off), 3)
  | _ => (0x10, 0xFF, 0xFFFF, 2)

/-- The block of a sealed or open commons that an address lies in. -/
def State.commonsBlock (s : State) (pa : Nat) : Option (Nat × Nat) :=
  s.objs.findSome? fun e => if e.2.commons then
    ((List.range e.2.pages.length).zip e.2.pages).findSome? fun p =>
      if p.2.toNat ≤ pa ∧ pa < p.2.toNat + e.2.page then some (e.1, (p.1 * e.2.page + (pa - p.2.toNat)) / 65536) else none
  else none

/-- A sector becomes poisoned; a commons block with a poisoned sector is REPAIRING (R438, R449). -/
def poisonSector (s : State) (pa : Nat) : State :=
  let s1 := { s with poison := addOnce (sectorNo pa) s.poison }
  match s.commonsBlock pa with
  | some (o, b) => match tfind s1.objs o with
    | some _ => { s1 with repairs := addOnce (o, b) s1.repairs }
    | none => s1
  | none => s1

/-- What the check bits of a sector said (R434, R435): a correction is counted and recorded, with a syndrome the model
leaves free; an uncorrectable error is counted and poisons the sector. The Reeve records a commons block that becomes
REPAIRING (*Table 16-5*, log entry 145). -/
def eccOutcome (s : State) (pa : Nat) (store : BitVec 8 × BitVec 8 × W16 × Nat) (ecc : Ecc) : State :=
  match ecc with
  | .clean => s
  | .corrected =>
    let (s1, n) := (lifeUp s (6 + store.2.2.2) 1).freeVal
    logEvent s1 { mkEvent s1 0 0x0704 store.1 store.2.1 store.2.2.1 with phys := BitVec.ofNat 48 pa, detail := w64 n }
  | .uncorrectable =>
    let s1 := poisonSector (lifeUp s (16 + store.2.2.2) 1) pa
    if s1.repairs = s.repairs then s1 else
    let (s2, n) := s1.freeVal
    withSyndrome s2 { mkEvent s2 1 (BitVec.ofNat 16 n) store.1 store.2.1 store.2.2.1 with phys := BitVec.ofNat 48 pa }

/-! ## Reads and writes that reach a slice (R237 to R244) -/

/-- What a slice answers first: nothing but COHERENCE_LOST in a partition that is down, else its own check (R264, R266,
R326). -/
def State.sliceStatus (s : State) (ctx pa : Nat) : W16 :=
  if (s.ctx? ctx).isSome ∧ (s.part (s.ctxPart ctx)).state = .down then 0x0713 else s.homeStatus pa

/-- The requester's unit and die in an event record. -/
def unitOfClass (cls : RClass) (core : Nat) : BitVec 8 × BitVec 8 × W16 :=
  match cls with
  | .core | .pref | .unit => if core < Config.cores then (0x01, dieCD core, BitVec.ofNat 16 core) else (0x01, 0xFF, 0xFFFF)
  | .dma => (0x0A, 0xFF, 0xFFFF)
  | .port => (0x0E, 0x40, 0xFFFF)
  | .walk => (0x0B, BitVec.ofNat 8 (hallOfCore core), 0xFFFF)

/-- A rejected request is answered and recorded, and its context is lost (R264, R448). A request of a context that is
DESTROYING is dropped, and a down partition's requests are only answered (R326, R375). -/
def rejectRequest (s : State) (cls : RClass) (core ctx pa : Nat) (st : W16) : State :=
  let s1 := s.emit (.home core ctx st 0)
  match s.ctx? ctx with
  | none => s1
  | some c =>
    if c.state = .destroying then s
    else if st = 0x0713 then s1
    else
      let u := unitOfClass cls core
      let s2 := eventCtx s1 2 st u.1 u.2.1 u.2.2 ctx pa 0
      if cls = .pref then s2 else addLoss s2 ctx st 0xFFFF 0 (w64 pa) true

/-- The line that a read of the committed view returns. -/
def State.viewLine (s : State) (pa : Nat) : Line := lineOf fun i => s.readByte none (pa / 128 * 128 + i)

def answerRead (s : State) (core ctx pa : Nat) : State :=
  s.emit (.home core ctx (if s.poisoned none (pa / 32 * 32) 32 then 0x0701 else 0) (s.viewLine pa))

/-- Has a write joined the fill? A later read of the line waits for it (R241). -/
def Fill.hasWrite (f : Fill) : Bool := f.joined.any fun
  | .write _ _ _ _ => true
  | .read _ _ _ => false

/-- A request joins the fill of its line (R241). -/
def joinFill (s : State) (h l : Nat) (j : Joined) (wb : Bool) : State :=
  let sl := s.slice h
  s.setSlice h { sl with fills := sl.fills.map fun (f : Fill) =>
    if f.line = l then { f with joined := f.joined ++ [j], dirty := f.dirty || wb } else f }

/-- A read that misses: join, fill and allocate, or go to memory (*Table 9-4*, R237, R241 to R243). A read that joins for a
sector that has come is answered at once. -/
def readMiss (s : State) (cls : RClass) (core ctx h pa : Nat) (alloc : Bool) (ecc : Ecc) : State :=
  let l := lineNo pa
  let sl := s.slice h
  let j := Joined.read core ctx (pa % 128 / 32)
  match sl.filling l with
  | some f =>
    if f.got.getLsbD (pa % 128 / 32) && !f.hasWrite then answerRead s core ctx pa
    else missNotice (joinFill s h l j false) cls core l
  | none =>
    match (if alloc then pickWay sl (s.fillWays h cls (s.commonsAddr pa)) l else none) with
    | some w => missNotice (charge (startFill s h l w (pa % 128 / 32) [j] false) core pa 128) cls core l
    | none => answerRead (eccOutcome (charge (addHeat s h pa) core pa 128) pa (s.storeOf pa) ecc) core ctx pa

/-- HOME_READ (R244): the home first takes the line back from an owner (R323). `ecc` is what the check bits of the sector
read said, in the cache way, the bin or memory. -/
def execHomeRead (cls : RClass) (core ctx : Nat) (attr : BitVec 3) (pa : PAddr) (ecc : Ecc) (s : State) :
    Host.Outcome State Fault Refusal :=
  let p := pa.toNat
  let st := s.sliceStatus ctx p
  let h := s.homeOf p
  let l := lineNo p
  if s.power.st ≠ .ready ∨ 4 ≤ attr.toNat ∨ (s.placeOf p).isDevice = true then .next s
  else if st ≠ 0 then .next (rejectRequest s cls core ctx p st)
  else if s.homeIdle l false = false then .next (homeCall s l false)
  else
    match s.placeOf p with
    | .bin _ _ => .next (answerRead (eccOutcome s p (s.storeOf p) ecc) core ctx p)
    | _ =>
      match (s.slice h).hit l with
      | some x =>
        let way := (0x04, BitVec.ofNat 8 h, BitVec.ofNat 16 (16 * x.way + setOf l % 16), 2)
        if attr = 3 then .next (answerRead (eccOutcome (dropLine s h l) p (s.storeOf p) ecc) core ctx p)
        else if ecc = .uncorrectable ∧ x.dirty = false then
          .next (readMiss (lifeUp (dropLine s h l) 18 1) cls core ctx h p (decide (attr.toNat ≤ 1)) .clean)
        else .next (answerRead (eccOutcome (countUp (touchLine s h l false) 1 h 0 1) p way ecc) core ctx p)
      | none => .next (readMiss s cls core ctx h p (decide (attr.toNat ≤ 1)) ecc)

/-- The write is performed and acknowledged. -/
def writeDone (s : State) (core ctx p : Nat) (data : List Byte) : State := (s.write p data).emit (.home core ctx 0 0)

/-- A write of part of a line that allocates, or whose line is being filled, waits for the fill (R241, *Table 9-4*). -/
def writeWaits (s : State) (cls : RClass) (attr p n : Nat) : Bool :=
  let sl := s.slice (s.homeOf p)
  decide (attr ≤ 1) && ((sl.filling (lineNo p)).isSome ||
    (decide (n ≠ 128) && (pickWay sl (s.fillWays (s.homeOf p) cls (s.commonsAddr p)) (lineNo p)).isSome))

/-- A write that misses: it joins the fill of its line, starts one, or is performed (R241, *Table 9-4*). -/
def homeWriteMiss (s : State) (cls : RClass) (core ctx attr p : Nat) (data : List Byte) : State :=
  let h := s.homeOf p
  let s1 := writeMiss s cls attr p data.length
  if writeWaits s cls attr p data.length then joinFill s1 h (lineNo p) (.write core ctx p data) false
  else writeDone s1 core ctx p data

/-- HOME_WRITE (R244): the bytes of one line, acknowledged by the attribute's policy. The home first removes every cached
copy (R323); a write to a victim whose write is not accepted yet waits (R240); one that hits a line of a sealed way writes
it to memory, invalidates it and is a miss (R263). -/
def execHomeWrite (cls : RClass) (core ctx : Nat) (attr : BitVec 3) (pa : PAddr) (data : List Byte) (s : State) :
    Host.Outcome State Fault Refusal :=
  let p := pa.toNat
  let st := s.sliceStatus ctx p
  let h := s.homeOf p
  let l := lineNo p
  if s.power.st ≠ .ready ∨ 4 ≤ attr.toNat ∨ (s.placeOf p).isDevice = true ∨ data = [] ∨ 128 < p % 128 + data.length then .next s
  else if st ≠ 0 then .next (rejectRequest s cls core ctx p st)
  else if s.homeIdle l true = false then .next (homeCall s l true)
  else
    match s.placeOf p with
    | .bin _ _ => .next (writeDone s core ctx p data)
    | _ =>
      match (s.slice h).hit l with
      | some x =>
        if attr ≠ 3 ∧ (s.seal? (.cacheWay h x.way)).isSome = true then .next (homeWriteMiss (dropLine s h l) cls core ctx attr.toNat p data)
        else .next (writeDone (homeWrite s cls attr.toNat p data.length) core ctx p data)
      | none => .next (homeWriteMiss s cls core ctx attr.toNat p data)

/-- Answer the joined requests of a fill in arrival order, as far as their data is there: a read needs its sector and no
write still waiting before it, a write the whole line (R241, R243). Answers the requests that go on waiting. -/
def answerJoined (l : Nat) (got : BitVec 4) : State → List Joined → State × List Joined
  | s, [] => (s, [])
  | s, .read c x k :: t =>
    if got.getLsbD k then answerJoined l got (answerRead s c x (128 * l + 32 * k)) t
    else
      let (s1, r) := answerJoined l got s t
      (s1, .read c x k :: r)
  | s, .write c x p d :: t => if got = 15 then answerJoined l got (writeDone s c x p d) t else (s, .write c x p d :: t)

/-- The line of a fill is valid: it is the most recently used one of its slice. A way that has meanwhile become a bin way or
the pool keeps no line; a dirty one is in memory (R423). -/
def fillDone (s : State) (h : Nat) (f : Fill) : State :=
  let sl := s.slice h
  let s1 := s.setSlice h { sl with
    fills := sl.fills.filter fun x => decide (x.line ≠ f.line)
    lines := if sl.isCache f.way then { line := f.line, way := f.way, dirty := f.dirty } :: sl.lines else sl.lines }
  if !sl.isCache f.way && f.dirty then charge s1 0 (128 * f.line) 128 else s1

/-- FILL_SECTOR_ARRIVAL (R243): the requested sector comes first; joined requests for the sector are answered; with all
four sectors the line is valid. -/
def execFillSectorArrival (hall line sector : Nat) (ecc : Ecc) (s : State) : Host.Outcome State Fault Refusal :=
  match (s.slice hall).filling line with
  | none => .next s
  | some f =>
    if f.victim.isSome ∨ 4 ≤ sector ∨ f.got.getLsbD sector = true ∨ (f.got = 0 ∧ sector ≠ f.first) then .next s else
    let pa := 128 * line + 32 * sector
    let got := f.got ||| BitVec.ofNat 4 (2 ^ sector)
    let (s1, rest) := answerJoined line got (eccOutcome s pa (s.storeOf pa) ecc) f.joined
    let sl := s1.slice hall
    let f' := { f with got := got, joined := rest }
    if got = 15 then .next (fillDone s1 hall f')
    else .next (s1.setSlice hall { sl with fills := sl.fills.map fun (x : Fill) => if x.line = line then f' else x })

/-- A victim's write is accepted (R240): the victim leaves and the fill's read issues; a line that is written whole is valid. -/
def victimAccepted (hall line : Nat) (s : State) : Host.Outcome State Fault Refusal :=
  let sl := s.slice hall
  match sl.fills.find? fun f => decide (f.victim = some line) with
  | none => .next s
  | some f =>
    let f' := { f with victim := none }
    let s1 := charge (s.setSlice hall { sl with
      fills := sl.fills.map fun (x : Fill) => if x.line = f.line then f' else x
      lines := sl.lines.filter fun x => decide (x.line ≠ line) }) 0 (128 * line) 128
    .next (if f.got = 15 then fillDone s1 hall f' else s1)

/-! ## Tentative writes, near-store atomics, folding (R224, R249, R257 to R259) -/

/-- POOL_WRITE: a write of one context in an epoch of its partition. A write in an epoch that is not OPEN is discarded
with 0x0409, one that reaches a sealed pool way with 0x0407, and its context is lost (R257, R264). A write to a page that
is moving waits for the move (R261). -/
def execPoolWrite (ctx epoch : Nat) (pa : PAddr) (data : List Byte) (s : State) : Host.Outcome State Fault Refusal :=
  match s.ctx? ctx with
  | none => .next s
  | some c =>
    let p := pa.toNat
    if s.power.st ≠ .ready ∨ 64 ≤ epoch ∨ data = [] ∨ 128 < p % 128 + data.length ∨ (s.placeOf p).isDevice = true then .next s
    else if s.sliceStatus ctx p ≠ 0 then .next (rejectRequest s .unit 0xFFFF ctx p (s.sliceStatus ctx p))
    else if (s.slice (s.homeOf p)).tent = false ∨ s.pageMoving p = true then .next s
    else if s.homeIdle (lineNo p) true = false then .next (homeCall s (lineNo p) true)
    else
      match s.poolWrite (64 * c.part + epoch) p data with
      | (s1, st) =>
        let s2 := s1.emit (.home 0xFFFF ctx st 0)
        let u := unitOfClass .unit 0xFFFF
        .next (if st = 0 then s2 else addLoss (eventCtx s2 2 st u.1 u.2.1 u.2.2 ctx p 0) ctx st 0xFFFF 0 (w64 p) true)

/-- The status a home slice answers a near-store atomic with, and the state after it (*Table 16-2*, R226, R257). The slice
sees a write of class CORE (R237). -/
def nsTry (s : State) (r : NsReq) : State × W16 × Nat :=
  let pa := r.pa.toNat
  let n := szBytes r.sz
  if s.sliceStatus r.ctx pa ≠ 0 then (s, s.sliceStatus r.ctx pa, 0)
  else if s.poisoned r.epoch pa n then (s, 0x0701, 0)
  else nearApply (countUp (if r.epoch.isSome then s else homeWrite s .core r.attr.toNat pa n) 1 (s.homeOf pa) 3 1) r.epoch pa r.aop.toNat n r.val.toNat r.cmp.toNat

/-- NEAR_STORE_ATOMIC: the slice of a hall die applies the oldest atomic that a core has sent to it and answers with the
old value (R224 to R226). A fault of any lane's atomic is precise: no lane still waiting has an effect, and the park names
the lowest of them (R116, *Table 16-2*). The home first takes the line back from the L1 caches (R226, R323); an atomic
whose group is gone is applied and answered to nobody (R72, R227). -/
def execNearStoreAtomic (core hall : Nat) (s : State) : Host.Outcome State Fault Refusal :=
  match (s.core core).nsa.find? fun r => decide (s.homeOf r.pa.toNat = hall) with
  | none => .next s
  | some r =>
    let g : Grp := { core := core, slot := r.slot }
    let lanes := if r.req.isNone then [] else (s.core core).nsa.filter fun q => decide (q.slot = r.slot) && q.req.isSome
    match lanes.find? fun q => decide ((nsTry s q).2.1 ≠ 0) with
    | some q =>
      let s1 := s.modCore core fun k => { k with nsa := k.nsa.filter fun q => !lanes.contains q }
      .next (s1.modGroup g fun k =>
        beginPark { k with reqs := k.reqs.filter fun x => !(lanes.any fun y => decide (y.req = some x.id)) } 6 (nsTry s q).2.1 q.va.toNat 0)
    | none =>
      if s.homeIdle (lineNo r.pa.toNat) true = false then .next (homeCall s (lineNo r.pa.toNat) true) else
      let s1 := s.modCore core fun k => { k with nsa := k.nsa.erase r }
      let t := nsTry s1 r
      .next (t.1.modGroup g fun k =>
        { k with reqs := k.reqs.map fun (q : Req) => if r.req = some q.id then { q with answer := some (w64 t.2.2) } else q })

/-- POOL_FOLD: a slice folds its committed pool lines, oldest first, and frees the void ones (R259). -/
def execPoolFold (hall : Nat) (s : State) : Host.Outcome State Fault Refusal :=
  let lines := distinct ((s.slice hall).pool.map (·.line))
  let s1 := lines.foldl (fun s l => foldCommitted s hall l) s
  let sl := s1.slice hall
  .next (sweepEpochs (s1.setSlice hall { sl with pool := sl.pool.filter fun p => match p.tag with
    | .void _ => false
    | _ => true }))

/-! ## Sealing and gating (R262 to R265) -/

/-- The physical ranges that leaves map. -/
def State.mapped (s : State) : List (Nat × Nat) :=
  s.leaves.map fun r => (leafFrame (s.tableEntry r.entry.toNat), 2 ^ levelShift r.level)

/-- Is a physical address in a gating unit's storage? -/
def State.inUnit (s : State) (u : GateUnit) (pa : Nat) : Bool :=
  match u, s.placeOf pa with
  | .binBank h b, .bin h' off => decide (h' = h) && decide (binBank off = b)
  | .hbmGroup g, .hbm g' _ => decide (g' = g)
  | _, _ => false

/-- The condition of *Table 9-13*. -/
def State.mayGate (s : State) (u : GateUnit) : Bool :=
  match u with
  | .binBank h b => !(s.mapped.any fun r => match s.placeOf r.1 with
      | .bin h' off => decide (h' = h) && decide (off / 2 ^ 26 ≤ b / 16) && decide (b / 16 * 2 ^ 26 < off + r.2)
      | _ => false)
  | .cacheWay h w => decide ((s.slice h).binWays ≤ w) && !((s.slice h).tent && w == 15)
  | .poolWay h => (s.slice h).tent && (match s.partOfHall h with
      | none => true
      | some p => (List.range 64).all fun e => decide ((s.epoch (64 * p + e)).state = .free))
  | .hbmGroup g => decide ((s.hbmEntry g).mode ≠ 4) && !(s.mapped.any fun r => s.inUnit (.hbmGroup g) r.1) &&
      !(s.extents.any fun x => x.ctx.isSome && s.inUnit (.hbmGroup g) x.base)

/-- A unit is in use: it has not been idle (R469). -/
def State.stirUnit (s : State) (u : GateUnit) : State := { s with idle := s.idle.filter fun e => decide (e.1 ≠ u) }

/-- Step 1 of R263, when the Steward confirms the condition. -/
def sealUnit (s : State) (u : GateUnit) : State :=
  if u.wf && (s.seal? u).isNone && s.mayGate u then s.setSeal u (some .closed) else s

/-- UNIT_SEAL. -/
def execUnitSeal (u : GateUnit) (s : State) : Host.Outcome State Fault Refusal :=
  .next (if s.inService then sealUnit s u else s)

/-- The event that names a gating unit. -/
def gateEvent (s : State) (u : GateUnit) : State :=
  match u with
  | .binBank h b => event s 5 0 0x04 (BitVec.ofNat 8 h) (BitVec.ofNat 16 b)
  | .cacheWay h w => event s 5 0 0x04 (BitVec.ofNat 8 h) (BitVec.ofNat 16 (16 * w))
  | .poolWay h => event s 5 0 0x04 (BitVec.ofNat 8 h) 240
  | .hbmGroup g => event s 5 0 0x06 (BitVec.ofNat 8 (hallOfGroup g)) (BitVec.ofNat 16 g)

/-- A unit has requests that its slice accepted before the seal: fills into the way, or into the memory, that are still
outstanding (R263). -/
def State.unitBusy (s : State) (u : GateUnit) : Bool :=
  match u with
  | .cacheWay h w => (s.slice h).fills.any fun f => decide (f.way = w)
  | .hbmGroup _ => s.slices.any fun e => e.2.fills.any fun f => s.inUnit u (128 * f.line) ||
      (f.victim.map fun v => s.inUnit u (128 * v)).getD false
  | .binBank _ _ | .poolWay _ => false

/-- UNIT_DRAIN_DONE: the accepted requests are complete, the dirty lines of a cache way are in memory and its lines
invalid, then the Reeve removes power and logs it (R263). -/
def execUnitDrainDone (u : GateUnit) (s : State) : Host.Outcome State Fault Refusal :=
  if s.seal? u ≠ some .closed ∨ s.unitBusy u = true then .next s else
  let s1 := match u with
    | .cacheWay h w => s.setSlice h { s.slice h with lines := (s.slice h).lines.filter fun x => decide (x.way ≠ w) }
    | _ => s
  .next (gateEvent (s1.setSeal u (some .gated)) u)

/-- A unit returns to service: power, zeros in every line, unseal (R265). -/
def ungateUnit (s : State) (u : GateUnit) : State :=
  { s.setSeal u none with
    mem := s.mem.filter fun c => !s.inUnit u c.1
    poison := s.poison.filter fun k => !s.inUnit u (32 * k) }

/-- UNIT_UNGATE (R265). -/
def execUnitUngate (u : GateUnit) (s : State) : Host.Outcome State Fault Refusal :=
  .next (if s.seal? u = some .gated then ungateUnit s u else s)

/-! ## The patrol scrub (R437) -/

/-- The reference block of a commons that an address lies in. -/
def State.refBlock (s : State) (pa : Nat) : Option (Nat × Nat) :=
  s.objs.findSome? fun e => if e.2.commons && e.2.isSealed then
    (((List.range e.2.refPages.length).zip e.2.refPages).find? fun p => decide (p.2.toNat / 65536 = pa / 65536)).map fun p => (e.1, p.1)
  else none

/-- Page `i` of a list of frames. -/
def frameAt (l : List PAddr) (i : Nat) : Nat := ((nth? l i).map (·.toNat)).getD 0

/-- The 64 KiB at an address hash to digest `i` of a commons, and neither holds a poisoned sector. -/
def State.blockMatches (s : State) (o : Obj) (i pa : Nat) : Bool :=
  !s.poisoned none pa 65536 && !s.poisoned none (o.digestBase.toNat + 32 * i) 32 &&
  decide (sha256 (s.read none pa 65536) = s.read none (o.digestBase.toNat + 32 * i) 32)

/-- An uncorrectable sector in a reference block: it is written again from a working block that matches its digest; else
the working block's repair would fail (R452). -/
def scrubReference (s : State) (n i : Nat) : State :=
  match tfind s.objs n with
  | none => s
  | some o =>
    if s.blockMatches o i (frameAt o.pages i) then s.write (frameAt o.refPages i) (s.read none (frameAt o.pages i) 65536)
    else { s with objs := tput s.objs n { o with badRef := addOnce i o.badRef } }

/-- PATROL_SCRUB: one sector is read and corrected, or one pool line of it (`pool` names its epoch). Gated units are not
scrubbed; an uncorrectable sector is poisoned and recorded, an uncorrectable pool line poisons its epoch (R261). -/
def execPatrolScrub (pa : PAddr) (pool : Option Nat) (ecc : Ecc) (s : State) : Host.Outcome State Fault Refusal :=
  let p := pa.toNat
  if s.inService = false ∨ s.homeStatus p ≠ 0 ∨ (s.placeOf p).isDevice = true then .next s else
  let h := s.homeOf p
  match pool with
  | none =>
    let st := s.storeOf p
    if ecc = .uncorrectable then
      let s1 := poisonSector (lifeUp s (16 + st.2.2.2) 1) p
      let s2 := withSyndrome s1 { mkEvent s1 5 0x0707 st.1 st.2.1 st.2.2.1 with phys := pa }
      .next (match s2.refBlock p with
        | some (n, i) => scrubReference s2 n i
        | none => s2)
    else .next (eccOutcome s p st ecc)
  | some e =>
    let sl := s.slice h
    let mine := fun (x : PoolLine) => decide (x.line = lineNo p) && (match x.tag with
      | .held n | .committed n => decide (n = e)
      | .void _ => false)
    if sl.pool.any mine = false then .next s else
    match ecc with
    | .uncorrectable =>
      let s1 := s.setSlice h { sl with pool := sl.pool.map fun (x : PoolLine) => if mine x then { x with poisoned := true } else x }
      let s2 := lifeUp (s1.setEpoch e { s1.epoch e with poisoned := true }) 19 1
      .next (withSyndrome s2 { mkEvent s2 5 0x0707 0x04 (BitVec.ofNat 8 h) 240 with phys := pa })
    | _ => .next (eccOutcome s p (0x04, BitVec.ofNat 8 h, 240, 3) ecc)

end Sys2Proof.Machine
end

