-- ==== Sys2Proof/Machine/Epochs.lean ====
section
/-! DEFINITION. The epoch controller: commands of the epoch page, their refusals, their application at the slices and
their completion, and the discard of a dying context's epochs (R246, R252 to R260). -/

namespace Sys2Proof.Machine

/-! ## The command word (*Table 9-8*) -/

def epOp (w : W64) : Nat := bits w 63 60
def epNum (w : W64) : Nat := bits w 57 52
def epChild (w : W64) : Bool := bit w 51
def epParent (w : W64) : Nat := bits w 50 45
def epTally (w : W64) : Nat := bits w 31 0

/-- The refusal word of a context (*Table 9-10*). -/
def refuseWord (s : State) (ctx : Nat) (status : W16) (e : Nat) : State :=
  s.modCtx ctx fun c => { c with refStatus := status, refCount := min (c.refCount + 1) 0xFFFFFFFF, refEpoch := BitVec.ofNat 6 e }

/-- LAST_STATUS, written only when the epoch is allotted to the issuing context (R253). -/
def lastStatus (s : State) (ctx e : Nat) (status : W16) : State :=
  if (s.epoch e).owner = some ctx then s.setEpoch e { s.epoch e with last := status } else s

/-- A command is refused (R253, *Table 9-11*). -/
def refuseCmd (s : State) (p ctx : Nat) (w : W64) (status : W16) : State :=
  raiseTally (refuseWord (lastStatus s ctx (64 * p + epNum w) status) ctx status (epNum w)) ctx (epTally w) 1

/-- The first case of *Table 9-11* that holds, or 0. -/
def cmdStatus (s : State) (p ctx : Nat) (w : W64) : W16 :=
  let e := s.epoch (64 * p + epNum w)
  let q := s.epoch (64 * p + epParent w)
  let isOpen := decide (epOp w = 1)
  if bits w 59 58 ≠ 0 ∨ bits w 44 32 ≠ 0 ∨ epOp w = 0 ∨ 3 < epOp w ∨
      (isOpen = false ∧ (epChild w = true ∨ epParent w ≠ 0)) ∨ (isOpen = true ∧ epChild w = false ∧ epParent w ≠ 0) then 0x040E
  else if e.owner ≠ some ctx ∨ (epChild w = true ∧ q.owner ≠ some ctx) then 0x040B
  else if (isOpen = true ∧ e.state ≠ .free) ∨ (isOpen = true ∧ epChild w = true ∧ (q.state ≠ .opened ∨ q.parent.isSome = true)) ∨
      (isOpen = false ∧ e.state ≠ .opened) then 0x040C
  else if epOp w = 2 ∧ s.openChildren (64 * p + epNum w) ≠ 0 then 0x040D
  else 0

/-- The store at the head of a partition's epoch controller, and the queue behind it (R253). -/
def headStore (s : State) (p : Nat) : Option (EpochStore × State) :=
  match tget [] s.epochQ p with
  | [] => none
  | x :: t => some (x, { s with epochQ := tset [] s.epochQ p t })

/-- Is a store a command (R252)? -/
def isCommand (x : EpochStore) : Bool := decide (x.offset = 0) && decide (x.size = 8)

/-- Take the command at the head when it has the given OP: refuse it, or carry it out. -/
def onCommand (s : State) (p op : Nat) (act : State → EpochStore → State) : Host.Outcome State Fault Refusal :=
  match headStore s p with
  | none => .next s
  | some (x, s1) =>
    if isCommand x = false ∨ epOp x.word ≠ op then .next s
    else if cmdStatus s1 p x.ctx x.word ≠ 0 then .next (refuseCmd s1 p x.ctx x.word (cmdStatus s1 p x.ctx x.word))
    else .next (act s1 x)

/-- The pool ways of a partition are unsealed before an epoch is opened (R265). -/
def wakePools (s : State) (part : Nat) : State :=
  (partHalls (s.part part)).foldl (fun s h => match s.seal? (.poolWay h) with
    | some .gated => ungateUnit s (.poolWay h)
    | some .closed => s.setSeal (.poolWay h) none
    | _ => s) s

/-- EPOCH_OPEN (R254, R265). -/
def execEpochOpen (part : Nat) (s : State) : Host.Outcome State Fault Refusal :=
  onCommand s part 1 fun s0 x =>
    let s := wakePools s0 part
    let e := 64 * part + epNum x.word
    let ep := s.epoch e
    let par := if epChild x.word then some (epParent x.word) else none
    raiseTally (s.setEpoch e { ep with state := .opened, overflow := false, poisoned := false, parent := par, last := 0 }) x.ctx
      (epTally x.word) 1

/-- COMMIT or DISCARD is accepted: the epoch is CLOSING and the command goes to every slice of the partition (R255 step
1). A COMMIT of an epoch with OVERFLOW or POISONED acts as DISCARD with its own status (R258). -/
def closeEpoch (s : State) (part : Nat) (x : EpochStore) (commit : Bool) : State :=
  let e := 64 * part + epNum x.word
  let ep := s.epoch e
  let st : W16 := if commit && ep.overflow then 0x040A else if commit && ep.poisoned then 0x0711 else 0
  let c : EpochCmd :=
    { commit := commit && decide (st = 0), ctx := x.ctx, tally := w32 (epTally x.word), apply := partHalls (s.part part), ack := [], status := st }
  s.setEpoch e { ep with state := .closing, cmd := some c }

/-- EPOCH_COMMIT (R255). -/
def execEpochCommit (part : Nat) (s : State) : Host.Outcome State Fault Refusal :=
  onCommand s part 2 fun s x => closeEpoch s part x true

/-- EPOCH_DISCARD (R255). -/
def execEpochDiscard (part : Nat) (s : State) : Host.Outcome State Fault Refusal :=
  onCommand s part 3 fun s x => closeEpoch s part x false

/-- EPOCH_COMMAND_REFUSED (R252): a store of another size or offset carries no command and raises no tally; a command
with a reserved OP is refused as a command. -/
def execEpochCommandRefused (part : Nat) (s : State) : Host.Outcome State Fault Refusal :=
  match headStore s part with
  | none => .next s
  | some (x, s1) =>
    if isCommand x = false then .next (refuseWord s1 x.ctx 0x040E 0)
    else if epOp x.word = 0 ∨ 3 < epOp x.word then .next (refuseCmd s1 part x.ctx x.word 0x040E)
    else .next s

/-- Children of an epoch that count as open at step 3. -/
def State.children (s : State) (e : Nat) : List Nat :=
  ((List.range 64).map (64 * (e / 64) + ·)).filter fun i =>
    decide ((s.epoch i).parent = some (e % 64)) && (decide ((s.epoch i).state = .opened) || decide ((s.epoch i).state = .closing))

/-- Void the pool lines of epochs in one slice. -/
def voidLines (s : State) (h : Nat) (es : List Nat) : State :=
  let sl := s.slice h
  s.setSlice h { sl with pool := sl.pool.map fun (p : PoolLine) => match p.tag with
    | .held n => if es.contains n then { p with tag := .void n } else p
    | _ => p }

/-- Relabel the pool lines of an epoch in one slice, above every sequence number in it, in their own order. -/
def relabel (s : State) (h e : Nat) (tag : PoolTag) : State :=
  let sl := s.slice h
  s.setSlice h { sl with
    poolSeq := 2 * sl.poolSeq
    pool := sl.pool.map fun (p : PoolLine) => if p.tag = .held e then { p with tag := tag, seq := p.seq + sl.poolSeq } else p }

/-- EPOCH_SLICE_APPLY (R255 steps 2 to 4). -/
def execEpochSliceApply (part epoch hall : Nat) (s : State) : Host.Outcome State Fault Refusal :=
  let e := 64 * part + epoch
  let ep := s.epoch e
  match ep.cmd with
  | none => .next s
  | some c =>
    if c.apply.contains hall = false then .next s else
    let dead := s.parentVoided e hall
    let c1 := { c with apply := c.apply.erase hall, ack := c.ack ++ [hall], status := if dead then 0x040C else c.status }
    let s1 := s.setEpoch e { ep with cmd := some c1 }
    if dead then .next s1
    else if c.commit = false then .next (voidLines s1 hall (e :: s.children e))
    else match ep.parent with
      | none => .next (relabel s1 hall e (.committed e))
      | some q => .next (relabel s1 hall e (.held (64 * part + q)))

/-- The command of an epoch completes: its new state, LAST_STATUS, DONE_TALLY (R253, R255). -/
def finishEpoch (s : State) (e : Nat) (c : EpochCmd) : State :=
  let ep := s.epoch e
  let kids := s.children e
  let ep1 := { ep with cmd := none }
  let s1 :=
    if c.status = 0x040C then
      s.setEpoch e (if ep1.state = .closing then { ep1 with state := .reclaiming } else ep1)
    else if c.commit then
      (match ep.parent with
       | none => s.setEpoch e { ep1 with state := .folding }
       | some _ => s.setEpoch e { ep1 with state := .free, overflow := false, poisoned := false, parent := none })
    else
      kids.foldl (fun s k => s.setEpoch k { s.epoch k with state := .reclaiming }) (s.setEpoch e { ep1 with state := .reclaiming })
  sweepEpochs (raiseTally (lastStatus s1 c.ctx e c.status) c.ctx c.tally.toNat 1)

/-- EPOCH_SLICE_ACK (R253, R255 step 5). -/
def execEpochSliceAck (part epoch hall : Nat) (s : State) : Host.Outcome State Fault Refusal :=
  let e := 64 * part + epoch
  let ep := s.epoch e
  match ep.cmd with
  | none => .next s
  | some c =>
    if c.ack.contains hall = false then .next s else
    let c1 := { c with ack := c.ack.erase hall }
    if c1.apply.isEmpty && c1.ack.isEmpty then .next (finishEpoch s e c1)
    else .next (s.setEpoch e { ep with cmd := some c1 })

/-- Every epoch of a dying context is discarded (R260): its lines are void in every slice, a command in progress
completes with 0x040C. -/
def discardEpochs (s : State) (ctx : Nat) : State :=
  let es := (s.epochs.filter fun x => decide (x.2.owner = some ctx) && decide (x.2.state ≠ .free)).map (·.1)
  let s1 := (s.slices.map (·.1)).foldl (fun s h => voidLines s h es) s
  let s2 := es.foldl (fun s e =>
    let ep := s.epoch e
    let live := decide (ep.state = .opened) || decide (ep.state = .closing)
    let s1 := s.setEpoch e { ep with cmd := none, state := if live then .reclaiming else ep.state }
    match ep.cmd with
    | some c => raiseTally (lastStatus s1 c.ctx e 0x040C) c.ctx c.tally.toNat 1
    | none => s1) s1
  sweepEpochs { s2 with epochQ := tfilter (fun _ q => !q.isEmpty) (tmap (fun _ q => q.filter fun x => decide (x.ctx ≠ ctx)) s2.epochQ) }

end Sys2Proof.Machine
end

