-- ==== Sys2Proof/Machine/Trans.lean ====
section
/-! DEFINITION. Page walks through the walk caches, shootdowns as the translation structures perform them, the HBM
refresh rates and the bandwidth regulators (R281 to R285, R293 to R297). -/

namespace Sys2Proof.Machine

/-! ## Walks (R281, R282) -/

/-- PAGE_WALK (R282): a walker of the structure's hall die answers the miss. A leaf that is not MOVING enters the
structure (R280); a malformed entry is recorded and reads as invalid (R278); poison and a rejection lose the context
(R264, R440). -/
def execPageWalk (st : TlbStruct) (ctx : Nat) (v : BitVec 64) (s : State) : Host.Outcome State Fault Refusal :=
  match s.ctx? ctx with
  | none => .next s
  | some _ =>
    let a := v.toNat
    if 2 ^ 56 ≤ a then .next (s.emit (.walk ctx 0x0401 0)) else
    let (s1, w) := walker s st ctx a
    match w with
    | .leaf level _ e =>
      let s2 := if leafMoving e ∨ (s1.tlbFind st false ctx a).isSome = true then s1 else tlbFill s1 st false ctx a level e
      .next (s2.emit (.walk ctx 0 e))
    | .invalid => .next (s1.emit (.walk ctx 0x0401 0))
    | .malformed pa => .next ((tableMalformed s1 ctx pa).emit (.walk ctx 0x0401 0))
    | .poisoned => .next (loseBy (s1.emit (.walk ctx 0x0701 0)) (0x0B, BitVec.ofNat 8 (hallOfStruct st), 0xFFFF) ctx 0x0701 a)
    | .rejected x pa => .next (rejectRequest (s1.emit (.walk ctx x 0)) .walk (88 * 4 * hallOfStruct st) ctx pa x)

/-! ## Shootdowns (R283, R284) -/

/-- The structures that serve a partition (*Table 10-9*): those of its hall dies, each with its walk cache and 8 DMA engines,
and those of the gate die, which HD1's walkers serve. -/
def partStructs (s : State) (p : Nat) : List TlbStruct :=
  let hs := partHalls (s.part p)
  hs.flatMap (fun h => (List.range 352).map fun i => TlbStruct.core (352 * h + i)) ++
  hs.flatMap (fun h => (List.range 44).map fun i => TlbStruct.island (44 * h + i)) ++
  (if hs.contains 1 then hs else hs ++ [1]).map TlbStruct.hall ++
  hs.flatMap (fun h => (List.range 8).map fun i => TlbStruct.engine h i) ++ [.folest]

/-- Steps 1 and 2 of R283: the entries are written; the shootdown of a range of an identifier is sent. -/
def startShoot (s : State) (asid lo hi : Nat) (after : After) : State :=
  let x : Shoot :=
    { id := s.nextShoot, asid := asid, lo := lo, hi := hi, todo := partStructs s (s.ctxPart asid), acks := [], after := after }
  { s with shoots := s.shoots ++ [x], nextShoot := s.nextShoot + 1 }

/-- Does a page of a level and number overlap a range [lo, hi)? -/
def overlaps (level vpn lo hi : Nat) : Bool :=
  decide (vpn * 2 ^ levelShift level < hi) && decide (lo < (vpn + 1) * 2 ^ levelShift level)

/-- A structure drops its matching entries; a hall die also those of its walk cache (step 3). -/
def dropTlb (s : State) (st : TlbStruct) (asid lo hi : Nat) : State :=
  { s with
    tlb := s.tlb.filter fun e => !(decide (e.st = st) && decide (e.asid = asid) && overlaps e.level e.vpn lo hi)
    walkCache := s.walkCache.filter fun e => !(decide (st = .hall e.hall) && decide (e.asid = asid) && overlaps e.level e.vpn lo hi) }

def inRange (lo hi : Nat) (v : VAddr) : Bool := decide (lo ≤ v.toNat) && decide (v.toNat < hi)

/-- Store-buffer entries of a core whose address lies in a range of an identifier. -/
def sbInRange (s : State) (c asid lo hi : Nat) : List SbEntry :=
  (s.core c).sb.filter fun e => decide (e.ctx = asid) && decide (e.va.toNat / 128 * 128 < hi) && decide (lo < e.va.toNat / 128 * 128 + 128)

/-- Drain what may drain of the entries in a range, oldest first. -/
def drainRange (s : State) (c asid lo hi : Nat) : State :=
  (sbInRange s c asid lo hi).foldl (fun s e =>
    match ((List.range (s.core c).sb.length).find? fun i => nth? (s.core c).sb i == some e) with
    | some i => if drainable s c i e then performEntry s c i e else s
    | none => s) s

/-- Park the groups of a core that hold a tentative entry to a range (R284). -/
def parkTentative (s : State) (c asid lo hi : Nat) : State :=
  (sbInRange s c asid lo hi).foldl (fun s e =>
    let g : Grp := { core := c, slot := e.slot }
    match s.group? g with
    | some k => if tentative k e then s.setGroup g (beginPark k 3 0 e.va.toNat 0) else s
    | none => s) s

/-- Has a load or atomic that a core translated into a range not been answered by its home slices (R284)? -/
def onTheWay (s : State) (c asid lo hi : Nat) : Bool :=
  ((s.core c).nsa.any fun r => decide (r.ctx = asid) && inRange lo hi r.va) ||
  s.groups.any fun e => decide (e.1 / 48 = c) && decide (e.2.ctx = asid) && e.2.loads.any fun l =>
    l.addrs.any fun a => inRange lo hi a.2.1

/-- A core has done what R284 asks: nothing on its way, no entry left to the range but tentative ones. -/
def coreSettled (s : State) (c asid lo hi : Nat) : Bool :=
  !onTheWay s c asid lo hi && (sbInRange s c asid lo hi).all fun e =>
    match s.group? { core := c, slot := e.slot } with
    | some k => tentative k e
    | none => false

/-- SHOOTDOWN: a structure drops its entries; a core also drains the range and parks the groups with tentative entries.
It acknowledges once it has done so (R284). -/
def execShootdown (id : Nat) (st : TlbStruct) (s : State) : Host.Outcome State Fault Refusal :=
  match s.shoots.find? fun x => decide (x.id = id) with
  | none => .next s
  | some x =>
    if x.todo.contains st = false then .next s else
    let s1 := dropTlb s st x.asid x.lo x.hi
    let move := fun (s : State) => { s with shoots := s.shoots.map fun (y : Shoot) =>
      if y.id = id then { y with todo := y.todo.erase st, acks := y.acks ++ [st] } else y }
    match st with
    | .core c =>
      let s2 := parkTentative (drainRange s1 c x.asid x.lo x.hi) c x.asid x.lo x.hi
      .next (if coreSettled s2 c x.asid x.lo x.hi then move s2 else s2)
    | _ => .next (move s1)

/-! ## Refresh and regulators (R293 to R297) -/

/-- The first sensor of an HBM stack: after 528 islands and 384 hall-die sensors (*Table 17-2*, log entry 18). -/
def stackSensor (k : Nat) : Nat := 912 + 4 * k

/-- The temperature of a stack in m°C: the highest of its four sensors (R457). -/
def State.stackTemp (s : State) (k : Nat) : Int :=
  let r := fun i => tget 0 s.reeve.sensors (stackSensor k + i)
  max (max (r 0) (r 1)) (max (r 2) (r 3))

/-- *Table 10-13*. -/
def refreshRate (t : Int) : Nat := if t < 85000 then 1 else if t < 95000 then 2 else 4

/-- REFRESH_MIN of the partition that owns the stack's hall die (R294). -/
def State.refreshMin (s : State) (k : Nat) : Nat :=
  match s.partOfHall (k / 2) with
  | none => 1
  | some p => 2 ^ bits (s.part p).tier 9 8

/-- The refresh multiplier of a device of a cellar die (R294): what the device reports, which nothing overrides. -/
def State.cellarRefresh (s : State) (die device : Nat) : Nat := Config.deviceRefresh die device s.time

/-- REFRESH_ADJUST: up at once, down once the stack has stayed 3 °C below the threshold for 10 ms, which the event
asserts; half the bandwidth from 105 °C until below 100 °C (R293, R294). -/
def execRefreshAdjust (stack : Nat) (s : State) : Host.Outcome State Fault Refusal :=
  if 24 ≤ stack ∨ s.inService = false then .next s else
  let t := s.stackTemp stack
  let r := tget Refresh.reset s.refresh stack
  let up := refreshRate t
  let down := refreshRate (t + 3000)
  let rate := if r.rate < up then up else if down < r.rate then down else r.rate
  let halved := if 105000 ≤ t then true else if t < 100000 then false else r.halved
  .next { s with refresh := tset Refresh.reset s.refresh stack { rate := max rate (s.refreshMin stack), halved := halved } }

/-- REGULATOR_WINDOW: a 1 µs window of a regulator ends; `held` says that another partition's guaranteed requests waited
in it. After more than 2 such windows the effective BORROW is lowered, to a value the manual leaves open that is not
below GUAR; after 64 windows without, it is restored; LOCK keeps the record's value (R297). -/
def execRegulatorWindow (resource part : Nat) (held : Bool) (s : State) : Host.Outcome State Fault Refusal :=
  if 26 ≤ resource ∨ 12 ≤ part ∨ s.inService = false then .next s else
  let k := regKey resource part
  let r := { tget Regulator.reset s.regs k with used := 0 }
  let put := fun (s : State) (r : Regulator) => { s with regs := tset Regulator.reset s.regs k r }
  let s0 := if held then countUp s 3 part 3 1 else s
  if r.lock then .next (put s0 { r with eff := r.borrow, waits := 0, calm := 0 })
  else if held then
    if r.waits < 2 ∨ r.eff ≤ r.guar then .next (put s0 { r with waits := r.waits + 1, calm := 0 })
    else
      let (s1, n) := s0.freeVal
      .next (put s1 { r with eff := r.guar + n % (r.eff - r.guar), waits := r.waits + 1, calm := 0 })
  else if 63 ≤ r.calm then .next (put s0 { r with eff := r.borrow, waits := 0, calm := 0 })
  else .next (put s0 { r with waits := 0, calm := r.calm + 1 })

end Sys2Proof.Machine
end

