-- ==== Sys2Proof/Machine/Frames.lean ====
section
/-! DEFINITION. What the gate die sends: sequenced frames and the window, acknowledgements with their SACK blocks and
credit records, refusals, and the mailbox messages that frames carry (R351, R352, R356, R391, R396, R399, R402, R410,
R417). -/

namespace Sys2Proof.Machine

/-! ## The provisioning record (*Table 14-2*) -/

/-- The number in `n` bytes of a provisioning record. -/
def provNum (r : BitVec 1024) (off n : Nat) : Nat := bits r (8 * (off + n) - 1) (8 * off)

/-- A flag of the record in force: 0 IPV6; 1 LLDP; 2 MACSEC_OFF; 3 PTP_L2; 4 PPS_REF. -/
def State.provFlag (s : State) (i : Nat) : Bool := s.port.prov.getLsbD (8 + i)

/-- Frames other than MKA may pass: the link is up and, unless MACSEC_OFF is set, a SAK is installed and the MKA peer is
live (R381, R386). -/
def State.portOpen (s : State) : Bool := s.port.link && (s.provFlag 2 || (s.port.sak && s.port.mkaLive))

/-! ## Sending -/

def State.setSession (s : State) (x : Session) : State := { s with port := { s.port with session := some x } }

/-- Count in a counter of the port (*Table 17-9*). -/
def portCount (s : State) (n : Nat) : State := countUp s 2 0 n 1

/-- Put a frame on the wire; it takes the next transmit packet number of MACsec (R385). -/
def wire (s : State) (o : Out) : State :=
  let s1 := s.emit o
  { s1 with port := { s1.port with txPn := s1.port.txPn + 1, lastTx := s1.clock } }

/-! ## Ethernet, IP and UDP headers (R8, R384) -/

/-- The sum of the 16-bit words of the bytes, each word most significant byte first. -/
def wordSum : List Byte → Nat
  | [] => 0
  | [a] => a.toNat * 256
  | a :: b :: t => a.toNat * 256 + b.toNat + wordSum t

/-- The Internet checksum of the bytes: the complement of the sum with its carries added back. -/
def checksum (bs : List Byte) : Nat :=
  let carry := fun (n : Nat) => n % 65536 + n / 65536
  65535 - carry (carry (carry (wordSum bs)))

/-- Bytes of the provisioning record as it lies in the flash. -/
def State.provBytes (s : State) (off n : Nat) : List Byte := leBytes n (provNum s.port.prov off n)

/-- The IP header in front of `n` bytes of UDP (*Table 14-2*, R384): DSCP, hop limit 64, the IPv4 don't-fragment bit. -/
def ipHeader (s : State) (n : Nat) : List Byte :=
  let dscp := provNum s.port.prov 5 1
  if s.provFlag 0 then
    beBytes 4 (6 * 2 ^ 28 + dscp * 2 ^ 22 + Config.ipFlow s.port.txPn % 2 ^ 20) ++ beBytes 2 n ++ [17, 64] ++
    s.provBytes 0x20 16 ++ s.provBytes 0x10 16
  else
    let a := [0x45, BitVec.ofNat 8 (4 * dscp)] ++ beBytes 2 (20 + n) ++ beBytes 2 (Config.ipIdent s.port.txPn) ++ [0x40, 0, 64, 17]
    let b := s.provBytes 0x20 4 ++ s.provBytes 0x10 4
    a ++ beBytes 2 (checksum (a ++ b)) ++ b

/-- The UDP header of a datagram, with its checksum filled in (R384); the module's port is FOLEST_PORT. -/
def udpHeader (s : State) (data : List Byte) : List Byte :=
  let k := if s.provFlag 0 then 16 else 4
  let n := 8 + data.length
  let ports := beBytes 2 (provNum s.port.prov 6 2) ++ beBytes 2 (Config.udpTo s.port.txPn)
  let pseudo := s.provBytes 0x20 k ++ s.provBytes 0x10 k ++ beBytes 4 n ++ [0, 0, 0, 17]
  let c := checksum (pseudo ++ ports ++ beBytes 2 n ++ [0, 0] ++ data)
  ports ++ beBytes 2 n ++ beBytes 2 (if c = 0 then 65535 else c)

/-- The headers in front of a Folest frame: big-endian, from the module to the partner. -/
def lead (s : State) (data : List Byte) : List Byte :=
  s.provBytes 8 6 ++ vecBytes s.mac ++ beBytes 2 (if s.provFlag 0 then 0x86DD else 0x0800) ++
  ipHeader s (8 + data.length) ++ udpHeader s data

/-- The header of a Folest frame, little-endian (*Table 14-3*, R8). -/
def folestHeader (typ : BitVec 8) (retx resp : Bool) (session seq ack : W32) (time len : Nat) : List Byte :=
  leBytes 8 time ++ zeros 4 ++ vecBytes ack ++ vecBytes seq ++ vecBytes session ++
  [0, BitVec.ofNat 8 (1 + (if resp then 2 else 0) + (if retx then 8 else 0))] ++ leBytes 2 len ++ [typ, 1]

/-- Put a Folest frame on the wire. -/
def wireFrame (s : State) (typ : BitVec 8) (retx resp : Bool) (session seq ack : W32) (time : Nat) (payload : List Byte) : State :=
  wire s (.frame (lead s (folestHeader typ retx resp session seq ack time payload.length ++ payload)) typ retx resp true session seq ack
    (w64 time) payload)

/-- Put one frame of the open session on the wire; it acknowledges in its ACK field, and no other acknowledgement is due
(R399). -/
def emitFrame (s : State) (x : Session) (typ : BitVec 8) (retx resp : Bool) (seq : W32) (time : Nat) (payload : List Byte) : State :=
  let s1 := wireFrame (portCount s 1) typ retx resp x.id seq x.rxNext time payload
  s1.setSession { x with ackDue := false }

/-- Is a sequence number below the partner's last ACK + RWND (R396)? -/
def Session.inWindow (x : Session) (seq : W32) : Bool := decide ((seq - x.partnerAck).toNat < x.rwnd)

/-- Send the frames that wait for the window or the link, in order. -/
def pump (s : State) : State :=
  match s.port.session with
  | none => s
  | some x => x.unacked.foldl (fun s f =>
      match s.port.session with
      | some y => if f.sent = false ∧ s.portOpen = true ∧ y.inWindow f.seq = true then
          let y1 := { y with unacked := y.unacked.map fun (g : TxFrame) => if g.seq = f.seq then { g with sent := true, sentAt := s.clock } else g }
          emitFrame s y1 f.typ false f.resp f.seq f.time f.payload
        else s
      | none => s) s

/-- Queue a sequenced frame in the open session. -/
def pushTx (s : State) (typ : BitVec 8) (resp : Bool) (payload : List Byte) (ctx : Option Nat) (time : Nat) : State :=
  match s.port.session with
  | none => s
  | some x =>
    let f : TxFrame :=
      { seq := x.txNext, typ := typ, resp := resp, payload := payload, ctx := ctx, time := time, sent := false, sentAt := 0, tries := 0,
        sacked := false }
    pump (s.setSession { x with txNext := x.txNext + 1, unacked := x.unacked ++ [f] })

/-- A frame sent with no session open: its SESSION, SEQ and ACK are not stated (log entry 1). -/
def emitBare (s : State) (typ : BitVec 8) (payload : List Byte) : State :=
  let (s1, a) := s.freeVal
  let (s2, b) := s1.freeVal
  let (s3, c) := s2.freeVal
  wireFrame (portCount s3 1) typ false false (w32 a) (w32 b) (w32 c) s.now payload

/-- An unsequenced frame: SEQ is the next number the module will use (*Table 14-3*). -/
def sendPlain (s : State) (typ : BitVec 8) (payload : List Byte) : State :=
  if s.portOpen = false then s else
  match s.port.session with
  | some x => emitFrame s x typ false false x.txNext s.now payload
  | none => emitBare s typ payload

/-! ## Acknowledgements and credit (R399, R410) -/

/-- The held ranges, lowest first, counted from the next expected number; a frame at that number is not out of order. -/
def sackBlocks (x : Session) : List (Nat × Nat) :=
  let offs := (List.range 1024).filter fun i => decide (i ≠ 0) && x.held.any fun f => decide (f.seq = x.rxNext + w32 i)
  offs.foldl (fun (acc : List (Nat × Nat)) i =>
    match acc.getLast? with
    | some (a, b) => if b = i then acc.dropLast ++ [(a, i + 1)] else acc ++ [(i, i + 1)]
    | none => [(i, i + 1)]) []

/-- C + N of a bound stream. -/
def State.limitOf (s : State) (b : Binding) : Nat := (s.tally (b.c.toNat / 32768)).value + 2 ^ b.log2

/-- A credit record: P handle, P value, LIMIT, which never falls (R399, R410). -/
def creditRecord (s : State) (b : Binding) : List Byte :=
  vecBytes b.p ++ zeros 4 ++ leBytes 8 (s.tally (b.p.toNat / 32768)).value ++ leBytes 8 (max b.limit (s.limitOf b))

/-- A binding is released when its context is lost or destroyed or a handle stops being valid (R407). -/
def Binding.live (s : State) (b : Binding) : Bool :=
  (match s.ctx? b.ctx with
   | some c => decide (c.gen = b.gen) && decide (c.state = .active)
   | none => false) && (s.tallyOf b.ctx b.p.toNat).isSome && (s.tallyOf b.ctx b.c.toNat).isSome

/-- The bindings that have not been released. -/
def State.bound (s : State) : List Binding := s.port.bindings.filter (Binding.live s)

/-- The bindings whose record the next ACK carries, and the bindings once it has been sent. -/
def State.creditsDue (s : State) : List Binding :=
  (s.bound.filter fun b => b.due || decide (b.limit < s.limitOf b)).take 255

def creditsSent (s : State) (bs : List Binding) : State :=
  let upd := fun (b : Binding) => if bs.contains b then { b with limit := max b.limit (s.limitOf b), due := false } else b
  { s with port := { s.port with bindings := s.bound.map upd } }

/-- Send an ACK frame with every held range, up to 16, and the credit records that are due (R399, R410). -/
def sendAck (s : State) : State :=
  match s.port.session with
  | none => s
  | some x =>
    if s.portOpen = false then s else
    let blocks := (sackBlocks x).take 16
    let cs := s.creditsDue
    let body := [BitVec.ofNat 8 blocks.length, 0] ++ leBytes 2 cs.length ++ zeros 4 ++
      blocks.flatMap (fun b => vecBytes (x.rxNext + w32 b.1) ++ vecBytes (x.rxNext + w32 b.2)) ++ cs.flatMap (creditRecord s)
    sendPlain ((creditsSent s cs).setSession { x with sinceAck := 0, ackDue := false }) 0x07 body

/-! ## The end of a session and refusals (R395, R400, R417, R418) -/

/-- Commands that are already running complete with their responses discarded: they go on under numbers from 64 on, which
no frame can name (R377, log entry 41). -/
def detach (ms : Table Mailbox) : Table Mailbox :=
  (ms.filter fun e => e.2.waiting).foldl (fun t e => tput t (64 + e.2.order) e.2) []

/-- The session ends: what was held out of order is discarded with the unacknowledged responses, command mailboxes become
FREE, the notice under way is kept, and the grace period starts (R377, R395). Unacknowledged event frames are kept and
sent again in the next session (R415). -/
def endSession (s : State) : State :=
  match s.port.session with
  | none => s
  | some x =>
    let evs := (x.unacked.filter fun f => decide (f.typ = 0x06)).map fun f =>
      ({ ctx := f.ctx.getD 0, gen := le f.payload 8 8, bell := decide (le f.payload 2 1 = 1), tag := le f.payload 4 2,
         serial := w32 (le f.payload 0x10 4), dropped := decide (le f.payload 3 1 % 2 = 1), time := f.time,
         payload := f.payload.drop 24 } : EvFrame)
    { s with
      port := { s.port with session := none, lastSession := x.id, violations := [], events := evs ++ s.port.events, graceOn := true,
                               graceFrom := s.clock }
      mailboxes := detach s.mailboxes
      notices := match s.noticeOut with
        | some n => n.2 :: s.notices
        | none => s.notices
      noticeOut := none }

/-- Send RESET with a status and end the session (R395): COMMAND, CODE 0x05. -/
def resetSession (s : State) (status : W16) : State :=
  endSession (sendPlain s 0x01 ([0x05, 0] ++ vecBytes status ++ zeros 12))

/-- The number of NACKs sent in the current second (R417). -/
def State.nacksNow (s : State) : Nat := tget 0 s.port.nacks (s.clock / 1000000000)

/-- A NACK, up to 100,000 in a second (R417). -/
def sendNack (s : State) (f : Frame) (code detail : W16) : State :=
  let k := s.clock / 1000000000
  if 100000 ≤ s.nacksNow then portCount s 7
  else
    let s1 := portCount { s with port := { s.port with nacks := [(k, s.nacksNow + 1)] } } 6
    sendPlain s1 0x08 (vecBytes f.seq ++ vecBytes code ++ vecBytes detail ++ [f.typ] ++ zeros 7)

/-- A counted refusal; VIOL_LIMIT of them within VIOL_WINDOW_MS reset the session (R418). -/
def violate (s : State) (code : W16) : State :=
  let s1 := portCount s code.toNat
  let vs := lastN s.port.violLimit (s.port.violations ++ [s.clock])
  let s2 := { s1 with port := { s1.port with violations := vs } }
  if s.port.violLimit ≤ vs.length ∧ s.clock - vs.headD s.clock ≤ s.port.violWindow * 1000000 ∧ s.port.session.isSome = true then
    resetSession s2 0x0120
  else s2

/-! ## Mailbox messages (R351, R352, R356) -/

def msgCmd (m : List Byte) : Nat := le m 30 2
def msgLen (m : List Byte) : Nat := le m 28 2
def msgTag (m : List Byte) : Nat := le m 24 4
def msgGen (m : List Byte) : Nat := le m 16 8
def msgCtx (m : List Byte) : Nat := le m 12 4 / 2 ^ 20
def msgPayload (m : List Byte) : List Byte := m.drop 32

/-- A message of *Table 13-1*. -/
def message (cmd tag gen ctx status time : Nat) (payload : List Byte) : List Byte :=
  leBytes 8 time ++ zeros 2 ++ leBytes 2 status ++ leBytes 4 (ctx * 2 ^ 20) ++ leBytes 8 gen ++ leBytes 4 tag ++
  leBytes 2 payload.length ++ leBytes 2 cmd ++ payload

/-- Round a response payload up to a multiple of 8 with zeros (R517). -/
def pad8 (p : List Byte) : List Byte := p ++ zeros ((8 - p.length % 8) % 8)

/-- Send a message in a MAILBOX frame (R402). -/
def sendMail (s : State) (mb : Nat) (m : List Byte) : State :=
  pushTx s 0x02 false ([BitVec.ofNat 8 mb] ++ zeros 7 ++ m) none s.now

/-- A response to a request's header, without touching the mailbox. -/
def answer (s : State) (mb : Nat) (req : List Byte) (gen : Nat) (status : W16) (payload : List Byte) : State :=
  sendMail s mb (message (msgCmd req) (msgTag req) gen (msgCtx req) status.toNat s.now payload)

/-- A command ends: its response goes into the mailbox and out in a frame, and the mailbox stays BUSY until that frame is
acknowledged (R352). Without a session the response is discarded (R377). Mailbox 63 keeps no response (log entry 21). -/
def respondGen (s : State) (mb gen : Nat) (status : W16) (payload : List Byte) : State :=
  match tfind s.mailboxes mb with
  | none => s
  | some m => match s.port.session with
    | none => { s with mailboxes := tdel s.mailboxes mb }
    | some x =>
      if 64 ≤ mb then { s with mailboxes := tdel s.mailboxes mb } else
      let s1 := answer s mb m.msg gen status payload
      if mb = 63 then { s1 with mailboxes := tdel s1.mailboxes mb }
      else { s1 with mailboxes := tput s1.mailboxes mb { m with waiting := false, response := some x.txNext } }

def respond (s : State) (mb : Nat) (status : W16) (payload : List Byte) : State :=
  respondGen s mb (((tfind s.mailboxes mb).map fun m => msgGen m.msg).getD 0) status payload

/-- A command that waited ends: `ticket` is its place in the order of arrival; its mailbox may have become FREE (R377). -/
def respondLate (s : State) (ticket : Nat) (status : W16) (payload : List Byte) : State :=
  match s.mailboxes.find? fun e => decide (e.2.order = ticket) && e.2.waiting with
  | some e => respond s e.1 status payload
  | none => s

/-- The payload of a notice. -/
def noticeBytes (n : Notice) (lost : Bool) : List Byte :=
  leBytes 2 n.ctx ++ zeros 6 ++ leBytes 8 n.gen ++ vecBytes n.status ++ zeros 2 ++ vecBytes n.handle ++ leBytes 8 n.time ++
  vecBytes n.addr ++ [if lost then 1 else 0] ++ zeros 7

/-- NOTICE_SEND: the oldest notice goes out on mailbox 63 when none is unanswered (R356). -/
def execNoticeSend (s : State) : Host.Outcome State Fault Refusal :=
  match s.notices, s.noticeOut, s.port.session with
  | n :: rest, none, some _ =>
    let tag := s.noticeTag
    let m := message n.code.toNat tag n.gen (if n.gen = 0 then 0 else n.ctx) 0 s.now (noticeBytes n s.noticeLost)
    .next (sendMail { s with notices := rest, noticeOut := some (w32 tag, n), noticeTag := (tag + 1) % 2 ^ 32, noticeLost := false } 63 m)
  | _, _, _ => .next s

end Sys2Proof.Machine
end

