-- ==== Sys2Proof/Machine/Coherence.lean ====
section
/-! DEFINITION. The coherence directory and the messages of *Table 11-7*, one command for the arrival of each, and the
failure of a partition's domain (R316 to R326). -/

namespace Sys2Proof.Machine

/-! ## A domain fails (R325, R326) -/

def State.ctxsOf (s : State) (p : Nat) : List Nat := (s.contexts.filter fun e => decide (e.2.part = p)).map (·.1)

/-- The address of ring entry `k` (R366). -/
def Queue.entryAddr (q : Queue) (k : Nat) : Nat := q.ring.toNat + 64 * (k % 2 ^ q.log2)

/-- HEAD passes the completed entries at the front. -/
def passHead : Nat → Queue → Queue
  | 0, q => q
  | n + 1, q => if tfind q.entries q.head = some .finished then passHead n { q with head := q.head + 1, entries := tdel q.entries q.head } else q

/-- The engine that carries out entry `k` of a context's queue: entries are spread over the 8 DMA engines of each hall die of
the partition (R13, R368), in rotation (DESIGN CHOICE, log entry 133). -/
def State.engine (s : State) (ctx k : Nat) : TlbStruct :=
  let hs := partHalls (s.part (s.ctxPart ctx))
  .engine (hs.getD (k % hs.length) 0) (k / hs.length % 8)

/-- An entry completes: STATUS is written, then DONE, and HEAD moves (R368). -/
def finishEntry (s : State) (qi k : Nat) (q : Queue) (status : W16) : State :=
  let st := s.engine q.ctx k
  let v := q.entryAddr k
  let ctl := leNat (s.virtBytes st q.ctx (v + 6) 1)
  let s1 := (virtWrite s st q.ctx (v + 4) (vecBytes status)).1
  let s2 := (virtWrite s1 st q.ctx (v + 6) [BitVec.ofNat 8 (ctl ||| 0x20)]).1
  { s2 with queues := tput s2.queues qi (passHead (q.entries.length + 1) { q with entries := tput q.entries k .finished }) }

/-- Is an entry's own work under way? -/
def EntryPhase.busy : EntryPhase → Bool
  | .running _ _ | .larder _ _ => true
  | _ => false

/-- The transfers of a context's queues complete with a status (R326; log entry 142). -/
def completeTransfers (s : State) (ctx : Nat) (status : W16) : State :=
  let mine := s.queues.filter fun e => decide (e.2.ctx = ctx) && !e.2.notify
  let runs := mine.flatMap fun e => (e.2.entries.filter fun x => x.2.busy).map fun x => (e.1, x)
  runs.foldl (fun s r =>
    let s1 := match r.2.2 with
      | .larder c n => s.modCore c fun k => { k with scores := k.scores.filter fun e => decide (e.seq ≠ n) }
      | _ => s
    match tfind s1.queues r.1 with
    | some q => finishEntry s1 r.1 r.2.1 q status
    | none => s1) s

/-- The transfers of a context's queues end: running entries are finished, their scoreboard entries released (R196), and
the queues stop with a status. -/
def haltQueues (s : State) (ctx : Nat) (status : W16) : State :=
  let ours := fun (q : Queue) => decide (q.ctx = ctx) && !q.notify
  let held := (s.queues.filter fun e => ours e.2).flatMap fun e => e.2.entries.filterMap fun x => match x.2 with
    | .larder c n => some (c, n)
    | _ => none
  let s1 := held.foldl (fun s p => s.modCore p.1 fun k => { k with scores := k.scores.filter fun e => decide (e.seq ≠ p.2) }) s
  { s1 with queues := tmap (fun _ (q : Queue) => if ours q then
      { q with stopped := some (q.stopped.getD status), slot := none,
               entries := tmap (fun _ p => match p with
                 | .running _ _ | .larder _ _ => .finished
                 | x => x) q.entries } else q) s1.queues }

/-- Every context of a partition is lost at once (R326, R376): its groups end without park records, its units' operations
end with 0x0506, its transfers complete with the status. -/
def takeDown (s : State) (p : Nat) (status : W16) (addr : Nat) : State :=
  let pt := s.part p
  let cs := s.ctxsOf p
  let ours := fun c => pt.halls.getLsbD (hallOfCore c)
  let s1 := s.setPart p { pt with state := .down, quiesceMb := none }
  let s2 := cs.foldl (fun s c => haltQueues (completeTransfers (abortSieve (abortMill s c) c) c status) c status) s1
  let s3 := (s2.groups.filter fun e => cs.contains e.2.ctx).foldl (fun s e => s.dropGroup (keyGrp e.1)) s2
  let mine := fun (o : Option Nat) => match o with
    | some c => ours c
    | none => false
  let s4 := { s3 with
    cores := tmap (fun c (k : Core) => if ours c then { k with sb := [], nsa := [], mshr := [] } else k) s3.cores
    net := s3.net.filter fun m => !(mine m.src || mine m.dst || mine m.requester) }
  let s5 := cs.foldl (fun s c => loseCtx s c status addr) s4
  match pt.quiesceMb with
  | some t => respondLate s5 t 0x030F []
  | none => s5

/-- Notice 0x8014 of a partition's or the module's failure (R444). -/
def rasNotice (s : State) (p : Nat) (status : W16) (addr : Nat) : State := notify s (noticeOf s 0x8014 p 0 status 0 (w64 addr))

/-- Take a partition's domain down (R326); the event names the directory slice and the line. -/
def coherenceDown (s : State) (p hall line : Nat) : State :=
  let pt := s.part p
  if pt.state ≠ .running ∧ pt.state ≠ .quiesced then s else
  let s1 := takeDown s p 0x0713 (128 * line)
  let s2 := logEvent s1 { mkEvent s1 3 0x0713 0x05 (BitVec.ofNat 8 hall) 0xFFFF with
    part := BitVec.ofNat 4 p, phys := BitVec.ofNat 48 (128 * line) }
  rasNotice s2 p 0x0713 (128 * line)

/-- A message that the protocol does not allow in this state (R325). -/
def badMessage (s : State) (core line : Nat) : State :=
  match s.partOfHall (hallOfCore core) with
  | some p => coherenceDown s p (s.homeOf (128 * line)) line
  | none => s

/-- COHERENCE_ERROR: an agent did not answer within 50 µs, an array had an uncorrectable error, or an island lost its
power (R325); `die` is the hall die of the directory slice. -/
def execCoherenceError (part die line : Nat) (s : State) : Host.Outcome State Fault Refusal :=
  .next (if part < 12 then coherenceDown s part die line else s)

/-! ## Routes (R19) -/

/-- Two packets of one source and one destination: they travel the same links in the order they were sent. A packet to or
from a home goes to or comes from the slice of its line. -/
def sameRoute (s : State) (a b : Msg) : Bool :=
  decide (a.src = b.src) && decide (a.dst = b.dst) &&
    ((a.src.isSome && a.dst.isSome) || decide (s.homeOf (128 * a.line) = s.homeOf (128 * b.line)))

/-- No packet sent before it is still on its route. -/
def State.first (s : State) (m : Msg) : Bool := decide (s.net.find? (sameRoute s m) = some m)

/-- The message of a line that a core has sent to the home, when it is the oldest on its route. -/
def State.toHome (s : State) (core line : Nat) : Option Msg :=
  s.net.find? fun m => decide (m.src = some core) && decide (m.dst = none) && decide (m.line = line) && s.first m

/-- The message of a kind and line to a core, when it is the oldest on its route. -/
def State.toCore (s : State) (kind : MsgKind) (core line : Nat) : Option Msg :=
  s.net.find? fun m => decide (m.kind = kind) && decide (m.dst = some core) && decide (m.line = line) && s.first m

def takeMsg (s : State) (m : Msg) : State := { s with net := s.net.erase m }

/-- A message of the given kind arrives at the home. -/
def atHome (kind : MsgKind) (core line : Nat) (s : State) (act : State → Msg → State) : Host.Outcome State Fault Refusal :=
  match s.toHome core line with
  | some m => if m.kind = kind then .next (act (takeMsg s m) m) else .next s
  | none => .next s

/-- A message of the given kind arrives at a core. -/
def atCore (kind : MsgKind) (core line : Nat) (s : State) (act : State → Msg → State) : Host.Outcome State Fault Refusal :=
  match s.toCore kind core line with
  | some m => .next (act (takeMsg s m) m)
  | none => .next s

/-! ## The directory's sets (R318, R319) -/

/-- An entry that takes one of the 16 ways of its set. -/
def DirEntry.inUse (d : DirEntry) : Bool := decide (d.st ≠ .i) || d.busy.isSome

/-- Do two lines share a set of one directory slice? -/
def State.sameSet (s : State) (a b : Nat) : Bool :=
  decide (a % 22528 = b % 22528) && decide (s.homeOf (128 * a) = s.homeOf (128 * b))

/-- The other entries in use in the set of a line. -/
def State.dirRivals (s : State) (l : Nat) : List (Nat × DirEntry) :=
  s.dir.filter fun e => decide (e.1 ≠ l) && e.2.inUse && s.sameSet e.1 l

/-- The entry of a list that was used longest ago. -/
def oldestUsed (es : List (Nat × DirEntry)) : Option (Nat × DirEntry) :=
  es.foldl (fun best e => match best with
    | none => some e
    | some b => if e.2.used < b.2.used then some e else some b) none

/-- Does a line have an entry, or find one free? -/
def State.dirFree (s : State) (l : Nat) : Bool := (s.dirEntry l).inUse || decide ((s.dirRivals l).length < 16)

/-- The directory recalls the line of the set's least recently used entry; an entry that is BUSY is recalled when its
transaction is over (R319, R320). -/
def recallVictim (s : State) (l : Nat) : State :=
  match oldestUsed (s.dirRivals l) with
  | some (v, d) => if d.busy.isNone then homeCall s v true else s
  | none => s

/-! ## Transactions at the home (R318 to R322) -/

/-- The home supplies the line from its slice (R237, R242, R244). -/
def homeData (s : State) (m : Msg) (core : Nat) : State :=
  homeRead s (if m.pref then .pref else .core) core (if m.grant = .s then 1 else 0) (128 * m.line)

/-- The state a request is granted: M for a writer; for a reader E when no other copy exists, else S (R317, R319). -/
def grantOf (d : DirState) (m : Msg) (c : Nat) : Mesi :=
  if m.kind ≠ .getS then .m
  else if m.grant = .s then .s
  else match d with
    | .i => .e
    | .ptrs cs => if cs.all fun x => x == c then .e else .s
    | _ => .s

/-- Start a transaction: the home answers from the slice, or forwards to the owner; invalidations go to the sharers of a
line that is wanted for writing (R320, R321). -/
def beginTxn (s : State) (l c : Nat) (m : Msg) : State :=
  let d := s.dirEntry l
  let excl := decide (m.kind ≠ .getS)
  let grant := grantOf d.st m c
  let owner := match d.st with
    | .owned o => some o
    | _ => none
  let txn : Txn := { core := some c, grant := grant, owner := owner, put := none, acks := 0, copy := owner.isSome && !excl, done := false }
  let s1 := s.setDir l { d with busy := some txn }
  match owner with
  | some o =>
    if o = c then badMessage s c l
    else send s1 (mkMsg (if excl then .fwdGetM else .fwdGetS) l none (some o) (some c) 0 0 false grant)
  | none =>
    let is := if excl then s.sharers d.st (some c) else []
    let s2 := is.foldl (fun s x => send s (mkMsg .inv l none (some x) (some c) 0 0 false .s)) s1
    let s3 := homeData s2 m c
    send s3 (mkMsg .data l none (some c) (some c) (s3.memLine l) is.length false grant)

/-- What the home answers a core's request before it acts (R264, R266, R326). -/
def State.coreStatus (s : State) (core pa : Nat) : W16 :=
  match s.partOfHall (hallOfCore core) with
  | some p => if (s.part p).state = .down then 0x0713 else s.homeStatus pa
  | none => s.homeStatus pa

/-- A request is answered without a line: the core's miss ends, and its access is made again. -/
def forgetMiss (s : State) (core line : Nat) : State := s.modCore core fun k => { k with mshr := tdel k.mshr line }

/-- A rejected request: the groups of the core whose loads wait for the line park (R264). -/
def rejectMiss (s : State) (core line : Nat) (excl : Bool) (st : W16) : State :=
  let mine := fun (a : Nat × VAddr × PAddr) => decide (lineNo a.2.2.toNat = line)
  let park := fun (k : Nat) (g : Group) => if k / 48 = core ∧ excl = false then
      match g.loads.find? fun l => l.addrs.any mine with
      | some l => beginPark g 6 st (((l.addrs.find? mine).map (·.2.1.toNat)).getD 0) 0
      | none => g
    else g
  { forgetMiss s core line with groups := tmap park s.groups }.emit (.home core 0xFFFF st 0)

/-- Serve the requests that wait at an entry, in arrival order, up to the first one that starts a transaction. A line that
is held, or whose home rejects requests, is granted to nobody (R251, R264). -/
def serveList (l : Nat) : List Msg → State → State
  | [], s => s.setDir l { s.dirEntry l with waiting := [] }
  | m :: rest, s =>
    let c := m.src.getD 0
    if s.coreStatus c (128 * l) ≠ 0 then serveList l rest (rejectMiss s c l (decide (m.kind ≠ .getS)) (s.coreStatus c (128 * l)))
    else if s.isHeld (128 * l) then serveList l rest (forgetMiss s c l)
    else beginTxn (s.setDir l { s.dirEntry l with waiting := rest }) l c m

/-- Serve a line that is not BUSY: it starts when it has an entry, or when one is free or becomes free at once; else the
recall of the least recently used one is begun (R319). -/
def tryServe (s : State) (l : Nat) : State :=
  let d := s.dirEntry l
  if d.busy.isSome || d.waiting.isEmpty then s
  else if s.dirFree l then serveList l d.waiting s
  else
    let s1 := recallVictim s l
    if s1.dirFree l then serveList l d.waiting s1 else s1

/-- The lines of a set whose requests wait for an entry, oldest first. -/
def State.wanting (s : State) (l : Nat) : List Nat :=
  let ws := s.dir.filter fun e => !e.2.waiting.isEmpty && e.2.busy.isNone && s.sameSet e.1 l
  (ws.foldr (fun e acc => (acc.takeWhile fun x => decide (x.2.used < e.2.used)) ++ e :: (acc.dropWhile fun x => decide (x.2.used < e.2.used))) []).map (·.1)

/-- A transaction is over, or a line has no copy any more: the entry takes its state, and the requests that waited for it,
or for an entry of its set, are served. -/
def settleDir (s : State) (l : Nat) (st : DirState) : State :=
  let s1 := s.setDir l { s.dirEntry l with st := st, busy := none }
  let s2 := if st = .i then s1 else tryServe s1 l
  (s2.wanting l).foldl tryServe s2

/-- A request of an L1 cache reaches its home (R320): it queues behind a transaction in progress, waits for a directory
entry, or starts. A rejected, held or commons line is answered without a transaction (R234, R251, R264, R326). -/
def requestAtHome (kind : MsgKind) (core line : Nat) (s : State) : Host.Outcome State Fault Refusal :=
  match s.toHome core line with
  | none => .next s
  | some m =>
    if m.kind ≠ kind then .next s else
    let s1 := takeMsg s m
    let pa := 128 * line
    let excl := decide (kind ≠ .getS)
    if s.coreStatus core pa ≠ 0 then .next (rejectMiss s1 core line excl (s.coreStatus core pa))
    else if s.isHeld pa then .next (forgetMiss s1 core line)
    else if s.commonsAddr pa then
      let s2 := homeData s1 m core
      .next (if excl then forgetMiss s1 core line else send s2 (mkMsg .data line none (some core) (some core) (s2.memLine line) 0 false .s))
    else
      let d := s1.dirEntry line
      let d1 := { d with waiting := d.waiting ++ [m] }
      .next (if d.busy.isSome then s1.markDir line d1 else tryServe (s1.setDir line d1) line)

/-- GETS (R319). -/
def execGets (core line : Nat) (s : State) : Host.Outcome State Fault Refusal := requestAtHome .getS core line s

/-- GETM (R319). -/
def execGetm (core line : Nat) (s : State) : Host.Outcome State Fault Refusal := requestAtHome .getM core line s

/-- UPGRADE (R319): the grant carries the line as well, for a holder whose copy has meanwhile been invalidated. -/
def execUpgrade (core line : Nat) (s : State) : Host.Outcome State Fault Refusal := requestAtHome .upgrade core line s

/-- The granary slice takes a line as a write-back write of all its bytes (R237, R244, R321, R322). -/
def sliceTakes (s : State) (l : Nat) (d : Line) : State :=
  let s1 := homeWrite s .core 0 (128 * l) 128
  { s1 with mem := putBytes s1.mem (128 * l) ((List.range 128).map (lineByte d)) }

/-- PUTE (R319, R322): the owner gives up a clean line; while a transaction is in progress it is dropped. -/
def execPute (core line : Nat) (s : State) : Host.Outcome State Fault Refusal :=
  atHome .putE core line s fun s _ =>
    let d := s.dirEntry line
    match d.busy, d.st with
    | some _, .owned o => if o = core then s else badMessage s core line
    | none, .owned o => if o = core then settleDir s line .i else badMessage s core line
    | _, _ => badMessage s core line

/-- PUTM (R319, R322): the slice takes the line, once a write of it as a victim is accepted (R240); while a transaction is
in progress the home holds it. -/
def execPutm (core line : Nat) (s : State) : Host.Outcome State Fault Refusal :=
  let d := s.dirEntry line
  if d.busy.isNone && s.victimBusy line then .next s else
  atHome .putM core line s fun s m =>
    match d.busy, d.st with
    | some t, .owned o => if o = core then s.markDir line { d with busy := some { t with put := some m.data } } else badMessage s core line
    | none, .owned o => if o = core then settleDir (sliceTakes s line m.data) line .i else badMessage s core line
    | _, _ => badMessage s core line

/-- The state an entry takes at the end of a transaction (R321): the requester owns the line, or shares it with those who
kept a copy; after the home's own request the former owner keeps S, or nobody has a copy. -/
def doneState (d : DirEntry) (t : Txn) : DirState :=
  match t.core with
  | none => match t.owner with
    | some o => if t.grant = .s then .ptrs [o] else .i
    | none => .i
  | some c =>
    if t.grant ≠ .s then .owned c
    else match d.st, t.owner with
      | .owned _, some o => .ptrs [o, c]
      | .owned _, none => .ptrs [c]
      | x, _ => addSharer x c

/-- A part of a transaction has come: it is over when the requester's Done, the owner's copy for the home and the home's
InvAcks are all in (R320, R321, log entry 129). -/
def progress (s : State) (l : Nat) (t : Txn) : State :=
  let d := s.dirEntry l
  if (t.done || t.core.isNone) && !t.copy && decide (t.acks = 0) then settleDir s l (doneState d t)
  else s.markDir l { d with busy := some t }

/-- The copy of an owner for the home (R321, R323). -/
def dataHomeArrives (core line : Nat) (s : State) : Host.Outcome State Fault Refusal :=
  if s.victimBusy line then .next s else
  atHome .dataHome core line s fun s m =>
    match (s.dirEntry line).busy with
    | none => badMessage s core line
    | some t => if t.copy then progress (sliceTakes s line m.data) line { t with copy := false } else badMessage s core line

/-- DataInFlight arrives (R322): the home completes the forwarded request with the line that it holds from the PutM, or from
the slice; its own request needs nothing more. -/
def dataInFlightArrives (core line : Nat) (s : State) : Host.Outcome State Fault Refusal :=
  if s.victimBusy line then .next s else
  atHome .dataInFlight core line s fun s m =>
    match (s.dirEntry line).busy with
    | none => badMessage s core line
    | some t =>
      let s1 := match m.dirty, t.put with
        | true, some x => sliceTakes s line x
        | _, _ => s
      let t1 := { t with owner := none, put := none, copy := false }
      match t.core with
      | none => progress s1 line t1
      | some c =>
        let s2 := homeData s1 (mkMsg .getS line (some c) none (some c) 0 0 false (if t.grant = .s then .s else .e)) c
        send (s2.markDir line { s2.dirEntry line with busy := some t1 }) (mkMsg .data line none (some c) (some c) (s2.memLine line) 0 false t.grant)

/-- Done arrives (R320): the requester's part of the transaction is complete; the home then serves the next request for the
line. -/
def doneArrives (core line : Nat) (s : State) : Host.Outcome State Fault Refusal :=
  atHome .done core line s fun s _ =>
    match (s.dirEntry line).busy with
    | none => badMessage s core line
    | some t => if t.core ≠ some core then badMessage s core line else progress s line { t with done := true }

/-! ## Messages at a core (R317, R320 to R322) -/

/-- INV: an S copy is dropped; the acknowledgement goes to the requester, also when no copy is held (R322). -/
def execInvMsg (core line : Nat) (s : State) : Host.Outcome State Fault Refusal :=
  atCore .inv core line s fun s m =>
    match tfind (s.core core).l1 line with
    | some x => if x.dirtyOwner then badMessage s core line
      else send (dropCopy line s core) (mkMsg .invAck line (some core) m.requester m.requester 0 0 false .s)
    | none => send s (mkMsg .invAck line (some core) m.requester m.requester 0 0 false .s)

/-- The copy of an owner, when it still has one. -/
def State.owned? (s : State) (core line : Nat) : Option Line :=
  match tfind (s.core core).l1 line with
  | some x => if x.dirtyOwner then some x.data else none
  | none => none

/-- The owner has evicted the line: DataInFlight, dirty when the eviction was a PutM (R322). -/
def inFlight (s : State) (core line : Nat) : State :=
  let dirty := (s.net.any fun m => decide (m.kind = MsgKind.putM) && decide (m.src = some core) && decide (m.line = line)) ||
    (((s.dirEntry line).busy.bind (·.put)).isSome)
  send s (mkMsg .dataInFlight line (some core) none none 0 0 dirty .s)

/-- FWD_GETS: the owner sends the line to the requester and to the home and keeps it in S (R321); the home asks for itself
without a requester (R323). -/
def execFwdgets (core line : Nat) (s : State) : Host.Outcome State Fault Refusal :=
  atCore .fwdGetS core line s fun s m =>
    match s.owned? core line with
    | none => inFlight s core line
    | some d =>
      let s1 := s.modCore core fun k => { k with l1 := tput k.l1 line { st := .s, data := d, commons := false } }
      let s2 := if m.requester.isSome then send s1 (mkMsg .data line (some core) m.requester m.requester d 0 false m.grant) else s1
      send s2 (mkMsg .dataHome line (some core) none none d 0 true .s)

/-- FWD_GETM: the owner sends the line to the requester, or to the home when the home asks for itself, and invalidates its
copy (R321, R323). -/
def execFwdgetm (core line : Nat) (s : State) : Host.Outcome State Fault Refusal :=
  atCore .fwdGetM core line s fun s m =>
    match s.owned? core line with
    | none => inFlight s core line
    | some d =>
      let s1 := dropCopy line s core
      if m.requester.isSome then send s1 (mkMsg .data line (some core) m.requester m.requester d 0 false m.grant)
      else send s1 (mkMsg .dataHome line (some core) none none d 0 true .s)

/-- The requester holds the line and every acknowledgement: the line is installed and Done goes to the home (R320). A
commons line has no directory entry (R234). -/
def completeMiss (s : State) (core line : Nat) : State :=
  match tfind (s.core core).mshr line with
  | none => s
  | some m => match m.grant with
    | none => s
    | some g =>
      if m.got < m.need then s else
      let cm := s.commonsAddr (128 * line)
      let s1 := s.modCore core fun k => { k with mshr := tdel k.mshr line, l1 := tput k.l1 line { st := g, data := m.data, commons := cm } }
      if cm then s1 else send s1 (mkMsg .done line (some core) none none 0 0 false .s)

/-- DATA: the line and the number of acknowledgements to await. `evict` is the line that makes room, which a full cache
needs (the manual gives no replacement rule). -/
def execDataMsg (core line : Nat) (evict : Option Nat) (s : State) : Host.Outcome State Fault Refusal :=
  match s.toCore .data core line with
  | none => .next s
  | some m =>
    let k := s.core core
    let held := fun v => decide (v ≠ line) && (tfind k.l1 v).isSome
    let room := (tfind k.l1 line).isSome || decide (l1Used k < 512) || (evict.map held).getD false
    if room = false then .next s else
    let s1 := takeMsg s m
    match tfind k.mshr line with
    | none => .next (badMessage s1 core line)
    | some x =>
      let s2 := match evict with
        | some v => if held v then evictLine s1 core v else s1
        | none => s1
      let s3 := s2.modCore core fun k => { k with mshr := tput k.mshr line { x with grant := some m.grant, data := m.data, need := m.count } }
      .next (completeMiss s3 core line)

/-- InvAck arrives: one more acknowledgement has reached the requester, or the home that asked for itself; `core` is then the
cache that sends it (R320, R323). -/
def invAckArrives (core line : Nat) (s : State) : Host.Outcome State Fault Refusal :=
  match (s.toHome core line).filter fun m => decide (m.kind = .invAck) with
  | some m =>
    let s1 := takeMsg s m
    .next (match (s.dirEntry line).busy with
      | some t => if t.core.isNone && decide (0 < t.acks) then progress s1 line { t with acks := t.acks - 1 } else badMessage s1 core line
      | none => badMessage s1 core line)
  | none =>
    atCore .invAck core line s fun s _ =>
      match tfind (s.core core).mshr line with
      | none => badMessage s core line
      | some x => completeMiss (s.modCore core fun k => { k with mshr := tput k.mshr line { x with got := x.got + 1 } }) core line

end Sys2Proof.Machine
end

