-- ==== Sys2Proof/Machine/Objects.lean ====
section
/-! DEFINITION. What the Steward keeps memory in: frames of the carve-outs, page tables and leaves, and the capability
block (R32, R33, R271 to R278, R360, R361, R363, R428). -/

namespace Sys2Proof.Machine

/-! ## Groups and free frames (R271 to R274) -/

def groupBytes : Nat := 0x3_0000_0000

/-- Group modes of *Table 10-3*: 1 NEAR, 2 SPREAD, 3 CELLAR, 4 COMMONS, 5 COMMONS_REF. -/
def groupBase (mode g : Nat) : Nat := (if mode = 3 ∨ mode = 5 then 0x0400_0000_0000 else 0) + g * groupBytes

def State.cellarGroupsCount (s : State) : Nat := if s.orderC then 128 else 256

/-- The cellar die of a cellar group (R270). -/
def State.dieOfCellar (s : State) (g : Nat) : Nat := if g < s.cellarGroupsCount / 2 then 0 else 1

/-- Is an HBM group in use: not excluded at training, not dead (R447, R485)? -/
def State.hbmUsable (s : State) (g : Nat) : Bool := !(s.excluded.contains g) && decide (s.seal? (.hbmGroup g) ≠ some .dead)

/-- Every cellar group spans all devices of its die (R270). -/
def State.cellarUsable (s : State) (g : Nat) : Bool :=
  let d := s.dieOfCellar g
  !(s.excludedDies.contains d) && !(s.deadEps.any fun e => match e with
    | .cellarDevice x _ => decide (x = d)
    | _ => false)

/-- The groups of a mode that a partition owns (12 names the commons), in increasing number. -/
def State.groupsOfMode (s : State) (p mode : Nat) : List Nat :=
  if mode = 3 ∨ mode = 5 then
    (List.range s.cellarGroupsCount).filter fun g => let e := s.cellarEntry g
      decide (e.mode.toNat = mode) && (mode == 5 || decide (e.part.toNat = p)) && s.cellarUsable g
  else
    (List.range 96).filter fun g => let e := s.hbmEntry g
      decide (e.mode.toNat = mode) && (mode == 4 || decide (e.part.toNat = p)) && s.hbmUsable g

def alignUp (a n : Nat) : Nat := cdiv n a * a

def meets (a n b m : Nat) : Bool := decide (a < b + m) && decide (b < a + n)

/-- The lowest free aligned range of a region. -/
def freeAt (taken : List (Nat × Nat)) (base size need align : Nat) : Option Nat :=
  let ts := taken.filter fun t => meets t.1 t.2 base size
  let ok := fun a => decide (a + need ≤ base + size) && !(ts.any fun t => meets t.1 t.2 a need)
  ((alignUp align base :: ts.map fun t => alignUp align (t.1 + t.2)).filter ok).foldl (fun best a =>
    match best with
    | none => some a
    | some b => if a < b then some a else some b) none

def State.taken (s : State) : List (Nat × Nat) := s.extents.map fun e => (e.base, e.size)

/-- Write zero to every byte of a range: no copy is left in a cache or on its way, no sector is poisoned, no pool line of
it is left. -/
def zeroRange (s : State) (base n : Nat) : State :=
  let lineIn := fun l => decide (base ≤ 128 * l) && decide (128 * l < base + n)
  sweepEpochs { s with
    mem := s.mem.filter fun c => !(decide (base ≤ c.1) && decide (c.1 < base + n))
    poison := s.poison.filter fun k => !(decide (base ≤ 32 * k) && decide (32 * k < base + n))
    net := s.net.filter fun m => !lineIn m.line
    dir := s.dir.filter fun e => !lineIn e.1
    cores := tmap (fun _ (k : Core) => { k with l1 := k.l1.filter fun e => !lineIn e.1, mshr := k.mshr.filter fun e => !lineIn e.1 }) s.cores
    slices := tmap (fun _ (x : Slice) => { x with pool := x.pool.filter fun p => !lineIn p.line }) s.slices }

/-- Gated units that a range lies in return to service before the Steward uses it (R265, R469). -/
def wakeUnits (s : State) (pa : Nat) : State :=
  let wake := fun (s0 : State) (u : GateUnit) =>
    let s := s0.stirUnit u
    if s.seal? u = some .gated then ungateUnit s u else if s.seal? u = some .closed then s.setSeal u none else s
  match s.placeOf pa with
  | .hbm g _ => wake s (.hbmGroup g)
  | .bin h off => (List.range 16).foldl (fun s i => wake s (.binBank h (16 * (off / 2 ^ 26) + i))) s
  | _ => s

/-- Take a range in a group. -/
def takeIn (s : State) (mode g need align : Nat) (ctx : Option Nat) : Option (State × Nat) :=
  (freeAt s.taken (groupBase mode g) groupBytes need align).map fun a =>
    (wakeUnits { s with extents := s.extents ++ [{ base := a, size := need, ctx := ctx }] } a, a)

/-- Take a range in the first of the groups that has room. -/
def takeFirst (s : State) (mode need align : Nat) (ctx : Option Nat) : List Nat → Option (State × Nat × Nat)
  | [] => none
  | g :: t => match takeIn s mode g need align ctx with
    | some (s1, a) => some (s1, a, g)
    | none => takeFirst s mode need align ctx t

/-- The round-robin position of a mode in a partition (R274). -/
def cursorKey (p mode : Nat) : Nat := 16 * mode + p

/-- The next page of an object: the groups from the position on, then the ones before it (R274). -/
def takePage (s : State) (p mode size : Nat) : Option (State × Nat) :=
  let gs := s.groupsOfMode p mode
  let cur := tget 0 s.cursors (cursorKey p mode)
  let order := (gs.filter fun g => decide (cur ≤ g)) ++ gs.filter fun g => decide (g < cur)
  (takeFirst s mode size size none order).map fun r =>
    ({ r.1 with cursors := tset 0 r.1.cursors (cursorKey p mode) (r.2.2 + 1) }, r.2.1)

/-- `n` pages in order. -/
def takePages (p mode size : Nat) : Nat → State → Option (State × List Nat)
  | 0, s => some (s, [])
  | n + 1, s => (takePage s p mode size).bind fun r => (takePages p mode size n r.1).map fun q => (q.1, r.2 :: q.2)

/-- A range for the Steward's own use: the partition's NEAR groups, or its SPREAD groups when it has no NEAR group
(R277, R371). These ranges do not move the round-robin position of objects (log entry 22). -/
def takeOwn (s : State) (ctx need align : Nat) : Option (State × Nat) :=
  let p := s.ctxPart ctx
  let near := s.groupsOfMode p 1
  let r := if near.isEmpty then takeFirst s 2 need align (some ctx) (s.groupsOfMode p 2) else takeFirst s 1 need align (some ctx) near
  r.map fun r => (zeroRange r.1 r.2.1 need, r.2.1)

def freeExtent (s : State) (base : Nat) : State := { s with extents := s.extents.filter fun e => decide (e.base ≠ base) }

/-- One 64 KiB page of a slice's bin ways; a dead bank takes its way out of use (R363, R447). -/
def takeBin (s : State) (h : Nat) : Option (State × Nat) :=
  let base := 0x0800_0000_0000 + h * 2 ^ 30
  let dead := (List.range (s.slice h).binWays).filter fun w => (List.range 16).any fun i => decide (s.seal? (.binBank h (16 * w + i)) = some .dead)
  (freeAt (s.taken ++ dead.map fun w => (base + w * 2 ^ 26, 2 ^ 26)) base ((s.slice h).binWays * 2 ^ 26) 65536 65536).map fun a =>
    (wakeUnits { s with extents := s.extents ++ [{ base := a, size := 65536, ctx := none }] } a, a)

/-- `n` pages round robin over slices, starting with the first (R363). -/
def takeBins (hs : List Nat) : Nat → Nat → State → Option (State × List Nat)
  | 0, _, s => some (s, [])
  | n + 1, i, s =>
    let order := (hs.drop (i % hs.length)) ++ hs.take (i % hs.length)
    match order.findSome? fun h => (takeBin s h).map fun r => (r, h) with
    | none => none
    | some (r, h) => (takeBins hs n (((List.range hs.length).find? fun j => nth? hs j == some h).getD 0 + 1) r.1).map fun q => (q.1, r.2 :: q.2)

/-! ## Leaves and tables (R276, R277) -/

/-- A leaf entry (*Table 10-7*). -/
def mkLeaf (frame : Nat) (r w x : Bool) (attr : Nat) (moving nomove commons ep : Bool) (epoch : Nat) : W64 :=
  let b := fun (v : Bool) (i : Nat) => if v then 2 ^ i else 0
  w64 (5 + frame + b r 48 + b w 49 + b x 50 + fld attr 53 51 + b moving 54 + b nomove 55 + b commons 56 + b ep 57 + fld epoch 63 58)

def writeWord (s : State) (pa : Nat) (e : W64) : State := s.write pa (vecBytes e)

/-- Find, and build where it is missing, the entry of a level for an address. -/
def entryFor (s : State) (ctx v target : Nat) : List Nat → Nat → Option (State × Nat)
  | [], table => some (s, table)
  | level :: rest, table =>
    let pa := table + 8 * levelIndex level v
    if level = target then some (s, pa) else
    let e := s.tableEntry pa
    if leafV e then entryFor s ctx v target rest (bits e 47 8 * 256)
    else
      let n := tableSize (level - 1)
      match takeOwn s ctx n n with
      | none => none
      | some (s1, a) => entryFor (writeWord s1 pa (w64 (a + 1))) ctx v target rest a

/-- Write a leaf for an address of a context. -/
def setLeaf (s : State) (ctx v level : Nat) (leaf : W64) (obj : Option Nat) (page : Nat) : Option State :=
  match s.ctx? ctx with
  | none => none
  | some c => (entryFor s ctx v level [4, 3, 2, 1, 0] c.root.toNat).map fun r =>
      let l : LeafRec := { ctx := ctx, va := v, level := level, entry := BitVec.ofNat 48 r.2, obj := obj, page := page }
      { writeWord r.1 r.2 leaf with leaves := r.1.leaves ++ [l] }

/-- The leaves of a context that meet a range. -/
def State.leavesIn (s : State) (ctx lo n : Nat) : List LeafRec :=
  s.leaves.filter fun l => decide (l.ctx = ctx) && meets l.va (2 ^ levelShift l.level) lo n

/-- Clear leaves: V becomes 0 and the record goes. -/
def clearLeaves (s : State) (ls : List LeafRec) : State :=
  let s1 := ls.foldl (fun s l => writeWord s l.entry.toNat 0) s
  { s1 with leaves := s1.leaves.filter fun l => !ls.contains l }

/-- Rewrite a leaf in place. -/
def reLeaf (s : State) (l : LeafRec) (f : W64 → W64) : State := writeWord s l.entry.toNat (f (s.tableEntry l.entry.toNat))

def setMoving (on : Bool) (e : W64) : W64 := if on then e ||| 0x0040_0000_0000_0000 else e &&& 0xFFBF_FFFF_FFFF_FFFF

/-- The addresses of the system region (*Table 13-4*). -/
def sysBase : Nat := 0x00FF_FFFF_F000_0000
def doorbellVA (q : Nat) : Nat := 0x00FF_FFFF_F100_0000 + 65536 * q
def declVA (k : Nat) : Nat := 0x00FF_FFFF_F400_0000 + 65536 * k

/-! ## The capability block (R32, R33) -/

def State.enabledCores (s : State) : List Nat := (List.range Config.cores).filter s.coreEnabled

def orderCode (s : State) : Nat := if s.orderC then 2 else 1

/-- *Tables 2-2 to 2-5*. -/
def capBlock (s : State) : List Byte :=
  let on := s.enabledCores
  let deadSlices := (List.range 12).filter fun h => s.deadEps.contains (.tallySlice h)
  let live := 12 - deadSlices.length
  let hbm := ((List.range 96).filter s.hbmUsable).length * groupBytes
  let cel := ((List.range s.cellarGroupsCount).filter s.cellarUsable).length * groupBytes
  leBytes 8 (fld 0x400 63 48 + fld Config.contractMajor 47 40 + fld Config.contractMinor 39 32 + fld 0xB0 31 24 + fld (orderCode s) 23 16 + fld on.length 15 0) ++
  leBytes 8 0xFF ++
  leBytes 8 (fld 0x1000 63 48 + fld 0x30 39 32 + fld 0x20 31 24 + fld 0x10 23 16 + fld 0x20 15 8 + fld 4 7 0) ++
  leBytes 8 s.capGen ++ leBytes 8 0x4000_0000 ++ leBytes 8 hbm ++ leBytes 8 cel ++
  leBytes 4 (Config.watchesPerHall * live) ++ leBytes 4 (Config.talliesPerHall * live) ++
  ((List.range 48).map fun d => BitVec.ofNat 8 ((List.range 88).filter fun k => s.coreEnabled (88 * d + k)).length) ++ zeros 16 ++
  ((List.range 528).map fun i => BitVec.ofNat 8 (packFields 1 (fun j => if s.coreEnabled (8 * i + j) then 1 else 0) 8)) ++
  zeros 368

/-- The fields of the block other than the generation (*Table 2-2*). -/
def capFields (s : State) : List Byte := (capBlock s).take 24 ++ (capBlock s).drop 32

/-- A field of the block has changed: the generation rises and every context's copy is rewritten (R33, R361). -/
def capChanged (s : State) : State :=
  let s1 := { s with capGen := s.capGen + 1 }
  let b := capBlock s1
  s1.contexts.foldl (fun s e => s.write e.2.capPage.toNat b) s1

/-- The state after a change: the generation rises if another field of the block differs from what it was (R32, R33). -/
def capIfChanged (old new : State) : State := if capFields old = capFields new then new else capChanged new

end Sys2Proof.Machine
end

