-- ==== Sys2Proof/Machine/Policies.lean ====
section
/-! DEFINITION. The policy records and the regulators' defaults, as the Steward and the sideband read and write them, and
the measurement log that every write of one extends (R292, R297, R311, R461, R462, R480). -/

namespace Sys2Proof.Machine

/-! ## The measurement log (R480) -/

/-- A measurement entry as 64 bytes (*Table 17-11*). -/
def measureBytes (m : Measure) : List Byte :=
  leBytes 8 m.index ++ leBytes 8 m.time ++ leBytes 2 m.kind ++ vecBytes m.part ++ vecBytes m.code ++ zeros 8 ++ vecBytes m.digest

/-- Append an entry: the chain head becomes SHA-256 of the head and the entry. -/
def measure (s : State) (kind part code : Nat) (digest : BitVec 256) : State :=
  let f := s.flash
  let m : Measure :=
    { index := f.measureCount + 1, time := s.now, kind := kind, part := BitVec.ofNat 16 part, code := w32 code, digest := digest }
  { s with flash := { f with
    measures := lastN 16384 (f.measures ++ [m]), measureCount := f.measureCount + 1
    chain := sha256N (vecBytes f.chain ++ measureBytes m) } }

/-- The entry for a record that has been written: the digest of the record as stored. -/
def measureRecord (s : State) (kind part code : Nat) (r : List Byte) : State := measure s kind part code (sha256N r)

/-! ## Records (*Tables 10-11, 10-14, 11-3, 17-5*) -/

/-- TIER_POLICY as stored. -/
def tierStore (v : W64) : W64 :=
  w64 (fld (bits v 57 57) 57 57 + fld (bits v 56 56) 56 56 + fld (clamp 1 25 (bits v 55 48)) 55 48 +
    fld (clamp 1 255 (bits v 47 40)) 47 40 + fld (clamp 1 255 (bits v 39 32)) 39 32 + fld (clamp 1 20 (bits v 31 24)) 31 24 +
    fld (clamp 1 16 (bits v 23 16)) 23 16 + fld (bits v 9 8) 9 8)

def tierReserved (v : W64) : Bool := decide (bits v 63 58 ≠ 0) || decide (bits v 15 10 ≠ 0) || decide (bits v 7 0 ≠ 0)

/-- FENCE_POLICY as stored. -/
def fenceStore (v : W64) : W64 := w64 (clamp 10 100000 (bits v 16 0))

/-- REEVE_POLICY as stored. -/
def reeveStore (v : W64) : W64 :=
  let lo := clamp 16 42 (bits v 57 52)
  let ra := bits v 43 32
  w64 (fld lo 57 52 + fld (clamp lo 42 (bits v 51 46)) 51 46 + fld ra 43 32 + fld (min (bits v 31 20) ra) 31 20 +
    fld (bits v 19 16) 19 16 + fld (max 1 (bits v 15 8)) 15 8)

def reeveReserved (v : W64) : Bool := decide (bits v 63 58 ≠ 0) || decide (bits v 45 44 ≠ 0) || decide (bits v 7 0 ≠ 0)

/-! ## Regulators (R297) -/

/-- The rate of a resource in GB/s: a stack's 2,460, a cellar die's rate of *Table 9-5*. -/
def State.regRate (s : State) (res : Nat) : Nat := if res < 24 then 2460 else if s.orderC then 1024 else 2048

def configured (s : State) (p : Nat) : Bool := decide ((s.part p).state ≠ .unconfigured)

/-- The default GUAR of a partition on a resource. Each share of the 10% is rounded down (log entry 24). -/
def guarDefault (s : State) (p res : Nat) : Nat :=
  let rate := s.regRate res
  let n := (partHalls (s.part p)).length
  if 24 ≤ res then rate * n / 12 else
  let owner := s.partOfHall (res / 2)
  let commons := (List.range 4).any fun i => decide ((s.hbmEntry (4 * res + i)).mode = 4)
  if commons then
    if owner = some p then rate * 9 / 10
    else
      let others := ((List.range 12).filter fun q => configured s q && decide (owner ≠ some q)).map fun q => (partHalls (s.part q)).length
      let sum := others.foldl (· + ·) 0
      if sum = 0 then 0 else (rate - rate * 9 / 10) * n / sum
  else if owner = some p then rate else 0

/-- Every regulator of a partition takes its default with LOCK clear. -/
def resetRegs (s : State) (p : Nat) : State :=
  (List.range 26).foldl (fun s res =>
    let r : Regulator := { guar := guarDefault s p res, borrow := s.regRate res, lock := false, used := 0, eff := s.regRate res, waits := 0, calm := 0 }
    { s with regs := tset Regulator.reset s.regs (regKey res p) r }) s

def dropRegs (s : State) (p : Nat) : State :=
  { s with regs := s.regs.filter fun e => decide (e.1 % 16 ≠ p) }

def regWord (r : Regulator) : W64 := w64 (fld r.guar 47 32 + fld r.borrow 31 16 + (if r.lock then 1 else 0))

/-- The guarantees of the other partitions on a resource. -/
def guarOthers (s : State) (p res : Nat) : Nat :=
  (((List.range 12).filter fun q => decide (q ≠ p) && configured s q).map fun q =>
    (tget Regulator.reset s.regs (regKey res q)).guar).foldl (· + ·) 0

/-- Do the guarantees on a resource exceed its rate (R297)? -/
def regsOver (s : State) : Bool :=
  (List.range 26).any fun r => decide (s.regRate r < guarOthers s 12 r)

/-- The records that partitions are restored from at module reset (R426, R489). -/
def saveParts (s : State) : State := { s with flash := { s.flash with parts := s.parts, regs := s.regs } }

/-! ## Access to a record -/

/-- Read or write a policy record: 0 TIER_POLICY, 1 FENCE_POLICY, 2 a regulator, 3 REEVE_POLICY. Answers the status, the
record as stored and the effective value (*Tables 13-2, 17-3*). `field` is the status of a reserved bit. -/
def policyAccess (s : State) (p rec rw res : Nat) (v : W64) (field : W16) : State × W16 × W64 × W64 :=
  let pt := s.part p
  let wrote := fun (s : State) (r : W64) => saveParts (measureRecord s 5 p rec (vecBytes r))
  match rec with
  | 0 =>
    let s1 := if rw = 1 then
        let r := tierStore v
        wrote (s.setPart p { pt with tier := r }) r
      else s
    if rw = 1 ∧ tierReserved v = true then (s, field, 0, 0)
    else if rw = 1 ∧ bits v 9 8 = 3 then (s, 0x0210, 0, 0)
    else
      let t := (s1.part p).tier
      let thr := (tget Tier.reset s1.tiers p).threshold
      let eff := if bit t 57 then bits t 47 40 else max thr (bits t 47 40)
      (s1, 0, t, w64 eff)
  | 1 =>
    if rw = 1 ∧ bits v 63 17 ≠ 0 then (s, field, 0, 0)
    else
      let r := fenceStore v
      let s1 := if rw = 1 then wrote (s.setPart p { pt with fence := r }) r else s
      (s1, 0, (s1.part p).fence, 0)
  | 2 =>
    let k := regKey res p
    let r := tget Regulator.reset s.regs k
    if rw = 1 then
      let rate := s.regRate res
      let g := bits v 47 32
      if bits v 63 48 ≠ 0 ∨ bits v 15 1 ≠ 0 then (s, field, 0, 0)
      else if rate < g + guarOthers s p res then (s, 0x0318, 0, 0)
      else
        let b := max g (min (bits v 31 16) rate)
        let r1 : Regulator := { guar := g, borrow := b, lock := bit v 0, used := r.used, eff := b, waits := 0, calm := 0 }
        (wrote { s with regs := tset Regulator.reset s.regs k r1 } (regWord r1), 0, regWord r1, w64 b)
    else (s, 0, regWord r, w64 r.eff)
  | _ =>
    if rw = 1 ∧ reeveReserved v = true then (s, field, 0, 0)
    else
      let r := reeveStore v
      let s1 := if rw = 1 then wrote (s.setPart p { pt with reeve := r }) r else s
      (s1, 0, (s1.part p).reeve, 0)

end Sys2Proof.Machine
end

