-- ==== Sys2Proof/Machine/Steward.lean ====
section
/-! DEFINITION. How the Steward takes and checks requests, and its commands on the module, contexts, tallies, epochs and
policies (R351 to R362, R517, R246, R334, R337, R338, R348). -/

namespace Sys2Proof.Machine

/-! ## The command set (*Table 13-2*) -/

inductive CtxNeed where
  | noCtx | active | live
  deriving DecidableEq, Repr

def ff (n : Nat) : List Nat := List.replicate n 0xFF
def rz (n : Nat) : List Nat := List.replicate n 0

/-- What a command needs of its context, and for each payload byte up to E the bits that are not reserved. -/
def cmdSpec (cmd : Nat) : Option (CtxNeed × List Nat) :=
  match cmd with
  | 0x01 => some (.noCtx, [])
  | 0x02 | 0x03 | 0x2A | 0x2B => some (.noCtx, ff 4)
  | 0x10 => some (.noCtx, ff 2 ++ [0x01, 0xFF])
  | 0x11 | 0x12 => some (.live, [])
  | 0x13 => some (.active, [0xFF, 0x01])
  | 0x14 => some (.live, ff 10)
  | 0x15 => some (.live, ff 7 ++ rz 1 ++ ff 4)
  | 0x20 => some (.active, ff 10 ++ [0x01] ++ rz 1 ++ ff 2)
  | 0x21 => some (.active, ff 4 ++ rz 4 ++ ff 24 ++ [0x07, 0xFF, 0x01, 0xFF])
  | 0x22 => some (.active, ff 16)
  | 0x23 | 0x43 => some (.active, ff 6 ++ rz 2 ++ ff 8)
  | 0x24 | 0x31 | 0x39 | 0x41 | 0x44 | 0x45 => some (.active, ff 4)
  | 0x25 | 0x33 | 0x46 => some (.live, ff 4)
  | 0x28 => some (.noCtx, ff 8)
  | 0x29 => some (.active, ff 4 ++ rz 4 ++ ff 24)
  | 0x30 => some (.active, ff 11 ++ rz 1 ++ ff 8)
  | 0x32 | 0x42 => some (.active, ff 4 ++ rz 4 ++ ff 8)
  | 0x38 => some (.active, ff 11 ++ [0x0F, 0xFF, 0x00, 0xFF, 0x0F] ++ ff 8 ++ rz 40)
  | 0x40 => some (.active, ff 8)
  | 0x48 => some (.active, ff 1)
  | 0x49 => some (.active, ff 8)
  | 0x50 => some (.noCtx, ff 4 ++ rz 4 ++ ff 8)
  | 0x58 => some (.noCtx, [0xFF, 0x00, 0xFF, 0x0F, 0xFF, 0x81, 0xFF, 0x00] ++ ff 2 ++ rz 6 ++ ff 8 ++ ff 14 ++ rz 2 ++ ff 24)
  | 0x59 | 0x5A | 0x5B => some (.noCtx, ff 1)
  | 0x5C => some (.noCtx, ff 4)
  | 0x60 => some (.noCtx, ff 2 ++ rz 2 ++ ff 4)
  | 0x61 => some (.active, ff 7)
  | 0x62 => some (.live, ff 8)
  | _ => none

/-- The bits of payload byte `i` that are not reserved. In a declaration, bytes past its header are stream records, whose
last 8 bytes are reserved, and tile addresses (*Table 13-7*); R370 checks its length (R517). -/
def usedBits (cmd : Nat) (mask : List Nat) (pl : List Byte) (i : Nat) : Nat :=
  match nth? mask i with
  | some m => m
  | none =>
    if cmd = 0x38 then
      let recs := 32 * (le pl 6 1 + le pl 7 1)
      if i < 64 + recs then (if (i - 64) % 32 < 0x18 then 0xFF else 0)
      else 0xFF
    else 0

/-- Checks 1 to 3 of R354: 0 when all hold. -/
def headerStatus (msg : List Byte) : W16 :=
  let cmd := msgCmd msg
  let pl := msgPayload msg
  match cmdSpec cmd with
  | none => 0x0201
  | some (need, mask) =>
    let n := msgLen msg
    let e := mask.length
    if n ≠ pl.length ∨ 4064 < n ∨ n < e ∨ (cmd ≠ 0x38 ∧ 8 * cdiv e 8 < n) then 0x0202
    else if le msg 12 4 % 2 ^ 20 ≠ 0 ∨ le msg 8 4 ≠ 0 ∨ le msg 0 8 ≠ 0 ∨ (msgCtx msg ≠ 0 ∧ msgGen msg = 0) ∨
        (need = .noCtx ∧ msgGen msg ≠ 0) ∨
        ((List.range n).any fun i => decide ((le pl i 1) &&& (0xFF - usedBits cmd mask pl i) ≠ 0)) = true then 0x0203
    else 0

/-- A mailbox frame's message reaches the Steward (R352, R354 checks 1 to 3). -/
def takeMessage (s : State) (mb : Nat) (msg : List Byte) : State :=
  let plain := fun (st : W16) => sendMail s mb (message (msgCmd msg) (msgTag msg) 0 0 st.toNat s.now [])
  if mb = 63 ∧ msgCmd msg ≠ 2 then plain 0x0205
  else if (tfind s.mailboxes mb).isSome then plain 0x0204
  else
    let m : Mailbox := { msg := msg, order := s.mailOrder, waiting := false, response := none }
    let s1 := { s with mailboxes := tput s.mailboxes mb m, mailOrder := s.mailOrder + 1 }
    if headerStatus msg = 0 then s1 else respond s1 mb (headerStatus msg) []

/-! ## Order of effect (R353) -/

/-- The tallies that a declaration's stream records name. -/
def declTallies (d : List Byte) : List Nat :=
  (List.range (le d 6 1 + le d 7 1)).flatMap fun k => [le d (76 + 32 * k) 4, le d (80 + 32 * k) 4]

/-- The contexts, memory objects and tallies that a request names. A queue or station is named together with its context. -/
def names (msg : List Byte) : List (Nat × Nat) :=
  let c := msgCmd msg
  let pl := msgPayload msg
  (if msgGen msg = 0 then [] else [(0, msgCtx msg)]) ++
  (if c = 0x23 ∨ c = 0x43 then [(0, le pl 4 2)] else []) ++
  (if c = 0x21 ∨ c = 0x23 ∨ c = 0x24 ∨ c = 0x25 ∨ c = 0x29 ∨ c = 0x2A ∨ c = 0x2B then [(1, le pl 0 4)] else []) ++
  (if 0x41 ≤ c ∧ c ≤ 0x46 then [(2, le pl 0 4)] else []) ++
  (if c = 0x30 ∧ le pl 8 1 = 1 then [(2, le pl 12 4), (2, le pl 16 4)] else []) ++
  (if c = 0x38 then (declTallies pl).map fun h => (2, h) else [])

/-- Does a request hold back a later one that names the same thing: it has not taken its whole effect yet (R353)? A destroy
that runs holds back nothing, and a destroy stops the commands that run on its context (R375). -/
def Mailbox.holds (e m : Mailbox) : Bool :=
  decide (e.order < m.order) && e.response.isNone && !(e.waiting && (decide (msgCmd e.msg = 0x11) || decide (msgCmd m.msg = 0x11))) &&
    (names e.msg).any fun x => (names m.msg).contains x

/-- Must a request wait for one that arrived earlier (R353)? -/
def State.blocked (s : State) (m : Mailbox) : Bool := s.mailboxes.any fun e => e.2.holds m

/-- A command that begins a wait: its ticket is its place in the order of arrival. -/
def beginWait (s : State) (mb : Nat) : State :=
  match tfind s.mailboxes mb with
  | some m => { s with mailboxes := tput s.mailboxes mb { m with waiting := true } }
  | none => s

def State.ticket (s : State) (mb : Nat) : Nat := ((tfind s.mailboxes mb).map (·.order)).getD 0

/-- Run the request in a mailbox when it is the given command, in the order of R353 and after checks 4 to 7 of R354. A
failed module answers CAP_READ and reads of LOST contexts (R445). The body gets the mailbox, the context number and the
payload, and sends the response or begins a wait. -/
def runCmd (cmd : Nat) (mb : Nat) (s : State) (body : State → Nat → List Byte → State) : Host.Outcome State Fault Refusal :=
  match tfind s.mailboxes mb with
  | none => .next s
  | some m =>
    if msgCmd m.msg ≠ cmd ∨ m.waiting = true ∨ m.response.isSome = true ∨ s.blocked m = true then .next s else
    match cmdSpec cmd with
    | none => .next s
    | some (need, _) =>
      let c := msgCtx m.msg
      let last := tget 0 s.lastGen c
      let lost := match s.ctx? c with
        | some x => decide (x.state = .lost)
        | none => false
      if s.power.st = .failed ∧ cmd ≠ 1 ∧ ¬(need = .live ∧ cmd ≠ 0x11 ∧ lost = true) then .next (respond s mb 0x0702 [])
      else if need = .noCtx then .next (body s 0 (msgPayload m.msg))
      else match s.ctx? c with
        | none => .next (respondGen s mb last 0x0302 [])
        | some x =>
          if x.gen ≠ msgGen m.msg then .next (respondGen s mb x.gen 0x0302 [])
          else if x.state = .destroying then .next (respond s mb 0x0303 [])
          else if x.state = .lost ∧ need = .active then .next (respondGen s mb x.gen 0x0301 [])
          else if (s.part x.part).state = .down ∧ s.power.st ≠ .failed then .next (respond s mb 0x030F [])
          else .next (body s c (msgPayload m.msg))

/-! ## The module: CAP_READ, NOTICE_ACK, SESSION_GRACE -/

/-- CAP_READ (R32). -/
def execCapRead (mb : Nat) (s : State) : Host.Outcome State Fault Refusal :=
  runCmd 0x01 mb s fun s _ _ => respond s mb 0 (capBlock s)

/-- NOTICE_ACK names the TAG of the notice that is unanswered (R356). -/
def execNoticeAck (mb : Nat) (s : State) : Host.Outcome State Fault Refusal :=
  runCmd 0x02 mb s fun s _ pl => match s.noticeOut with
    | some (tag, _) => if tag.toNat = le pl 0 4 then respond { s with noticeOut := none } mb 0 [] else respond s mb 0x0210 []
    | none => respond s mb 0x0210 []

/-- SESSION_GRACE: 0 to 60 s, a larger value stores 60 (R377). -/
def execSessionGrace (mb : Nat) (s : State) : Host.Outcome State Fault Refusal :=
  runCmd 0x03 mb s fun s _ pl =>
    let v := min 60 (le pl 0 4)
    respond { s with grace := v } mb 0 (pad8 (leBytes 4 v))

/-! ## Contexts (R359 to R362) -/

def State.pinnedIn (s : State) (p : Nat) : List Nat := (s.contexts.filter fun e => decide (e.2.part = p) && e.2.pinned).map (·.1)

/-- The epochs of a partition that are free for allotment, lowest first (R246). -/
def State.freeEpochs (s : State) (p : Nat) : List Nat :=
  ((List.range 64).map (64 * p + ·)).filter fun e => decide ((s.epoch e).owner = none) && decide ((s.epoch e).state = .free)

def allotEpochs (s : State) (ctx : Nat) (es : List Nat) : State :=
  es.foldl (fun s e => s.setEpoch e { s.epoch e with owner := some ctx, last := 0 }) s

/-- The mask of epochs. -/
def epochMask (es : List Nat) : Nat := packFields 1 (fun i => if es.any fun e => decide (e % 64 = i) then 1 else 0) 64

/-- The next generation (R359): a new block of 2^20 is reserved in flash before its first value is used. -/
def takeGen (s : State) : Option (State × Nat) :=
  if s.genNext < s.genEnd then some ({ s with genNext := s.genNext + 1 }, s.genNext)
  else
    let c := tget Life.reset s.reeve.life 4
    if 2 ^ 64 - 1 ≤ c.value then none
    else
      let s1 := lifeUp s 4 (2 ^ 20)
      let v := tget Life.reset s1.reeve.life 4
      let s2 := { s1 with flash := { s1.flash with life := tset Life.reset s1.flash.life 4 v } }
      some ({ s2 with genNext := c.value + 1, genEnd := v.value }, c.value)

def Context.fresh (gen part prio : Nat) (pinned : Bool) : Context :=
  { gen := gen, part := part, state := .active, resident := false, residentSince := 0, pinned := pinned, prio := prio,
    root := 0, capPage := 0, lossStatus := 0, lossCore := 0, lossStation := 0, lossTime := 0, lossAddr := 0, bellCount := 0,
    bellLog := [], refStatus := 0, refCount := 0, refEpoch := 0, evCount := 0, evDropped := 0, evFlag := false,
    destroyMb := none, escalated := false }

/-- The root table, the capability page and the system leaves of a new context (R360, R361), or none where the carve-out
cannot hold them. -/
def buildContext (s : State) (c : Nat) (x : Context) : Option State :=
  (takeOwn (s.setCtx c x) c 2048 2048).bind fun r =>
  (takeOwn r.1 c 65536 65536).bind fun q =>
    let s1 := (q.1.setCtx c { x with root := BitVec.ofNat 48 r.2, capPage := BitVec.ofNat 48 q.2 }).write q.2 (capBlock s)
    (setLeaf s1 c sysBase 0 (mkLeaf q.2 true false false 0 false true false false 0) none 0).bind fun s2 =>
    (setLeaf s2 c (sysBase + 0x10000) 0 (mkLeaf (0x0C00_1000_0000 + 65536 * c) true true false 4 false true false false 0) none 0).bind fun s3 =>
    setLeaf s3 c (sysBase + 0x20000) 0 (mkLeaf (0x0C00_2000_0000 + 65536 * c) true true false 4 false true false false 0) none 0

/-- CTX_CREATE (R360). -/
def execCtxCreate (mb : Nat) (s : State) : Host.Outcome State Fault Refusal :=
  runCmd 0x10 mb s fun s _ pl =>
    let p := le pl 0 1
    let prio := le pl 1 1
    let pin := decide (le pl 2 1 = 1)
    let want := le pl 3 1
    let st := (s.part p).state
    let free := s.freeEpochs p
    if 11 < p ∨ 7 < prio ∨ 64 < want then respond s mb 0x0210 []
    else if st = .unconfigured ∨ st = .down then respond s mb 0x030F []
    else match lowest 4096 fun c => (s.ctx? c).isNone with
      | none => respond s mb 0x0305 []
      | some c => match takeGen s with
        | none => respond s mb 0x0306 []
        | some (s1, gen) =>
          if pin = true ∧ 3 ≤ (s.pinnedIn p).length then respond s mb 0x030B []
          else if free.length < want then respond s mb 0x0311 []
          else match buildContext s1 c (Context.fresh gen p prio pin) with
            | none => respond s mb 0x0412 []
            | some s2 =>
              let s3 := allotEpochs { s2 with lastGen := tput s2.lastGen c gen } c (free.take want)
              respond s3 mb 0 (leBytes 2 c ++ zeros 6 ++ leBytes 8 gen)

def ctxStateCode : CtxState → Nat
  | .active => 1
  | .lost => 2
  | .destroying => 3

/-- The context state word (*Table 13-3b*). -/
def ctxWord (n : Nat) (c : Context) : Nat :=
  fld (ctxStateCode c.state) 63 56 + (if c.resident then 2 ^ 55 else 0) + (if c.pinned then 2 ^ 54 else 0) + fld c.prio 53 51 +
  fld c.part 47 44 + fld n 39 28

/-- The context descriptor (*Table 13-3*). -/
def ctxDescriptor (s : State) (n : Nat) (c : Context) : List Byte :=
  let es := (s.epochs.filter fun e => decide (e.2.owner = some n)).map (·.1)
  let qs := (s.queues.filter fun e => decide (e.2.ctx = n)).length
  let sts := (s.stations.filter fun e => decide (e.2.ctx = n)).length
  let refs := (s.objs.filter fun e => e.2.refs.contains n).length
  let held := ((s.extents.filter fun e => decide (e.ctx = some n)).map (·.size)).foldl (· + ·) 0
  leBytes 8 (ctxWord n c) ++ leBytes 8 c.gen ++ leBytes 8 c.root.toNat ++ leBytes 8 (epochMask es) ++
  leBytes 8 (sysBase + 0x10000) ++ leBytes 8 sysBase ++
  leBytes 8 (fld c.lossStatus.toNat 63 48 + fld c.lossCore 47 32 + c.lossStation.toNat) ++ leBytes 8 c.lossTime ++
  vecBytes c.lossAddr ++ leBytes 8 c.bellCount ++ leBytes 8 (fld qs 63 48 + fld sts 47 32 + fld refs 31 0) ++ leBytes 8 held ++ zeros 32

/-- CTX_QUERY (R360). -/
def execCtxQuery (mb : Nat) (s : State) : Host.Outcome State Fault Refusal :=
  runCmd 0x12 mb s fun s c _ => match s.ctx? c with
    | some x => respond s mb 0 (ctxDescriptor s c x)
    | none => s

/-- CTX_SET. -/
def execCtxSet (mb : Nat) (s : State) : Host.Outcome State Fault Refusal :=
  runCmd 0x13 mb s fun s c pl => match s.ctx? c with
    | none => s
    | some x =>
      let pin := decide (le pl 1 1 = 1)
      if 7 < le pl 0 1 then respond s mb 0x0210 []
      else if pin = true ∧ 3 ≤ ((s.pinnedIn x.part).filter fun k => decide (k ≠ c)).length then respond s mb 0x030B []
      else respond (s.setCtx c { x with prio := le pl 0 1, pinned := pin }) mb 0 []

/-- BELL_LOG_READ: an index that is not kept reads as zeros (R362). -/
def execBellLogRead (mb : Nat) (s : State) : Host.Outcome State Fault Refusal :=
  runCmd 0x14 mb s fun s c pl => match s.ctx? c with
    | none => s
    | some x =>
      let n := le pl 8 2
      let first := le pl 0 8
      let oldest := x.bellCount - x.bellLog.length
      if n = 0 ∨ 127 < n then respond s mb 0x0210 []
      else respond s mb 0 ((List.range n).flatMap fun i =>
        if first + i < oldest then zeros 32 else ((nth? x.bellLog (first + i - oldest)).map bellBytes).getD (zeros 32))

/-! ## Park records (R75) and debug (R111, *Table 13-2*) -/

def pathKindCode : PathKind → Nat
  | .run => 1
  | .join => 2
  | .barrier _ => 3
  | .watch _ _ => 4
  | .spin _ => 5

/-- A divergence stack entry as 32 bytes (*Table 3-4*). -/
def pathBytes (p : Option Path) : List Byte :=
  match p with
  | none => zeros 32
  | some p => zeros 8 ++ leBytes 8 (min p.wait 0xFFFF + pathKindCode p.kind * 2 ^ 16 + (p.parent.getD 0xFF) * 2 ^ 24 + p.mask.toNat * 2 ^ 32) ++
      zeros 8 ++ leBytes 8 (p.pc.toNat * 256)

/-- The park record header (*Table 3-10*). ACTIVE is 0 when the group has no active path, which the table does not give (DESIGN
CHOICE, log entry 120). -/
def parkHeader (r : Parked) : List Byte :=
  let g := r.grp
  zeros 8 ++ leBytes 4 r.station ++ vecBytes r.aux ++ leBytes 2 r.inst ++ leBytes 2 r.core ++ zeros 1 ++ leBytes 7 r.addr.toNat ++
  leBytes 8 r.time ++ leBytes 8 g.gen ++ [BitVec.ofNat 8 ((if g.bell then 1 else 0) + if g.raEnded then 2 else 0)] ++
  leBytes 7 r.pc.toNat ++ leBytes 1 (g.active.getD 0) ++ leBytes 1 r.index ++ leBytes 1 g.stack.length ++ leBytes 1 (g.vregs / 8) ++
  vecBytes r.status ++ vecBytes r.reason ++ [1]

/-- A park record as it stands in the save area (*Table 3-9*). -/
def parkBytes (r : Parked) : List Byte :=
  let g := r.grp
  parkHeader r ++ leBytes 8 g.live.toNat ++ leBytes 8 g.barWdog ++ leBytes 8 g.runAheadMax.toNat ++ zeros 8 ++
  ((List.range 8).flatMap fun i => match tfind g.bars i with
    | some b => leBytes 8 b.count ++ zeros 4 ++ vecBytes b.arrived
    | none => zeros 16) ++
  ((List.range 8).flatMap fun i => if i = 0 then leBytes 4 0xFFFFFFFF else vecBytes (tget 0 g.preds i)) ++
  ((List.range 64).flatMap fun i => vecBytes (tget 0 g.sregs i)) ++
  ((List.range 64).flatMap fun i => pathBytes (tfind g.stack i)) ++
  (List.range g.vregs).flatMap fun i => vecBytes (tget 0 g.vfile i)

/-- A station handle names a station of the context. -/
def stationHandle (n tag : Nat) : Nat := n * 65536 + tag
def State.stationOf (s : State) (ctx h : Nat) : Option (Nat × Station) :=
  match tfind s.stations (h / 65536) with
  | some x => if x.tag = h % 65536 ∧ x.ctx = ctx then some (h / 65536, x) else none
  | none => none

/-- PARK_READ: the station is found first, then the fields against it, then the group must be parked (R517). -/
def execParkRead (mb : Nat) (s : State) : Host.Outcome State Fault Refusal :=
  runCmd 0x15 mb s fun s c pl => match s.stationOf c (le pl 0 4) with
    | none => respond s mb 0x0315 []
    | some (_, st) =>
      let len := 2816 + 128 * st.vregs
      let off := le pl 8 4
      if st.insts ≤ le pl 4 2 ∨ st.groups ≤ le pl 6 1 ∨ len ≤ off then respond s mb 0x0210 []
      else match s.findParked (le pl 0 4) (le pl 4 2) (le pl 6 1) with
        | none => respond s mb 0x0313 []
        | some r => respond s mb 0 (((parkBytes r).drop off).take 4064)

/-- DEBUG_RESUME: the debugger's resume of a group parked with reason DEBUG (*Table 3-8*). -/
def execDebugResume (mb : Nat) (s : State) : Host.Outcome State Fault Refusal :=
  runCmd 0x61 mb s fun s c pl => match s.stationOf c (le pl 0 4) with
    | none => respond s mb 0x0315 []
    | some _ => match s.findParked (le pl 0 4) (le pl 4 2) (le pl 6 1) with
      | none => respond s mb 0x0313 []
      | some r =>
        if r.reason ≠ 7 then respond s mb 0x0313 []
        else respond { s with parked := s.parked.map fun (q : Parked) => if q = r then { q with resume := true } else q } mb 0 []

/-- A scoreboard entry (*Table 7-3*). -/
def scoreWord (e : Score) : Nat :=
  2 ^ 127 + (if e.write then 2 ^ 126 else 0) + e.unit.toNat * 2 ^ 124 + e.slot.toNat * 2 ^ 118 + e.start.toNat * 2 ^ 98 +
  e.last.toNat * 2 ^ 84 + e.seq % 2 ^ 64

/-- A directory entry (*Table 11-6*). -/
def dirWord (l : Nat) (d : DirEntry) : Nat :=
  let st := if d.busy.isSome then 4 else match d.st with
    | .i => 0
    | .ptrs _ => 1
    | .coarse _ => 2
    | .owned _ => 3
  let n := match d.st with
    | .ptrs cs => (cs.length - 1) * 2 ^ 82 + packFields 13 (fun i => (nth? cs i).getD 0) 4
    | .coarse m => m.toNat
    | .owned c => c
    | .i => 0
  l * 2 ^ 87 + st * 2 ^ 84 + n

/-- The state of a group slot: what it holds and how far that has come. -/
def slotState (slot : Nat) (k : Group) : List Nat :=
  let mode := match k.mode with
    | .running => 0
    | .waitParked => 1
    | .parking _ => 2
    | .stopped => 3
  [slot, mode, k.ctx, k.gen, k.station, k.inst, k.index, k.pc.toNat]

/-- The parts of a core's debug dump; the manual gives no layout for it (log entry 25). -/
def coreDump (s : State) (c : Nat) : List Byte :=
  let k := s.core c
  let map := (s.larderMap c).toNat
  let scores := k.scores.map scoreWord
  let slots := (s.groups.filter fun e => decide (e.1 / 48 = c)).map fun e => slotState (e.1 % 48) e.2
  let lines := (s.dir.filter fun e => (tfind k.l1 e.1).isSome).map fun e => dirWord e.1 e.2
  Config.dumpFirst map scores slots lines :: Config.dumpBytes map scores slots lines

/-- DEBUG_DUMP. -/
def execDebugDump (mb : Nat) (s : State) : Host.Outcome State Fault Refusal :=
  runCmd 0x60 mb s fun s _ pl =>
    let c := le pl 0 2
    let d := coreDump s c
    if Config.cores ≤ c ∨ d.length ≤ le pl 4 4 then respond s mb 0x0210 [] else respond s mb 0 ((d.drop (le pl 4 4)).take 4064)

/-- The entries of a walk, level 4 first; zeros past an invalid one. -/
def walkWords (s : State) (v : Nat) : List Nat → Nat → List W64
  | [], _ => []
  | level :: rest, table =>
    let e := s.tableEntry (table + 8 * levelIndex level v)
    if leafV e then
      if leafIs e then e :: rest.map fun _ => 0 else e :: walkWords s v rest (bits e 47 8 * 256)
    else e :: rest.map fun _ => 0

/-- TABLE_READ: an address in the system region or beyond answers VA_RANGE. -/
def execTableRead (mb : Nat) (s : State) : Host.Outcome State Fault Refusal :=
  runCmd 0x62 mb s fun s c pl => match s.ctx? c with
    | none => s
    | some x =>
      if sysBase ≤ le pl 0 8 then respond s mb 0x0414 []
      else respond s mb 0 ((walkWords s (le pl 0 8) [4, 3, 2, 1, 0] x.root.toNat).flatMap vecBytes)

/-! ## Tallies (R333, R334, R337, R338, R348) -/

/-- The first free tally: the partition's own hall dies first, then the others (R333). -/
def State.freeTally (s : State) (p : Nat) : Option Nat :=
  let own := partHalls (s.part p)
  let halls := own ++ (List.range 12).filter fun h => !own.contains h
  (halls.filter fun h => !s.deadEps.contains (.tallySlice h)).findSome? fun h =>
    ((List.range Config.talliesPerHall).find? fun i => let t := s.tally (h * Config.talliesPerHall + i)
      !t.alloc && !t.corrupt).map fun i => h * Config.talliesPerHall + i

def State.talliesOfPart (s : State) (p : Nat) : Nat := (s.tallies.filter fun e => e.2.alloc && decide (e.2.part = p)).length

/-- TALLY_ALLOC (R337). -/
def execTallyAlloc (mb : Nat) (s : State) : Host.Outcome State Fault Refusal :=
  runCmd 0x40 mb s fun s c pl =>
    let p := s.ctxPart c
    if (s.part p).tallyQuota ≤ s.talliesOfPart p then respond s mb 0x0607 []
    else match s.freeTally p with
      | none => respond s mb 0x0607 []
      | some n =>
        let t : Tally := { Tally.reset with alloc := true, tag := nextTag 0x7FFF (s.tally n).tag, value := le pl 0 8, owner := some c, part := p }
        respond (s.setTally n t) mb 0 (pad8 (leBytes 4 (tallyHandle n t.tag)))

/-- A command on a tally that its owner alone may give: 0x0601, then 0x0609. -/
def ownTally (s : State) (mb c h : Nat) (act : Nat → State) : State :=
  match s.tallyOf c h with
  | none => respond s mb 0x0601 []
  | some n => if (s.tally n).owner = some c then act n else respond s mb 0x0609 []

/-- TALLY_FREE: the owner's watches fire CANCELLED; for importers the tally becomes abandoned (R348). -/
def execTallyFree (mb : Nat) (s : State) : Host.Outcome State Fault Refusal :=
  runCmd 0x41 mb s fun s c pl => ownTally s mb c (le pl 0 4) fun n =>
    let s1 := fireAll s n (fun x => decide (x.ctx = c)) 0x0605
    let s2 := if (s1.tally n).imports.isEmpty then s1 else abandon s1 n
    respond (poolTally (s2.setTally n { s2.tally n with owner := none, exports := [] }) n) mb 0 []

/-- TALLY_SET: the value, with SAT, UNDER and REGRESS cleared; the watches are evaluated (R338, R339). -/
def execTallySet (mb : Nat) (s : State) : Host.Outcome State Fault Refusal :=
  runCmd 0x42 mb s fun s c pl => ownTally s mb c (le pl 0 4) fun n =>
    respond (evalWatches (s.setTally n { s.tally n with value := le pl 8 8, sat := false, under := false, regress := false }) n) mb 0 []

/-- What MEM_SHARE and TALLY_EXPORT say of their target context (R348, R364): 0 when it is ACTIVE. -/
def targetStatus (s : State) (c gen : Nat) : W16 :=
  match s.ctx? c with
  | none => 0x0302
  | some x => if x.gen ≠ gen then 0x0302 else match x.state with
    | .active => 0
    | .lost => 0x0301
    | .destroying => 0x0303

/-- TALLY_EXPORT (R348). -/
def execTallyExport (mb : Nat) (s : State) : Host.Outcome State Fault Refusal :=
  runCmd 0x43 mb s fun s c pl => ownTally s mb c (le pl 0 4) fun n =>
    let t := le pl 4 2
    if targetStatus s t (le pl 8 8) ≠ 0 then respond s mb (targetStatus s t (le pl 8 8)) []
    else respond (s.setTally n { s.tally n with exports := addOnce t (s.tally n).exports }) mb 0 []

/-- TALLY_IMPORT: a tally that has been exported to the context (R348). -/
def execTallyImport (mb : Nat) (s : State) : Host.Outcome State Fault Refusal :=
  runCmd 0x44 mb s fun s c pl =>
    let h := le pl 0 4
    let n := h / 32768
    let t := s.tally n
    if t.alloc = true ∧ t.tag = h % 32768 ∧ c ∈ t.exports ∧ t.owner ≠ some c then
      respond (s.setTally n { t with imports := addOnce c t.imports }) mb 0 []
    else respond s mb 0x0601 []

/-- TALLY_RELEASE: an importer's watches fire CANCELLED and it no longer holds the tally (R348). -/
def execTallyRelease (mb : Nat) (s : State) : Host.Outcome State Fault Refusal :=
  runCmd 0x45 mb s fun s c pl => match s.tallyOf c (le pl 0 4) with
    | none => respond s mb 0x0601 []
    | some n =>
      if (s.tally n).imports.contains c = false then respond s mb 0x0601 []
      else
        let s1 := fireAll s n (fun x => decide (x.ctx = c)) 0x0605
        respond (poolTally (s1.setTally n { s1.tally n with imports := (s1.tally n).imports.erase c }) n) mb 0 []

/-- TALLY_QUERY. -/
def execTallyQuery (mb : Nat) (s : State) : Host.Outcome State Fault Refusal :=
  runCmd 0x46 mb s fun s c pl => match s.tallyOf c (le pl 0 4) with
    | none => respond s mb 0x0601 []
    | some n => respond s mb 0 (leBytes 8 (s.tally n).value ++ leBytes 8 (s.tallyFlags n c))

/-! ## Epochs (R246) -/

/-- EPOCH_ALLOT. -/
def execEpochAllot (mb : Nat) (s : State) : Host.Outcome State Fault Refusal :=
  runCmd 0x48 mb s fun s c pl =>
    let n := le pl 0 1
    let free := s.freeEpochs (s.ctxPart c)
    if n = 0 ∨ 64 < n then respond s mb 0x0210 []
    else if free.length < n then respond s mb 0x0311 []
    else respond (allotEpochs s c (free.take n)) mb 0 (leBytes 8 (epochMask (free.take n)))

/-- EPOCH_RETURN: every epoch of the mask is the context's and FREE. -/
def execEpochReturn (mb : Nat) (s : State) : Host.Outcome State Fault Refusal :=
  runCmd 0x49 mb s fun s c pl =>
    let es := ((List.range 64).filter fun i => nbits (le pl 0 8) i i = 1).map (64 * s.ctxPart c + ·)
    if es.any fun e => decide ((s.epoch e).owner ≠ some c) then respond s mb 0x040B []
    else if es.any fun e => decide ((s.epoch e).state ≠ .free) then respond s mb 0x040C []
    else respond (es.foldl (fun s e => s.setEpoch e { s.epoch e with owner := none, last := 0 }) s) mb 0 []

/-! ## PART_POLICY (R292, R297, R311) -/

/-- PART_POLICY. A reserved bit of the value answers 0x0203 (R7). -/
def execPartPolicy (mb : Nat) (s : State) : Host.Outcome State Fault Refusal :=
  runCmd 0x50 mb s fun s _ pl =>
    let p := le pl 0 1
    let rec_ := le pl 1 1
    let rw := le pl 2 1
    let res := le pl 3 1
    let st := (s.part p).state
    if 11 < p ∨ 2 < rec_ ∨ 1 < rw ∨ 25 < res ∨ (rec_ ≠ 2 ∧ res ≠ 0) then respond s mb 0x0210 []
    else if st = .unconfigured ∨ st = .down then respond s mb 0x030F []
    else
      let r := policyAccess s p rec_ rw res (w64 (le pl 8 8)) 0x0203
      if r.2.1 ≠ 0 then respond s mb r.2.1 [] else respond r.1 mb 0 (vecBytes r.2.2.1 ++ vecBytes r.2.2.2)

end Sys2Proof.Machine
end

