-- ==== Sys2Proof/Machine/StewardObj.lean ====
section
/-! DEFINITION. Memory objects and commons: creation, mapping, sharing, release; filling and sealing a commons (R46,
R247, R363 to R365, R428). -/

namespace Sys2Proof.Machine

/-! ## Handles and pages (R363) -/

def objHandle (n tag : Nat) : Nat := n * 4096 + tag

/-- The object a handle names. -/
def State.objOf (s : State) (h : Nat) : Option (Nat × Obj) :=
  match tfind s.objs (h / 4096) with
  | some o => if o.tag = h % 4096 then some (h / 4096, o) else none
  | none => none

/-- The ordinary object that a handle names and that a context holds a reference to. -/
def State.heldObj (s : State) (c h : Nat) : Option (Nat × Obj) :=
  match s.objOf h with
  | some (n, o) => if o.commons = false ∧ c ∈ o.refs then some (n, o) else none
  | none => none

def State.commonsOf (s : State) (h : Nat) : Option (Nat × Obj) :=
  match s.objOf h with
  | some (n, o) => if o.commons then some (n, o) else none
  | none => none

def pageBytes : Nat → Nat
  | 0 => 2 ^ 16
  | 1 => 2 ^ 21
  | _ => 2 ^ 30

/-- The page code of a page size; it is also the level of its leaf (*Table 10-5*). -/
def pageCode (size : Nat) : Nat := if size = 2 ^ 16 then 0 else if size = 2 ^ 21 then 1 else 2

def State.freeObjIndex (s : State) : Option Nat := lowest 1048576 fun i => (tfind s.objs i).isNone

/-- Enter an object under the lowest free index with the next tag. -/
def addObj (s : State) (i : Nat) (o : Obj) : State × Nat :=
  let tag := nextTag 0xFFF (tget 0 s.objTags i)
  ({ s with objs := tput s.objs i { o with tag := tag }, objTags := tput s.objTags i tag }, objHandle i tag)

def Obj.fresh (bytes kind page part : Nat) (nomove : Bool) (refs : List Nat) (pages : List Nat) : Obj :=
  { tag := 0, bytes := bytes, kind := kind, page := page, nomove := nomove, part := part, refs := refs,
    pages := pages.map (BitVec.ofNat 48), commons := false, refPages := [], digestBase := 0, isSealed := false, failed := false,
    badRef := [] }

/-- A memory command of a context waits while a shootdown that another one of it began is under way (R283, R285, R353). -/
def State.memBusy (s : State) (c : Nat) : Bool := s.shoots.any fun x => decide (x.asid = c) && (match x.after with
  | .respond _ | .removed _ _ => true
  | _ => false)

/-! ## MEM_CREATE (R363) -/

/-- MEM_CREATE. -/
def execMemCreate (mb : Nat) (s : State) : Host.Outcome State Fault Refusal :=
  runCmd 0x20 mb s fun s c pl =>
    let p := s.ctxPart c
    let bytes := le pl 0 8
    let kind := le pl 8 1
    let page := le pl 9 1
    let nomove := decide (le pl 10 1 = 1)
    let mask := le pl 12 2
    let hs := (List.range 16).filter fun h => decide (nbits mask h h = 1)
    let badBin := decide (mask = 0) || decide (page ≠ 0) || nomove || hs.any fun h => !(s.part p).halls.getLsbD h || decide ((s.slice h).binWays = 0)
    if bytes = 0 ∨ kind = 0 ∨ 4 < kind ∨ 2 < page ∨ (kind ≠ 4 ∧ mask ≠ 0) ∨ (kind = 4 ∧ badBin = true) then respond s mb 0x0210 []
    else match s.freeObjIndex with
      | none => respond s mb 0x030C []
      | some i =>
        let size := pageBytes page
        let n := cdiv bytes size
        let room := if kind = 4 then hs.length * 2 ^ 30 else (s.groupsOfMode p kind).length * groupBytes
        match (if room < n * size then none else if kind = 4 then takeBins hs n 0 s else takePages p kind size n s) with
        | none => respond s mb 0x0412 []
        | some (s1, ps) =>
          let s2 := ps.foldl (fun s a => zeroRange s a size) s1
          let (s3, h) := addObj s2 i (Obj.fresh (n * size) kind size p nomove [c] ps)
          respond s3 mb 0 (pad8 (leBytes 4 h))

/-! ## MEM_MAP, MEM_UNMAP (R247, R278, R364, R365) -/

/-- Write the leaves of a mapping, page by page; a page that is moving is mapped as moving. -/
def mapPages (ctx level : Nat) (obj : Nat) (o : Obj) (leaf : Nat → W64) : List (Nat × Nat) → State → Option State
  | [], s => some s
  | (v, i) :: t, s =>
    let frame := ((nth? o.pages i).map (·.toNat)).getD 0
    let moving := s.moves.any fun m => decide (m.src.toNat = frame)
    (setLeaf (wakeUnits s frame) ctx v level (setMoving moving (leaf frame)) (some obj) i).bind (mapPages ctx level obj o leaf t)

/-- MEM_MAP: checks that need no object first, then the object, then the rest in the order of *Table 13-2* (R517). -/
def execMemMap (mb : Nat) (s : State) : Host.Outcome State Fault Refusal :=
  runCmd 0x21 mb s fun s c pl =>
    if s.memBusy c then s else
    let v := le pl 8 8
    let off := le pl 16 8
    let len := le pl 24 8
    let perm := le pl 32 1
    let r := decide (nbits perm 0 0 = 1)
    let w := decide (nbits perm 1 1 = 1)
    let x := decide (nbits perm 2 2 = 1)
    let attr := le pl 33 1
    let ep := decide (le pl 34 1 = 1)
    let epoch := le pl 35 1
    if len = 0 ∨ 3 < attr ∨ (w = true ∧ r = false) ∨ 63 < epoch ∨ (ep = true ∧ attr ≠ 2) ∨ (ep = false ∧ epoch ≠ 0) then respond s mb 0x0210 []
    else if sysBase < v + len then respond s mb 0x0414 []
    else match s.objOf (le pl 0 4) with
      | none => respond s mb 0x030D []
      | some (n, o) =>
        let badEp := ep && (o.commons || !(s.part o.part).tent)
        let badCommons := o.commons && (!r || w || decide (attr ≠ 0))
        if o.commons = false ∧ ¬ c ∈ o.refs then respond s mb 0x030D []
        else if off % o.page ≠ 0 ∨ o.bytes < off + len ∨ badEp = true ∨ badCommons = true then respond s mb 0x0210 []
        else if v % o.page ≠ 0 ∨ len % o.page ≠ 0 ∨ (s.leavesIn c v len).isEmpty = false then respond s mb 0x0413 []
        else if o.commons = true ∧ o.isSealed = false then respond s mb 0x0213 []
        else if o.commons = false ∧ o.part ≠ s.ctxPart c then respond s mb 0x0310 []
        else if ep = true ∧ (s.epoch (64 * s.ctxPart c + epoch)).owner ≠ some c then respond s mb 0x040B []
        else
          let level := pageCode o.page
          let leaf := fun frame => mkLeaf frame r w x attr false o.nomove o.commons ep epoch
          let vs := (List.range (len / o.page)).map fun i => (v + i * o.page, off / o.page + i)
          match mapPages c level n o leaf vs s with
          | none => respond s mb 0x0412 []
          | some s1 => respond s1 mb 0 []

/-- MEM_UNMAP: the leaves wholly inside the range are cleared and shot down (R283, R364). -/
def execMemUnmap (mb : Nat) (s : State) : Host.Outcome State Fault Refusal :=
  runCmd 0x22 mb s fun s c pl =>
    if s.memBusy c then s else
    let v := le pl 0 8
    let len := le pl 8 8
    let ls := s.leavesIn c v len
    if len = 0 then respond s mb 0x0210 []
    else if sysBase < v + len then respond s mb 0x0414 []
    else if v % 65536 ≠ 0 ∨ len % 65536 ≠ 0 ∨ (ls.any fun l => decide (l.va < v) || decide (v + len < l.va + 2 ^ levelShift l.level)) = true then
      respond s mb 0x0413 []
    else if ls.isEmpty then respond s mb 0 []
    else startShoot (clearLeaves (beginWait s mb) ls) c v (v + len) (.respond (s.ticket mb))

/-! ## References (R364) -/

/-- The object's frames return to the carve-out and its descriptor is freed; a move of one of its pages stops (R289). -/
def freeObj (s : State) (n : Nat) (o : Obj) : State :=
  let mine := fun (a : PAddr) => o.pages.contains a
  let dead := s.moves.filter fun m => mine m.src
  let bases := (o.pages ++ o.refPages).map (·.toNat) ++ dead.map (·.dst.toNat) ++ (if o.commons then [o.digestBase.toNat] else [])
  { s with
    objs := tdel s.objs n
    repairs := s.repairs.filter fun r => decide (r.1 ≠ n)
    extents := s.extents.filter fun e => !bases.contains e.base
    moves := s.moves.filter fun m => !mine m.src }

/-- A context gives up its reference. -/
def dropRef (s : State) (c n : Nat) : State :=
  match tfind s.objs n with
  | none => s
  | some o =>
    let o1 := { o with refs := o.refs.erase c }
    if o.commons = false ∧ o1.refs = [] then freeObj s n o1 else { s with objs := tput s.objs n o1 }

def State.maps (s : State) (n : Nat) : List LeafRec := s.leaves.filter fun l => decide (l.obj = some n)

/-- MEM_SHARE. -/
def execMemShare (mb : Nat) (s : State) : Host.Outcome State Fault Refusal :=
  runCmd 0x23 mb s fun s c pl => match s.heldObj c (le pl 0 4) with
    | none => respond s mb 0x030D []
    | some (n, o) =>
      let t := le pl 4 2
      if targetStatus s t (le pl 8 8) ≠ 0 then respond s mb (targetStatus s t (le pl 8 8)) []
      else if s.ctxPart t ≠ o.part then respond s mb 0x0310 []
      else respond { s with objs := tput s.objs n { o with refs := addOnce t o.refs } } mb 0 []

/-- MEM_RELEASE. -/
def execMemRelease (mb : Nat) (s : State) : Host.Outcome State Fault Refusal :=
  runCmd 0x24 mb s fun s c pl =>
    if s.memBusy c then s else
    match s.heldObj c (le pl 0 4) with
    | none => respond s mb 0x030D []
    | some (n, _) =>
      if (s.maps n).any fun l => decide (l.ctx = c) then respond s mb 0x030E [] else respond (dropRef s c n) mb 0 []

/-- MEM_QUERY. -/
def execMemQuery (mb : Nat) (s : State) : Host.Outcome State Fault Refusal :=
  runCmd 0x25 mb s fun s c pl => match s.heldObj c (le pl 0 4) with
    | none => respond s mb 0x030D []
    | some (n, o) =>
      respond s mb 0 (pad8 (leBytes 8 o.bytes ++ leBytes 1 o.kind ++ leBytes 1 (pageCode o.page) ++ [if o.nomove then 1 else 0] ++
        leBytes 1 o.part ++ leBytes 4 o.refs.length ++ leBytes 4 (s.maps n).length))

/-! ## Commons (R46, R365, R428) -/

/-- Pages for a commons: the working copy round robin over the COMMONS groups from the lowest, the reference copy and the
digest table from the COMMONS_REF groups. -/
def takeCommons (s : State) (n : Nat) : Option (State × List Nat × List Nat × Nat) :=
  (takePages 12 4 65536 n { s with cursors := tset 0 s.cursors (cursorKey 12 4) 0 }).bind fun r =>
  (takePages 12 5 65536 n { r.1 with cursors := tset 0 r.1.cursors (cursorKey 12 5) 0 }).bind fun q =>
  (takeFirst q.1 5 (alignUp 65536 (32 * n)) 65536 none (q.1.groupsOfMode 12 5)).map fun d => (d.1, r.2, q.2, d.2.1)

/-- COMMONS_CREATE. -/
def execCommonsCreate (mb : Nat) (s : State) : Host.Outcome State Fault Refusal :=
  runCmd 0x28 mb s fun s _ pl =>
    let n := cdiv (le pl 0 8) 65536
    match s.freeObjIndex with
    | none => respond s mb 0x030C []
    | some i =>
      match (if (s.groupsOfMode 12 4).length * groupBytes < n * 65536 then none else takeCommons s n) with
      | none => respond s mb 0x0412 []
      | some (s1, ws, rs, d) =>
        let s2 := (ws ++ rs).foldl (fun s a => zeroRange s a 65536) s1
        let o := { Obj.fresh (n * 65536) 0 65536 12 true [] ws with
          commons := true, refPages := rs.map (BitVec.ofNat 48), digestBase := BitVec.ofNat 48 d }
        let (s3, h) := addObj s2 i o
        respond s3 mb 0 (pad8 (leBytes 4 h))

/-- Copy bytes between physical addresses through the homes; poison moves with its bytes (R439). -/
def copyBytes (s : State) (e : Option Nat) (src dst n : Nat) : State × W16 :=
  let bad := (List.range n).filter fun i => s.poisoned e (src + i) 1
  let r := s.unitWrite none dst (s.read e src n)
  ({ r.1 with poison := bad.foldl (fun p i => addOnce ((dst + i) / 32) p) r.1.poison }, r.2)

/-- The copyPieces of two ranges between page boundaries of 64 KiB. -/
def copyPieces : Nat → Nat → Nat → Nat → List (Nat × Nat × Nat)
  | 0, _, _, _ => []
  | k + 1, a, b, n =>
    if n = 0 then [] else
    let m := min n (min (65536 - a % 65536) (65536 - b % 65536))
    (a, b, m) :: copyPieces k (a + m) (b + m) (n - m)

/-- The Steward reads a context's page through its tables. -/
def stewardRead (s : State) (ctx v : Nat) : Tr :=
  if 2 ^ 56 ≤ v then .fault 0x0401 else
  match s.walk ctx v with
  | .leaf level _ e => if leafMoving e then .moving else if leafR e then .ok (leafAddr level v e) e else .fault 0x0402
  | .poisoned => .fault 0x0701
  | .rejected st _ => .fault st
  | _ => .fault 0x0401

/-- Where byte `off` of an object lies. -/
def Obj.addr (o : Obj) (off : Nat) : Nat := ((nth? o.pages (off / o.page)).map (·.toNat)).getD 0 + off % o.page

/-- COMMONS_FILL: bytes copied before a failure with 0x0401 or 0x0402 stay written (R355, R365). It waits for a page that is moving. -/
def execCommonsFill (mb : Nat) (s : State) : Host.Outcome State Fault Refusal :=
  runCmd 0x29 mb s fun s c pl =>
    if s.memBusy c then s else
    match s.commonsOf (le pl 0 4) with
    | none => respond s mb 0x030D []
    | some (_, o) =>
      let off := le pl 8 8
      let v := le pl 16 8
      let len := le pl 24 8
      if o.isSealed then respond s mb 0x0213 []
      else if o.bytes < off + len then respond s mb 0x0210 []
      else
        let ps := copyPieces (2 * (len / 65536) + 3) v off len
        if ps.any (fun p => stewardRead s c p.1 == .moving) then s else
        let r := ps.foldl (fun (acc : State × W16) p =>
          if acc.2 ≠ 0 then acc else match stewardRead acc.1 c p.1 with
            | .ok pa e => if acc.1.homeStatus pa ≠ 0 then (acc.1, acc.1.homeStatus pa)
              else ((copyBytes acc.1 (acc.1.epochOf c e) pa (o.addr p.2.1) p.2.2).1, 0)
            | .fault st => (acc.1, st)
            | .moving => acc) (s, 0)
        respond (if r.2 = 0 ∨ r.2 = 0x0401 ∨ r.2 = 0x0402 then r.1 else s) mb r.2 []

/-- The digest of a block of an object (R46). -/
def blockDigest (s : State) (o : Obj) (i : Nat) : List Byte := sha256 (s.read none (o.addr (65536 * i)) 65536)

/-- COMMONS_SEAL: digests and the reference copy are written, and the root enters the measurement log (R46, R428, R480). -/
def execCommonsSeal (mb : Nat) (s : State) : Host.Outcome State Fault Refusal :=
  runCmd 0x2A mb s fun s _ pl => match s.commonsOf (le pl 0 4) with
    | none => respond s mb 0x030D []
    | some (n, o) =>
      if o.isSealed then respond s mb 0x0213 [] else
      let blocks := List.range (o.bytes / 65536)
      let ds := blocks.flatMap (blockDigest s o)
      let s1 := blocks.foldl (fun s i => (copyBytes s none (o.addr (65536 * i)) (((nth? o.refPages i).map (·.toNat)).getD 0) 65536).1) s
      let s2 := s1.write o.digestBase.toNat ds
      respond (measure { s2 with objs := tput s2.objs n { o with isSealed := true } } 2 0xFFFF (le pl 0 4) (sha256N ds)) mb 0 []

/-- A COMMONS_REF group that holds nothing returns to FREE (R428). -/
def freeRefGroups (s : State) : State :=
  let used := fun g => s.extents.any fun e => meets e.base e.size (groupBase 5 g) groupBytes
  { s with cellarGroups := s.cellarGroups.filter fun e => !(decide (e.2.mode = 5) && !used e.1) }

/-- COMMONS_FREE. -/
def execCommonsFree (mb : Nat) (s : State) : Host.Outcome State Fault Refusal :=
  runCmd 0x2B mb s fun s _ pl => match s.commonsOf (le pl 0 4) with
    | none => respond s mb 0x030D []
    | some (n, o) =>
      if (s.maps n).isEmpty = false then respond s mb 0x030E [] else respond (freeRefGroups (freeObj s n o)) mb 0 []

end Sys2Proof.Machine
end

