-- ==== Sys2Proof/Machine/Queues.lean ====
section
/-! DEFINITION. Queues: their Steward commands, doorbells and slots, the entries of SUBMIT rings as the queue engine
carries them out, and bells that reach NOTIFY rings and the Steward (R199 to R201, R345, R366 to R369, R373). -/

namespace Sys2Proof.Machine

def queueHandle (n tag : Nat) : Nat := n * 2 ^ 18 + tag

/-- The queue of a context that a handle names. -/
def State.queueOf (s : State) (ctx h : Nat) : Option (Nat × Queue) :=
  match tfind s.queues (h / 2 ^ 18) with
  | some q => if q.tag = h % 2 ^ 18 ∧ q.ctx = ctx then some (h / 2 ^ 18, q) else none
  | none => none

def State.setQueue (s : State) (n : Nat) (q : Queue) : State := { s with queues := tput s.queues n q }
/-- The key of a station instance. -/
def instKey (n i : Nat) : Nat := n * 4096 + i

/-! ## Slots and doorbell leaves (R267, R373) -/

/-- The doorbell leaf of a queue for a slot, or with MOVING set while it has none. -/
def doorbellLeaf (slot : Option Nat) : W64 :=
  mkLeaf (0x0C00_0000_0000 + 65536 * slot.getD 0) true true false 4 slot.isNone true false false 0

def State.doorbellOf (s : State) (q : Queue) : Option LeafRec :=
  s.leaves.find? fun l => decide (l.ctx = q.ctx) && decide (l.va = doorbellVA q.loc)

/-- Give a queue a slot: its leaf names the slot's doorbell page. -/
def grantSlot (s : State) (qi slot : Nat) : State :=
  match tfind s.queues qi with
  | none => s
  | some q =>
    let s1 := s.setQueue qi { q with slot := some slot, since := s.clock }
    match s1.doorbellOf q with
    | some l => reLeaf s1 l fun _ => doorbellLeaf (some slot)
    | none => s1

/-- Take a queue's slot back: the leaf is MOVING again and its page is shot down in one step; none while a core still
holds stores to the page (log entry 27). -/
def withdrawSlot (s : State) (qi : Nat) : Option State :=
  match tfind s.queues qi with
  | none => none
  | some q => match q.slot, s.doorbellOf q with
    | some _, some l =>
      let lo := doorbellVA q.loc
      let s1 := reLeaf s l fun _ => doorbellLeaf none
      let s2 := (partStructs s1 (s1.ctxPart q.ctx)).foldl (fun s st => dropTlb s st q.ctx lo (lo + 65536)) s1
      let s3 := (s2.cores.map (·.1)).foldl (fun s c => parkTentative (drainRange s c q.ctx lo (lo + 65536)) c q.ctx lo (lo + 65536)) s2
      if s3.cores.any fun e => !(sbInRange s3 e.1 q.ctx lo (lo + 65536)).isEmpty then none
      else (tfind s3.queues qi).map fun r => s3.setQueue qi { r with slot := none, since := s3.clock }
    | _, _ => none

/-- Is a group of the context parked on the queue's doorbell (R373)? -/
def State.parkedOnDoorbell (s : State) (q : Queue) : Bool :=
  s.parked.any fun p => decide (p.grp.ctx = q.ctx) && decide (p.reason = 3) && decide (p.addr.toNat / 65536 = doorbellVA q.loc / 65536)

/-- May the engine work for a context: ACTIVE, resident, in a RUNNING partition (R372)? -/
def State.served (s : State) (ctx : Nat) : Bool :=
  match s.ctx? ctx with
  | some c => decide (c.state = .active) && c.resident && decide ((s.part c.part).state = .running)
  | none => false

/-- Has a queue work, as far as slots are concerned (R372, R373)? -/
def State.queueWork (s : State) (q : Queue) : Bool := decide (q.head ≠ q.tail) || s.parkedOnDoorbell q

/-- Insert by an order. -/
def insertBy {α : Type} (before : α → α → Bool) (x : α) : List α → List α
  | [] => [x]
  | y :: t => if before x y then x :: y :: t else y :: insertBy before x t

def sortBy {α : Type} (before : α → α → Bool) (l : List α) : List α := l.foldr (insertBy before) []

/-- Queues of a partition that wait for a slot: higher PRIORITY first, then the longest waiting. -/
def State.waitingQueues (s : State) (p : Nat) : List (Nat × Queue) :=
  sortBy (fun a b => decide (b.2.prio < a.2.prio) || (decide (a.2.prio = b.2.prio) && decide (a.2.since ≤ b.2.since)))
    (s.queues.filter fun e => !e.2.notify && e.2.slot.isNone && e.2.stopped.isNone && decide (s.ctxPart e.2.ctx = p) &&
      s.served e.2.ctx && s.queueWork e.2)

/-- A free slot of a partition: one of its hall dies' 21 slots each, else one of the 4 that are lent. -/
def State.freeSlot (s : State) (p : Nat) : Option Nat :=
  (((partHalls (s.part p)).flatMap fun h => (List.range 21).map (21 * h + ·)) ++ [252, 253, 254, 255]).find? fun n =>
    !(s.queues.any fun e => decide (e.2.slot = some n))

/-- Give free slots to the waiting queues of a partition. -/
def giveSlots (s : State) (p : Nat) : State :=
  (s.waitingQueues p).foldl (fun s e => match s.freeSlot p with
    | some n => grantSlot s e.1 n
    | none => s) s

/-- Is a queue between entries (R373)? -/
def Queue.between (q : Queue) : Bool := q.entries.all fun e => decide (e.2 = .finished)

/-- The queue that gives up its slot: one without work first, else the one that has held its slot longest. -/
def State.slotVictim (s : State) (p now : Nat) : Option Nat :=
  let hold := s.queues.filter fun e => e.2.slot.isSome && decide (s.ctxPart e.2.ctx = p) && e.2.between && decide (e.2.since < now)
  ((sortBy (fun a b => (!s.queueWork a.2 && s.queueWork b.2) ||
    ((s.queueWork a.2 == s.queueWork b.2) && decide (a.2.since ≤ b.2.since))) hold).head?).map (·.1)

/-- QUEUE_SLOT_ROTATE (R373): slots lent for 10 ms return, free slots are given, and each queue that still waits takes the
slot of one that is between entries. -/
def execQueueSlotRotate (part : Nat) (s : State) : Host.Outcome State Fault Refusal :=
  let back := s.queues.filter fun e => decide (s.ctxPart e.2.ctx = part) && e.2.between && (match e.2.slot with
    | some n => decide (252 ≤ n) && decide (e.2.since + 10000000 ≤ s.clock)
    | none => false)
  let s1 := back.foldl (fun s e => (withdrawSlot s e.1).getD s) s
  let s2 := giveSlots s1 part
  .next ((s2.waitingQueues part).foldl (fun s e => match s.slotVictim part s.clock with
    | none => s
    | some v => match (tfind s.queues v).bind (·.slot), withdrawSlot s v with
      | some n, some s' => grantSlot s' e.1 n
      | _, _ => s) s2)

/-! ## Steward commands (R366, R369) -/

/-- Is a ring mapped write-back with R and W (R366)? -/
def ringMapped (s : State) (ctx v n : Nat) : Bool :=
  (List.range ((v + n - 1) / 65536 - v / 65536 + 1)).all fun i =>
    match s.walk ctx ((v / 65536 + i) * 65536) with
    | .leaf _ _ e => decide (leafAttr e = 0) && leafR e && leafW e
    | _ => false

/-- QUEUE_CREATE. A SUBMIT queue gets its doorbell page (*Table 13-4*). -/
def execQueueCreate (mb : Nat) (s : State) : Host.Outcome State Fault Refusal :=
  runCmd 0x30 mb s fun s c pl =>
    let ring := le pl 0 8
    let kind := le pl 8 1
    let log2 := le pl 9 1
    let prio := le pl 10 1
    let p := le pl 12 4
    let q := le pl 16 4
    let mine := s.queues.filter fun e => decide (e.2.ctx = c)
    if 1 < kind ∨ log2 < 4 ∨ 16 < log2 ∨ 7 < prio ∨ (kind = 0 ∧ (p ≠ 0 ∨ q ≠ 0)) ∨
        ringMapped s c ring (64 * 2 ^ log2) = false then respond s mb 0x0210 []
    else match lowest 16384 (fun i => (tfind s.queues i).isNone), lowest 256 (fun i => !(mine.any fun e => decide (e.2.loc = i))) with
      | some n, some loc =>
        if kind = 1 ∧ ((s.tallyOf c p).isNone ∨ (s.tallyOf c q).isNone) then respond s mb 0x0601 []
        else
          let tag := nextTag 0x3FFFF (tget 0 s.queueTags n)
          let x : Queue :=
            { tag := tag, ctx := c, loc := loc, notify := decide (kind = 1), ring := va ring, log2 := log2, prio := prio, head := 0,
              tail := 0, p := w32 p, c := w32 q, stopped := none, slot := none, since := s.clock, entries := [] }
          let s1 := { s.setQueue n x with queueTags := tput s.queueTags n tag }
          let out := leBytes 4 (queueHandle n tag) ++ leBytes 2 loc ++ zeros 2
          if kind = 1 then respond s1 mb 0 out
          else match setLeaf s1 c (doorbellVA loc) 0 (doorbellLeaf none) none 0 with
            | some s2 => respond s2 mb 0 out
            | none => respond s mb 0x0412 []
      | _, _ => respond s mb 0x0307 []

/-- Abort a queue's running entries: their scoreboard entries are released (R196). -/
def abortEntries (s : State) (q : Queue) : State :=
  q.entries.foldl (fun s e => match e.2 with
    | .larder c n => s.modCore c fun k => releaseScores k n
    | _ => s) s

/-- Cancel the watch of a queue's WAIT entry: its bell carries 0x0605 (R344, R369). -/
def cancelWait (s : State) (qi : Nat) : State :=
  (s.watches.filter fun e => e.2.alloc && decide (e.2.rcv = .submitWait qi)).foldl (fun s e =>
    let s1 := s.setWatch e.1 { e.2 with rcv := .steward }
    if e.2.bell.isNone then fire s1 e.1 0x0605 else s1) s

/-- Free a queue and its doorbell leaf. -/
def freeQueue (s : State) (qi : Nat) (q : Queue) : State :=
  let s1 := match s.doorbellOf q with
    | some l => clearLeaves s [l]
    | none => s
  { s1 with queues := tdel s1.queues qi }

/-- QUEUE_DESTROY (R369): it waits while a core holds stores to the doorbell page. -/
def execQueueDestroy (mb : Nat) (s : State) : Host.Outcome State Fault Refusal :=
  runCmd 0x31 mb s fun s c pl => match s.queueOf c (le pl 0 4) with
    | none => respond s mb 0x0309 []
    | some (qi, q) =>
      let s1 := if q.slot.isSome then withdrawSlot s qi else some s
      match s1 with
      | none => s
      | some s2 => respond (freeQueue (cancelWait (abortEntries s2 q) qi) qi q) mb 0 []

/-- QUEUE_DOORBELL: a tail out of range stops the queue (R366); a stopped queue accepts none (R369, log entry 28). -/
def execQueueDoorbell (mb : Nat) (s : State) : Host.Outcome State Fault Refusal :=
  runCmd 0x32 mb s fun s c pl => match s.queueOf c (le pl 0 4) with
    | none => respond s mb 0x0309 []
    | some (qi, q) =>
      let v := le pl 8 8
      if q.stopped.isSome then respond s mb 0x0308 []
      else if q.notify then
        let pv := (s.tally (q.p.toNat / 32768)).value
        let cv := (s.tally (q.c.toNat / 32768)).value
        if pv < cv + v then respond s mb 0x0308 [] else respond (raiseTally s c q.c.toNat v) mb 0 []
      else if q.tail ≤ v ∧ v ≤ q.head + 2 ^ q.log2 then
        let since := if s.queueWork q then q.since else s.clock
        respond (giveSlots (s.setQueue qi { q with tail := v, since := since }) (s.ctxPart c)) mb 0 []
      else respond (stopQueue s qi 0x0308) mb 0x0308 []

/-- The queue descriptor (*Table 13-6*). -/
def queueDesc (s : State) (q : Queue) : List Byte :=
  vecBytes (queueWord q) ++ leBytes 8 q.ring.toNat ++
  (if q.notify then leBytes 8 (s.tally (q.p.toNat / 32768)).value ++ leBytes 8 (s.tally (q.c.toNat / 32768)).value
   else leBytes 8 q.head ++ leBytes 8 q.tail)

/-- QUEUE_QUERY. -/
def execQueueQuery (mb : Nat) (s : State) : Host.Outcome State Fault Refusal :=
  runCmd 0x33 mb s fun s c pl => match s.queueOf c (le pl 0 4) with
    | none => respond s mb 0x0309 []
    | some (_, q) => respond s mb 0 (queueDesc s q)

/-- DOORBELL_STORE: a 64-bit store to offset 0x0000 of the doorbell page of a queue that holds a slot (R366, R373). -/
def execDoorbellStore (queue : Nat) (tail : BitVec 64) (s : State) : Host.Outcome State Fault Refusal :=
  match tfind s.queues queue with
  | some q => .next (if q.slot.isSome then announceTail s queue tail.toNat else s)
  | none => .next s

/-! ## Transfers (R199 to R201, R439) -/

/-- Reach bytes for a DMA engine; poison is carried, not consumed (R264, R279, R439). The home claims the line for the
engine, which has no cache (R323). -/
def dmaReach (s : State) (st : TlbStruct) (ctx : Nat) (need : Need) (v : Nat) : State × Reach :=
  match translate s st false ctx v need with
  | (s1, .fault x) => (s1, .fault x v)
  | (s1, .moving) => (s1, .wait)
  | (s1, .ok pa leaf) =>
    if leafAttr leaf = 4 then (s1, .fault 0x0404 v)
    else if s1.homeStatus pa ≠ 0 then (s1, .fault (s1.homeStatus pa) v)
    else claimPiece s1 need pa 16

/-- One side of a transfer. -/
inductive DmaSide where
  | mem (v : Nat)
  | larder (core off : Nat)
  | fill (pattern : List Byte)
  deriving DecidableEq, Repr

/-- Reach 16 bytes of a side, at an offset of the transfer. -/
def DmaSide.reach (s : State) (st : TlbStruct) (ctx : Nat) (need : Need) (off : Nat) : DmaSide → State × Reach
  | .mem v => dmaReach s st ctx need (v + off)
  | _ => (s, .ok)

/-- 16 bytes of a side, and whether their sector is poisoned. -/
def DmaSide.read (s : State) (st : TlbStruct) (ctx off : Nat) : DmaSide → List Byte × Bool
  | .mem v => match s.peek st ctx (v + off) with
    | some (pa, leaf) => (s.read (s.epochOf ctx leaf) pa 16, s.poisoned (s.epochOf ctx leaf) pa 16)
    | none => (zeros 16, false)
  | .larder c o => (leBytes 16 (larderRead (s.core c) (o + off) 16), larderPoisoned (s.core c) (o + off) 16)
  | .fill p => (p ++ p, false)

/-- Poison a sector, or the epoch's pool line. -/
def carryPoison (s : State) (e : Option Nat) (pa : Nat) : State :=
  match e with
  | none => { s with poison := addOnce (sectorNo pa) s.poison }
  | some n =>
    let h := s.homeOf pa
    let sl := s.slice h
    let mark := fun (p : PoolLine) => if p.line = lineNo pa ∧ p.tag = PoolTag.held n then { p with poisoned := true } else p
    s.setSlice h { sl with pool := sl.pool.map mark }

/-- Write bytes of one sector to a side. -/
def DmaSide.write (s : State) (st : TlbStruct) (ctx off : Nat) (bs : List Byte) (bad : Bool) : DmaSide → State × W16
  | .mem v => match s.peek st ctx (v + off) with
    | some (pa, leaf) =>
      let r := s.unitWrite (s.epochOf ctx leaf) pa bs
      if bad ∧ r.2 = 0 then (carryPoison r.1 (s.epochOf ctx leaf) pa, 0) else r
    | none => (s, 0x0401)
  | .larder c o => (s.modCore c fun k =>
      let k1 := larderWrite k (o + off) bs
      if bad then { k1 with larderPoison := addOnce (sectorNo (o + off)) k1.larderPoison } else k1, 0)
  | .fill _ => (s, 0)

/-- The parts of a transfer by the sectors of its destination: offset and length, 16 or 32. -/
def dmaParts (dst len : Nat) : List (Nat × Nat) :=
  let a := if dst % 32 = 16 then 16 else 0
  (if a = 16 then [(0, 16)] else []) ++ (List.range ((len - a) / 32)).map (fun i => (a + 32 * i, 32)) ++
  (if (len - a) % 32 = 16 then [(len - 16, 16)] else [])

def DmaSide.start : DmaSide → Nat
  | .mem v => v
  | .larder _ o => o
  | .fill _ => 0

/-- Reach both sides of every 16 bytes in order; the first that is not ok answers, with its offset, and while one waits the
next are sent for too. -/
def reachAll (s : State) (st : TlbStruct) (ctx len : Nat) (src dst : DmaSide) : State × Option (Nat × Reach) :=
  (List.range (len / 16)).foldl (fun (acc : State × Option (Nat × Reach)) i =>
    match acc.2 with
    | some (_, .fault _ _) => acc
    | o =>
      let (s1, x) := src.reach acc.1 st ctx .r (16 * i)
      let (s2, y) := if x = .ok then dst.reach s1 st ctx .w (16 * i) else (s1, x)
      (s2, if o.isSome then o else if y = .ok then none else some (16 * i, y))) (s, none)

/-- The home slices see the accesses of one side up to a limit, with class DMA (R237, *Table 9-4*). -/
def DmaSide.see (st : TlbStruct) (ctx : Nat) (need : Need) (limit : Nat) (s : State) : DmaSide → State
  | .mem v => (pieces v limit).foldl (seePiece st ctx need) s
  | _ => s

/-- The bytes of a part; the bytes that an overlapping COPY may already have written are a free value (log entry 29). -/
def partBytes (s : State) (st : TlbStruct) (ctx : Nat) (src dst : DmaSide) (len off n : Nat) : State × List Byte × Bool :=
  let rs := (List.range (n / 16)).map fun i => src.read s st ctx (off + 16 * i)
  let bs := rs.flatMap (·.1)
  let bad := rs.any (·.2)
  let clash := match src, dst with
    | .mem a, .mem b => a != b && meets (a + off) n b len
    | _, _ => false
  if clash then
    let (s1, v) := s.freeVal
    (s1, (List.range n).map fun i => BitVec.ofNat 8 (v / 256 ^ i), bad)
  else (s, bs, bad)

/-- Move the bytes of a transfer up to a limit; a write in an epoch that is not OPEN ends it (R257). -/
def moveBytes (s : State) (st : TlbStruct) (ctx len limit : Nat) (src dst : DmaSide) : State × W16 :=
  (dmaParts dst.start len).foldl (fun (acc : State × W16) p =>
    if acc.2 ≠ 0 ∨ limit ≤ p.1 then acc else
    let n := min p.2 (limit - p.1)
    let (s1, bs, bad) := partBytes acc.1 st ctx src dst len p.1 n
    dst.write s1 st ctx p.1 bs bad) (s, 0)

/-- The bytes of a transfer that has been reached up to a limit pass through the home slices. -/
def passBytes (s : State) (st : TlbStruct) (ctx len limit : Nat) (src dst : DmaSide) : State × W16 :=
  moveBytes (dst.see st ctx .w limit (src.see st ctx .r limit s)) st ctx len limit src dst

/-- A whole transfer: no answer while it waits for a moving page or a line, else its status and the address a fault names.
Bytes before a fault are moved (R264). -/
def transfer (s : State) (st : TlbStruct) (ctx len : Nat) (src dst : DmaSide) : State × Option (W16 × Nat) :=
  match reachAll s st ctx len src dst with
  | (s1, some (_, .wait)) => (s1, none)
  | (s1, some (off, .fault x a)) => ((passBytes s1 st ctx len off src dst).1, some (x, a))
  | (s1, _) =>
    let r := passBytes s1 st ctx len len src dst
    (r.1, some (r.2, dst.start))

/-! ## Starting an entry (R367, R368) -/

/-- R367's invalid entries. -/
def entryInvalid (e : List Byte) : Bool :=
  let op := le e 7 1
  let w := le e 0 8
  let len := le e 0x18 8
  decide (op = 0 ∨ 7 < op) || decide (nbits w 52 48 ≠ 0 ∨ nbits w 31 0 ≠ 0 ∨ le e 0x38 4 ≠ 0) ||
  (decide (op = 3 ∨ op = 4) && decide (le e 0x24 4 = 0)) || (decide (op = 5 ∨ op = 6) && decide (le e 0x3C 4 = 0)) ||
  decide (len = 0) || (decide (op ≤ 4) && decide (len % 16 ≠ 0)) ||
  (decide (op = 1 ∨ op = 3) && decide (le e 8 8 % 16 ≠ 0)) || (decide (op = 1 ∨ op = 2 ∨ op = 4) && decide (le e 0x10 8 % 16 ≠ 0)) ||
  (decide (op = 3 ∨ op = 4) && decide (nbits (le e 0x20 8) 19 0 % 16 ≠ 0))

/-- Start the next entry of a queue, in ring order, when the entry has the given OP; `body` gives its phase, or none while
it waits. An entry with a reserved OP is invalid whatever the command. -/
def startEntry (op qi k : Nat) (s : State) (body : State → Queue → TlbStruct → List Byte → State × Option EntryPhase) :
    Host.Outcome State Fault Refusal :=
  match tfind s.queues qi with
  | none => .next s
  | some q =>
    if (q.notify || q.stopped.isSome || q.slot.isNone || !s.served q.ctx) = true ∨ k ≠ q.head + q.entries.length ∨ q.tail ≤ k then .next s
    else
      let st := s.engine q.ctx k
      let v := q.entryAddr k
      match reach s st q.ctx .r [(v, 64)] with
      | (s1, .wait) => .next s1
      | (s1, .fault x a) => .next (loseBy s1 (unitOfStruct st) q.ctx x a)
      | (s1, .ok) =>
        let e := s1.virtBytes st q.ctx v 64
        let eop := le e 7 1
        let busy := q.entries.countP fun x => x.2.busy
        if (1 ≤ eop ∧ eop ≤ 7 ∧ eop ≠ op) ∨ (op ≤ 4 ∧ 4 ≤ busy) ∨
            ((nbits (le e 0 8) 55 55 = 1 ∨ eop = 5 ∨ eop = 6) ∧ q.entries ≠ []) then .next s1
        else
          let put := fun (s : State) (p : EntryPhase) => match tfind s.queues qi with
            | some r => s.setQueue qi { r with entries := tput r.entries k p }
            | none => s
          if entryInvalid e then .next (put s1 (.running 0x030A 0))
          else match body s1 q st e with
            | (s2, none) => .next s2
            | (s2, some p) => .next (put s2 p)

/-- The phase of an entry whose transfer has an answer. -/
def transferPhase (r : State × Option (W16 × Nat)) : State × Option EntryPhase := (r.1, r.2.map fun x => .running x.1 x.2)

/-- QUEUE_COPY. -/
def execQueueCopy (queue entry : Nat) (s : State) : Host.Outcome State Fault Refusal :=
  startEntry 1 queue entry s fun s q st e =>
    transferPhase (transfer s st q.ctx (le e 0x18 8) (.mem (le e 8 8)) (.mem (le e 0x10 8)))

/-- QUEUE_FILL. -/
def execQueueFill (queue entry : Nat) (s : State) : Host.Outcome State Fault Refusal :=
  startEntry 2 queue entry s fun s q st e =>
    transferPhase (transfer s st q.ctx (le e 0x18 8) (.fill (slice e 8 8)) (.mem (le e 0x10 8)))

/-- Is an instance off its core, or on its way to another one: a group of it has not replayed since the move (R201)? -/
def State.onTheMove (s : State) (n i : Nat) (x : Station) (y : Inst) : Bool :=
  y.core.isNone || s.parked.any fun p =>
    decide (p.station = stationHandle n x.tag) && decide (p.inst = i) && decide (p.reason = 2)

/-- A transfer into or out of an instance's region (R199 to R201): it waits while the instance is off its core or being
moved, for a free scoreboard entry, and for earlier accesses that R195 orders before it. A station or instance that does
not exist makes the entry invalid (log entry 30); a range past the region's end moves nothing. -/
def larderEntry (into : Bool) (s : State) (q : Queue) (st : TlbStruct) (e : List Byte) : State × Option EntryPhase :=
  let w := le e 0x20 8
  let len := le e 0x18 8
  let off := nbits w 19 0
  let i := nbits w 31 20
  match s.stationOf q.ctx (w / 2 ^ 32) with
  | none => (s, some (.running 0x030A 0))
  | some (n, x) =>
    if x.insts ≤ i then (s, some (.running 0x030A 0))
    else if x.mill * 32768 + x.lane * 16384 < off + len then (s, some (.running 0x0406 0))
    else match tfind s.insts (instKey n i) with
      | none => (s, none)
      | some y => match (if s.onTheMove n i x y then none else y.core) with
        | none => (s, none)
        | some c =>
          let k := s.core c
          let seq := k.seq + 1
          if 16 ≤ k.scores.length ∨ scoreEarlier k seq into [(y.base + off, len)] = true then (s, none)
          else
            let m := DmaSide.mem (le e (if into then 8 else 0x10) 8)
            let l := DmaSide.larder c (y.base + off)
            match transfer s st q.ctx len (if into then m else l) (if into then l else m) with
            | (s1, none) => (s1, none)
            | (s1, some (w, a)) =>
              if w ≠ 0 then (s1, some (.running w a))
              else
                let add := fun (k : Core) => { k with
                  scores := k.scores ++ [scoreOf 2 0x3F seq into (y.base + off) (y.base + off + len)], seq := seq }
                (s1.modCore c add, some (.larder c seq))

/-- QUEUE_TO_LARDER. -/
def execQueueToLarder (queue entry : Nat) (s : State) : Host.Outcome State Fault Refusal :=
  startEntry 3 queue entry s (larderEntry true)

/-- QUEUE_FROM_LARDER. -/
def execQueueFromLarder (queue entry : Nat) (s : State) : Host.Outcome State Fault Refusal :=
  startEntry 4 queue entry s (larderEntry false)

/-- Register the watch of a WAIT entry: RCV 10, CMP 0 (R368). A handle that is not valid ends the entry with 0x0601 (log
entry 30); when no watch is free the entry waits. -/
def registerWait (s : State) (qi : Nat) (q : Queue) (e : List Byte) : State × EntryPhase :=
  match s.tallyOf q.ctx (le e 0x3C 4) with
  | none => (s, .running 0x0601 0)
  | some n => ((register s n q.ctx (le e 0x30 8) false (.submitWait qi) 0).1, .waiting)

/-- QUEUE_WAIT. -/
def execQueueWait (queue entry : Nat) (s : State) : Host.Outcome State Fault Refusal :=
  startEntry 5 queue entry s fun s q _ e =>
    let r := registerWait s queue q e
    (r.1, some r.2)

/-- QUEUE_RAISE: adds the amount to the tally; a handle that is not valid drops the raise (R335). -/
def execQueueRaise (queue entry : Nat) (s : State) : Host.Outcome State Fault Refusal :=
  startEntry 6 queue entry s fun s q _ e => (raiseTally s q.ctx (le e 0x3C 4) (le e 0x30 8), some (.running 0 0))

/-- QUEUE_NOP. -/
def execQueueNop (queue entry : Nat) (s : State) : Host.Outcome State Fault Refusal :=
  startEntry 7 queue entry s fun s _ _ _ => (s, some (.running 0 0))

/-- QUEUE_WAIT_RETRY: a WAIT entry without a watch tries again (R368). -/
def execQueueWaitRetry (queue : Nat) (s : State) : Host.Outcome State Fault Refusal :=
  match tfind s.queues queue with
  | none => .next s
  | some q => match q.entries.find? fun e => decide (e.2 = .waiting) with
    | none => .next s
    | some (k, _) =>
      if s.served q.ctx = false ∨ (s.watches.any fun e => e.2.alloc && decide (e.2.rcv = .submitWait queue)) = true then .next s
      else
        let st := s.engine q.ctx k
        match reach s st q.ctx .r [(q.entryAddr k, 64)] with
        | (s1, .ok) =>
          let r := registerWait s1 queue q (s1.virtBytes st q.ctx (q.entryAddr k) 64)
          .next (r.1.setQueue queue { q with entries := tput q.entries k r.2 })
        | (s1, .fault x a) => .next (loseBy s1 (unitOfStruct st) q.ctx x a)
        | (s1, .wait) => .next s1

/-! ## Completion (R368, R369) -/

/-- Does a status stop the queue and leave the context ACTIVE? Others lose the context. -/
def stopsOnly (op : Nat) (status : W16) : Bool := decide (status = 0x030A ∨ status = 0x0406 ∨ op = 5)

/-- Complete entry `k` with a status: STATUS, then DONE, then the raise; HEAD moves (R368). A failing entry stops its queue
or loses its context (R369). -/
def completeEntry (s : State) (qi k : Nat) (q : Queue) (status : W16) (addr : Nat) : State :=
  let st := s.engine q.ctx k
  let v := q.entryAddr k
  match reach s st q.ctx .rw [(v, 64)] with
  | (s0, .wait) => s0
  | (s0, .fault x a) =>
    loseBy (s0.setQueue qi (passHead (q.entries.length + 1) { q with entries := tput q.entries k .finished })) (unitOfStruct st) q.ctx x a
  | (s0, .ok) =>
    let e := s0.virtBytes st q.ctx v 64
    let s1 := finishEntry s0 qi k q status
    if status = 0 then raiseTally s1 q.ctx (le e 0x2C 4) (le e 0x28 4)
    else if stopsOnly (le e 7 1) status then stopQueue s1 qi status
    else loseBy s1 (unitOfStruct st) q.ctx status addr

/-- QUEUE_ENTRY_COMPLETE. A stopped queue starts no entry; those that run complete (R369). -/
def execQueueEntryComplete (queue entry : Nat) (s : State) : Host.Outcome State Fault Refusal :=
  match tfind s.queues queue with
  | none => .next s
  | some q => match tfind q.entries entry with
    | some (.running status addr) => .next (completeEntry s queue entry q status addr)
    | _ => .next s

/-- DMA_TRANSFER_COMPLETE: the last larder access is performed and the scoreboard entry released; only then is the
transfer's tally raised (R196, R200). -/
def execDmaTransferComplete (queue entry : Nat) (s : State) : Host.Outcome State Fault Refusal :=
  match tfind s.queues queue with
  | none => .next s
  | some q => match tfind q.entries entry with
    | some (.larder c n) =>
      let s1 := s.modCore c fun k => releaseScores k n
      .next (completeEntry (s1.setQueue queue { q with entries := tput q.entries entry (.running 0 0) }) queue entry q 0 0)
    | _ => .next s

/-! ## Bells (R345, R366) -/

/-- The physical ranges of the ring slot at an address that the Steward may write, one for each line: none while a page of it is
not mapped writable. -/
def ringSlot (s : State) (ctx v : Nat) : Option (List (Nat × Nat × Nat)) :=
  (pieces v 64).foldr (fun p acc => match stewardRead s ctx p.1, acc with
    | .ok pa leaf, some t => if leafW leaf then some ((p.1 - v, pa, p.2) :: t) else none
    | _, _ => none) (some [])

/-- NOTIFY_BELL_WRITE: into slot P of the ring when P − C < N, then P rises; until then the bell waits (R343, R366). -/
def execNotifyBellWrite (watch : Nat) (s : State) : Host.Outcome State Fault Refusal :=
  let x := s.watch watch
  match x.bell, x.rcv with
  | some b, .queue qi => match tfind s.queues qi with
    | none => .next s
    | some q => match s.tallyOf q.ctx q.p.toNat, s.tallyOf q.ctx q.c.toNat, s.ctx? q.ctx with
      | some np, some nc, some c =>
        let pv := (s.tally np).value
        let v := q.entryAddr pv
        if q.ctx ≠ x.ctx ∨ c.state ≠ .active ∨ s.firstBell watch = false ∨ 2 ^ q.log2 ≤ pv - (s.tally nc).value then .next s
        else match ringSlot s q.ctx v with
          | none => .next s
          | some ps => match ps.find? fun p => decide (s.homeStatus p.2.1 ≠ 0) with
            | some p => .next (loseBy s (0x0C, 0x40, 0xFFFF) q.ctx (s.homeStatus p.2.1) v)
            | none =>
              let s1 := ps.foldl (fun s p => s.write p.2.1 (slice (bellBytes b ++ zeros 32) p.1 p.2.2)) s
              .next (freeWatch (tallyApply s1 np .add 1) watch)
      | _, _, _ => .next s
  | _, _ => .next s

/-- A record enters the bell log, which keeps the latest 1,024 (R362). -/
def logBell (s : State) (ctx : Nat) (b : BellRec) : State :=
  s.modCtx ctx fun c => { c with bellCount := c.bellCount + 1, bellLog := lastN 1024 (c.bellLog ++ [b]) }

/-- BELL_TO_STEWARD: the record enters the bell log, and a WAIT entry on the watch is released with the bell's status
(R345, R368). -/
def execBellToSteward (watch : Nat) (s : State) : Host.Outcome State Fault Refusal :=
  let x := s.watch watch
  if s.firstBell watch = false then .next s else
  match x.bell, x.rcv with
  | some b, .steward => .next (freeWatch (logBell s x.ctx b) watch)
  | some b, .submitWait qi =>
    let s1 := freeWatch (logBell s x.ctx b) watch
    match tfind s1.queues qi with
    | none => .next s1
    | some q => .next (s1.setQueue qi { q with
        entries := tmap (fun _ p => if p = .waiting then .running b.status 0 else p) q.entries })
  | _, _ => .next s

end Sys2Proof.Machine
end

