-- ==== Sys2Proof/Machine/Folest.lean ====
section
/-! DEFINITION. The Folest engine's receiver: the checks of a frame, sessions, sequence numbers, acknowledgements,
mailbox and DMA frames, ingest streams (R391 to R411, R417, R418). -/

namespace Sys2Proof.Machine

/-! ## Check 1: the header (R392, *Tables 14-3* to *14-7*) -/

/-- The command code of a COMMAND frame. -/
def frameCode (f : Frame) : Nat := le f.payload 0 1

/-- Shortest and longest LENGTH of a frame type from the partner; a MAILBOX frame's own limits are check 4's 0x010F. -/
def lengthRange : Nat → Nat × Nat
  | 1 => (16, 16)
  | 3 => (32, 8224)
  | 4 => (32, 32)
  | 5 => (32, 9184)
  | 7 => (8, 9184)
  | 8 => (16, 16)
  | 9 => (0, 0)
  | _ => (0, 9184)

/-- The reserved payload fields of a type: offset and size. Fields that must be 0 in a frame of the partner count
(*Tables 14-5*, *14-6*). -/
def reservedFields (typ code : Nat) : List (Nat × Nat) :=
  match typ with
  | 1 => [(1, 1), (6, 2), (8, 8)] ++ (if code = 5 then [] else [(2, 2)]) ++ (if code = 1 then [] else [(4, 2)])
  | 2 => [(1, 7)]
  | 3 => [(2, 2), (4, 4), (0x1C, 4)]
  | 4 => [(2, 2), (0x1C, 4)]
  | 5 => [(6, 2), (0x1C, 4)]
  | 7 => [(1, 1), (4, 4)]
  | 8 => [(8, 8)]
  | _ => []

/-- Check 1 of R392: 0 when the header passes. A DMA_WRITE whose data differs from its Length, and an ACK that does not
hold its blocks and records, break LENGTH (log entry 37). -/
def headerCheck (f : Frame) : W16 :=
  let t := f.typ.toNat
  let n := f.length.toNat
  let p := f.payload
  let dma := le p 0x18 4
  if f.ver ≠ 1 then 0x0101
  else if t = 0 ∨ t = 6 ∨ 9 < t ∨ f.resp = true ∨ (t = 1 ∧ (frameCode f = 2 ∨ frameCode f = 4)) then 0x0102
  else if n ≠ p.length ∨ n < (lengthRange t).1 ∨ (lengthRange t).2 < n ∨ (t = 7 ∧ n ≠ 8 + 8 * frameCode f + 24 * le p 2 2) ∨
      (t = 3 ∧ 1 ≤ dma ∧ dma ≤ 8192 ∧ n ≠ 32 + dma) then 0x0103
  else if f.rsvd ≠ 0 ∨ (t = 7 ∧ f.ackv = false) ∨ ((reservedFields t (frameCode f)).any fun r => decide (le p r.1 r.2 ≠ 0)) = true then 0x0104
  else 0

/-! ## Refusals (*Table 14-10*) -/

/-- Is a refusal counted? -/
def countedCode (code : W16) : Bool :=
  decide (code ≠ 0x0105 ∧ code ≠ 0x0106 ∧ code ≠ 0x0108 ∧ code ≠ 0x010C ∧ code ≠ 0x0113)

/-- Reply to a refused frame and count it (R417, R418). -/
def refuse (s : State) (f : Frame) (code detail : W16) : State :=
  if code = 0x0108 then sendAck s
  else
    let s1 := sendNack s f code detail
    if countedCode code then violate s1 code else s1

/-! ## The partner's acknowledgements (R396, R399 to R401) -/

/-- The first number the module has not sent. -/
def Session.nextSent (x : Session) : W32 :=
  match x.unacked.find? fun f => !f.sent with
  | some f => f.seq
  | none => x.txNext

/-- How far a number lies beyond the partner's last ACK. -/
def Session.beyond (x : Session) (n : W32) : Nat := (n - x.partnerAck).toNat

/-- Every frame before a number is acknowledged: the mailbox of an acknowledged response becomes FREE (R402). -/
def acked (s : State) (x : Session) (a : W32) : State :=
  let d := x.beyond a
  let isDone := fun (q : W32) => decide (x.beyond q < d)
  let s1 := s.setSession { x with partnerAck := a, unacked := x.unacked.filter fun f => !isDone f.seq }
  pump { s1 with mailboxes := s1.mailboxes.filter fun e => match e.2.response with
    | some q => !isDone q
    | none => true }

/-- Two SACK blocks overlap. -/
def blocksMeet (a b : W32 × W32) : Bool :=
  decide ((b.1 - a.1).toNat < (a.2 - a.1).toNat) || decide ((a.1 - b.1).toNat < (b.2 - b.1).toNat)

def anyMeet : List (W32 × W32) → Bool
  | [] => false
  | b :: rest => rest.any (blocksMeet b) || anyMeet rest

/-- The SACK blocks of an ACK frame: the latest frame's blocks hold (R399, R400, log entry 38). -/
def takeSack (s : State) (f : Frame) : State :=
  match s.port.session with
  | none => s
  | some x =>
    let bs := (List.range (frameCode f)).map fun i => (w32 (le f.payload (8 + 8 * i) 4), w32 (le f.payload (12 + 8 * i) 4))
    let bad := fun (b : W32 × W32) => decide ((b.2 - b.1).toNat = 0) || decide (2 ^ 31 ≤ (b.2 - b.1).toNat)
    let ahead := fun (b : W32 × W32) => decide (x.beyond x.nextSent < x.beyond b.2) && decide (x.beyond b.2 < 2 ^ 31)
    if 16 < bs.length ∨ (bs.any bad || anyMeet bs) = true then refuse s f 0x0111 0
    else if bs.any ahead then refuse s f 0x0109 0
    else
      let within := fun (q : W32) => bs.any fun b => decide ((q - b.1).toNat < (b.2 - b.1).toNat)
      let mark := fun (g : TxFrame) => { g with sacked := within g.seq }
      s.setSession { x with unacked := x.unacked.map mark }

/-- The ACK field of a frame (R399, status 0x0109). -/
def takeAck (s : State) (f : Frame) : State :=
  match s.port.session with
  | none => s
  | some x =>
    let d := x.beyond f.ack
    if x.beyond x.nextSent < d ∧ d < 2 ^ 31 then refuse s f 0x0109 0
    else
      let s1 := if 0 < d ∧ d < 2 ^ 31 then acked s x f.ack else s
      if f.typ = 7 then takeSack s1 f else s1

/-- Send an unacknowledged frame again, with RETX set. -/
def resendOne (s : State) (g : TxFrame) : State :=
  match s.port.session with
  | some x =>
    let mark := fun (h : TxFrame) => if h.seq = g.seq then { h with sentAt := s.clock } else h
    if s.portOpen then emitFrame (portCount s 2) { x with unacked := x.unacked.map mark } g.typ true g.resp g.seq g.time g.payload
    else s
  | none => s

/-- A NACK of the partner: every sent frame of the range that is not in a SACK block, at once (R401). -/
def resendRange (s : State) (first last : W32) : State :=
  match s.port.session with
  | none => s
  | some x => (x.unacked.filter fun g => g.sent && !g.sacked && decide ((g.seq - first).toNat < (last - first).toNat)).foldl resendOne s

/-! ## Sessions (R393 to R395) -/

/-- A new SESSION: nonzero and not the previous one. -/
def newSession (v : Nat) (last : W32) : W32 :=
  if last = 0 then w32 (v % (2 ^ 32 - 1) + 1)
  else
    let k := v % (2 ^ 32 - 2) + 1
    if k < last.toNat then w32 k else w32 (k + 1)

/-- OPEN: an open session ends (0x0123), the timer fields of the provisioning record take effect, ACCEPT goes out with a
credit record for every bound stream, and SESSION_RESTORED within the grace period (R377, R382, R393, R411). -/
def openSession (s : State) (f : Frame) : State :=
  let rwnd := le f.payload 4 2
  if f.session ≠ 0 then refuse s f 0x0106 0
  else if rwnd < 16 ∨ 32768 < rwnd then refuse s f 0x0112 0
  else
    let s0 := endSession s
    let (s1, a) := s0.freeVal
    let (s2, b) := s1.freeVal
    let r := s2.flash.prov
    let x : Session :=
      { id := newSession a s2.port.lastSession, rxNext := f.seq + 1, held := [], txNext := w32 b, unacked := [], partnerAck := w32 b,
        rwnd := rwnd, sinceAck := 0, ackDue := false }
    let restored := s2.port.graceOn && decide (s2.grace ≠ 0)
    let s3 := { s2 with port := { s2.port with
      session := some x, rto := provNum r 0x30 4, retryLimit := provNum r 0x34 2, violLimit := provNum r 0x36 2,
      violWindow := provNum r 0x38 4, keepalive := provNum r 0x3C 4, timeout := provNum r 0x40 4, violations := [],
      graceOn := s2.port.graceOn && decide (s2.grace = 0), lastRx := s2.clock } }
    let cs := s3.bound
    let body := [0x02, 0, 0, 0] ++ leBytes 2 1024 ++ leBytes 2 cs.length ++ zeros 8 ++ cs.flatMap (creditRecord s3)
    let s4 := pushTx (creditsSent s3 cs) 0x01 false body none s3.now
    if restored then
      notify s4 (noticeOf s4 0x8004 0 0 0 0 (w64 (s4.contexts.filter fun e => decide (e.2.state = .active)).length))
    else s4

/-- CLOSE: CLOSED goes out once the partner's window allows it, and the session ends (R394, R396). -/
def closeSession (s : State) (x : Session) (seq : W32) : Option State :=
  if x.inWindow x.txNext = false ∨ (x.unacked.any fun g => !g.sent) = true then none
  else some (endSession (pushTx (s.setSession { x with rxNext := seq + 1 }) 0x01 false ([0x04] ++ zeros 15) none s.now))

/-! ## DMA frames (R403 to R405) -/

/-- Why a context and generation admit nothing; 0 for an ACTIVE context (R405, R408). -/
def ctxDetail (s : State) (c gen : Nat) : W16 :=
  match s.ctx? c with
  | none => 0x0302
  | some x => if x.gen ≠ gen then 0x0302 else match x.state with
    | .active => 0
    | .lost => 0x0301
    | .destroying => 0x0303

/-- Every page of a range: translation, permission, no device page. -/
def pageCheck (s : State) (ctx : Nat) (need : Need) (v n : Nat) : State × Reach :=
  (pieces v n).foldl (fun (acc : State × Reach) p =>
    if acc.2 ≠ .ok then acc else
    match translate acc.1 .folest false ctx p.1 need with
    | (s1, .fault x) => (s1, .fault x p.1)
    | (s1, .moving) => (s1, .wait)
    | (s1, .ok _ leaf) => (s1, if leafAttr leaf = 4 then .fault 0x0404 p.1 else .ok)) (s, .ok)

/-- A status with which a walk or a home slice turned a request away: the context is lost (R257, R264, R403). -/
def rejection (st : W16) : Bool :=
  decide (st = 0x0407 ∨ st = 0x0408 ∨ st = 0x0409 ∨ st = 0x0411 ∨ st = 0x0701 ∨ st = 0x0714)

def loseIf (s : State) (ctx : Nat) (st : W16) (v : Nat) : State := if rejection st then loseBy s (unitOfStruct .folest) ctx st v else s

/-- The homes claim the lines of a range for the engine, which has no cache (R323), and the slices see its accesses with class
PORT (R237, *Table 9-4*); a page that its home rejects asks for nothing. -/
def portClaim (s : State) (ctx : Nat) (need : Need) (v n : Nat) : State × Bool :=
  let ps := pieces v n
  let taken := ps.filter fun p => match s.peek .folest ctx p.1 with
    | some (pa, _) => decide (s.homeStatus pa = 0)
    | none => false
  let (s1, ok) := taken.foldl (fun (acc : State × Bool) p => match acc.1.peek .folest ctx p.1 with
    | some (pa, _) =>
      let (s1, ok) := claimRange acc.1 pa p.2 (decide (need ≠ .r))
      (s1, acc.2 && ok)
    | none => acc) (s, true)
  if ok then (taken.foldl (seePiece .folest ctx need) s1, true) else (s1, false)

/-- Write bytes that have been checked, line by line, up to a request that a home slice rejects. -/
def writeRange (s : State) (ctx v : Nat) (data : List Byte) : State × W16 :=
  (pieces v data.length).foldl (fun (acc : State × W16) p =>
    if acc.2 ≠ 0 then acc else
    match acc.1.peek .folest ctx p.1 with
    | none => (acc.1, 0x0401)
    | some (pa, leaf) =>
      if acc.1.homeStatus pa ≠ 0 then (acc.1, acc.1.homeStatus pa)
      else acc.1.unitWrite (acc.1.epochOf ctx leaf) pa (slice data (p.1 - v) p.2)) (s, 0)

/-- What reading a range comes to: its bytes, with each poisoned sector as zeros and status 0x0701; a wait for a repair;
or a rejection (R264, R440). -/
inductive ReadOut where
  | bytes (data : List Byte) (status : W16)
  | wait
  | rejected (status : W16) (at_ : Nat)
  deriving DecidableEq, Repr

def readRange (s : State) (ctx v n : Nat) : ReadOut :=
  (pieces v n).foldl (fun (acc : ReadOut) p =>
    match acc with
    | .bytes d st => match s.peek .folest ctx p.1 with
      | none => .rejected 0x0401 p.1
      | some (pa, leaf) =>
        let e := s.epochOf ctx leaf
        let bad := fun (i : Nat) => s.poisoned e ((pa + i) / 32 * 32) 32
        let any := (List.range p.2).any bad
        if s.homeStatus pa ≠ 0 then .rejected (s.homeStatus pa) p.1
        else if any ∧ leafCommons leaf = true ∧ s.failedCommons pa = false then .wait
        else .bytes (d ++ (List.range p.2).map fun i => if bad i then 0 else s.readByte e (pa + i)) (if any then 0x0701 else st)
    | x => x) (.bytes [] 0)

/-- What acting on a frame comes to: a state, and a refusal's code and detail (0 when it is not refused), or none while the
frame waits. -/
abbrev Acted := State × Option (W16 × W16)

/-- DMA_WRITE and DMA_READ. -/
def actDma (s : State) (f : Frame) (x : Session) : Acted :=
  let p := f.payload
  let c := le p 0 2
  let v := le p 0x10 8
  let n := le p 0x18 4
  let read := decide (f.typ = 4)
  let det := ctxDetail s c (le p 8 8)
  if det ≠ 0 ∧ ¬(read = true ∧ det = 0x0301) then (s, some (0x010C, det))
  else if n = 0 ∨ 8192 < n ∨ sysBase < v + n then (s, some (0x010D, 0))
  else match pageCheck s c (if read then .r else .w) v n with
    | (s1, .wait) => (s1, none)
    | (s1, .fault st a) => (loseIf s1 c st a, some (0x010E, st))
    | (s1, .ok) =>
      if read = true ∧ 64 ≤ x.unacked.countP (fun g => decide (g.typ = 4)) then (s1, some (0x0110, 0))
      else match portClaim s1 c (if read then .r else .w) v n with
        | (s2, false) => (s2, none)
        | (s2, true) =>
          if read then match readRange s2 c v n with
            | .wait => (s2, none)
            | .rejected st a => (loseIf s2 c st a, some (0x010E, st))
            | .bytes d st =>
              (pushTx s2 0x04 true (slice p 0 2 ++ vecBytes st ++ slice p 4 24 ++ zeros 4 ++ d) none s2.now, some (0, 0))
          else
            let r := writeRange s2 c v (p.drop 32)
            if r.2 = 0 then (r.1, some (0, 0)) else (loseIf r.1 c r.2 v, some (0x010E, r.2))

/-! ## Ingest (R406 to R409) -/

/-- The ring of a stream lies in BIN pages mapped with W. -/
def ringWritable (s : State) (ctx v n : Nat) : Bool :=
  (List.range ((v + n - 1) / 65536 - v / 65536 + 1)).all fun i =>
    match s.walk ctx ((v / 65536 + i) * 65536) with
    | .leaf level _ e => leafW e && (match s.placeOf (leafAddr level ((v / 65536 + i) * 65536) e) with
      | .bin _ _ => true
      | _ => false)
    | _ => false

/-- The detail of a tally that takes no operation (R407, R409). -/
def frozenDetail (s : State) (b : Binding) : W16 :=
  let p := s.tally (b.p.toNat / 32768)
  let c := s.tally (b.c.toNat / 32768)
  if p.abandoned || c.abandoned then 0x0604 else if p.stuck || c.stuck then 0x0603 else 0

/-- The binding that a stream record describes, or the detail of the check of R406 and R407 that fails. -/
def bindingOf (s : State) (ctx gen rv : Nat) (r : List Byte) : Binding ⊕ W16 :=
  let b : Binding :=
    { ctx := ctx, gen := gen, record := va rv, ring := va (le r 0 8), log2 := le r 8 1, size := 128 * le r 0x0A 2, len := le r 0x0C 2,
      p := w32 (le r 0x10 4), c := w32 (le r 0x14 4), limit := 0, due := true, last := s.clock }
  if le r 9 1 ≠ 0 ∨ le r 0x0E 2 ≠ 0 ∨ le r 0x18 8 ≠ 0 ∨ b.log2 = 0 ∨ 20 < b.log2 ∨ b.size = 0 ∨ 2 ^ 20 < b.size ∨ b.len < 8 ∨
      b.len % 8 ≠ 0 ∨ b.size < b.len + 8 ∨ 2 ^ 56 ≤ le r 0 8 + 2 ^ b.log2 * b.size ∨
      ringWritable s ctx (le r 0 8) (2 ^ b.log2 * b.size) = false then .inr 0
  else if (s.tallyOf ctx b.p.toNat).isNone ∨ (s.tallyOf ctx b.c.toNat).isNone then .inr 0x0601
  else if frozenDetail s b ≠ 0 then .inr (frozenDetail s b)
  else .inl b

/-- Records into their slots, then the raise of P (R409 steps 2 and 3). -/
def ingestRecords (s : State) (f : Frame) (b : Binding) (n : Nat) : Acted :=
  let p := (s.tally (b.p.toNat / 32768)).value
  let slot := fun i => b.ring.toNat + (p + i) % 2 ^ b.log2 * b.size
  let bytes := fun i => slice f.payload (32 + b.len * i) b.len ++ leBytes 8 f.t0 ++ zeros (b.size - b.len - 8)
  let checked := (List.range n).foldl (fun (acc : State × Reach) i =>
    if acc.2 = .ok then pageCheck acc.1 b.ctx .w (slot i) b.size else acc) (s, .ok)
  match checked with
  | (s1, .wait) => (s1, none)
  | (s1, .fault st a) => (loseIf s1 b.ctx st a, some (0x010B, st))
  | (s1, .ok) =>
    let (s2, ok) := (List.range n).foldl (fun (acc : State × Bool) i =>
      let (s2, ok) := portClaim acc.1 b.ctx .w (slot i) b.size
      (s2, acc.2 && ok)) (s1, true)
    if ok = false then (s2, none) else
    let r := (List.range n).foldl (fun (acc : State × W16) i =>
      if acc.2 = 0 then writeRange acc.1 b.ctx (slot i) (bytes i) else acc) (s2, 0)
    if r.2 = 0 then (tallyApply r.1 (b.p.toNat / 32768) .add n, some (0, 0))
    else (loseIf r.1 b.ctx r.2 b.ring.toNat, some (0x010B, r.2))

/-- A frame for a bound stream. The checks of the payload run in the order of R406 to R409 (log entry 39). -/
def ingestBound (s : State) (f : Frame) (b : Binding) : Acted :=
  let q := f.payload
  let n := le q 2 2
  let pt := s.tally (b.p.toNat / 32768)
  let ct := s.tally (b.c.toNat / 32768)
  if le q 0x18 4 ≠ b.p.toNat then (s, some (0x010B, 0))
  else if n = 0 ∨ le q 4 2 ≠ b.len ∨ 9152 < n * b.len ∨ q.length ≠ 32 + n * b.len then (s, some (0x0114, 0))
  else if frozenDetail s b ≠ 0 then (s, some (0x010B, frozenDetail s b))
  else if ct.value + 2 ^ b.log2 < pt.value + n then
    let mark := fun (y : Binding) => if y = b then { y with due := true } else y
    ({ s with port := { s.port with bindings := s.port.bindings.map mark } }, some (0x010A, 0))
  else ingestRecords s f b n

/-- INGEST: the context's state (R408), then the binding, made by the first frame that names the stream (R407). -/
def actIngest (s : State) (f : Frame) : Acted :=
  let q := f.payload
  let c := le q 0 2
  let gen := le q 8 8
  let rv := le q 0x10 8
  let det := ctxDetail s c gen
  if det ≠ 0 then
    ({ s with port := { s.port with bindings := s.port.bindings.filter fun b => decide (b.ctx ≠ c) } }, some (0x010C, det))
  else
    let s0 := { s with port := { s.port with bindings := s.bound } }
    match s0.port.bindings.find? fun b => decide (b.ctx = c) && decide (b.record.toNat = rv) with
    | some b =>
      let b' := { b with last := s0.clock }
      ingestBound { s0 with port := { s0.port with bindings := s0.port.bindings.map fun y => if y = b then b' else y } } f b'
    | none =>
      if 255 ≤ s0.port.bindings.length then (s0, some (0x0113, 0))
      else match reach s0 .folest c .r [(rv, 32)] with
        | (s1, .wait) => (s1, none)
        | (s1, .fault st a) => (if st = 0x0701 then s1 else loseIf s1 c st a, some (0x010B, st))
        | (s1, .ok) => match bindingOf s1 c gen rv (s1.virtBytes .folest c rv 32) with
          | .inr d => (s1, some (0x010B, d))
          | .inl b => ingestBound { s1 with port := { s1.port with bindings := s1.port.bindings ++ [b] } } f b

/-! ## Acting in order (R327, R397, R398) -/

/-- Act on a sequenced frame. -/
def act (s : State) (x : Session) (f : Frame) : Acted :=
  let n := f.length.toNat
  match f.typ.toNat with
  | 1 => if frameCode f = 3 then (match closeSession s x f.seq with
           | some t => (t, some (0, 0))
           | none => (s, none))
         else if frameCode f = 6 then (s, some (0, 0)) else (s, some (0x0112, 0))
  | 2 => if 63 < frameCode f ∨ n < 40 ∨ 4104 < n then (s, some (0x010F, 0))
         else (takeMessage s (frameCode f) (f.payload.drop 8), some (0, 0))
  | 5 => actIngest s f
  | _ => actDma s f x

/-- The engine has acted: the number is taken, a refusal is answered, and an ACK is due (R397, R399). -/
def acted (s : State) (x : Session) (f : Frame) (code detail : W16) : State :=
  match s.port.session with
  | none => s
  | some y =>
    if y.id ≠ x.id then s else
    let y1 := { y with
      rxNext := f.seq + 1, held := y.held.filter fun g => decide (g.seq ≠ f.seq), ackDue := true, sinceAck := y.sinceAck + 1 }
    let s1 := s.setSession y1
    let s2 := if code = 0 then s1 else refuse s1 f code detail
    match s2.port.session with
    | some z => if 16 ≤ z.sinceAck then sendAck s2 else s2
    | none => s2

/-- Act on held frames from the next expected number on. -/
def drainHeld : Nat → State → State
  | 0, s => s
  | k + 1, s => match s.port.session with
    | none => s
    | some x => match x.held.find? fun g => decide (g.seq = x.rxNext) with
      | none => s
      | some f => match act s x f with
        | (s1, none) => s1
        | (s1, some r) => drainHeld k (acted s1 x f r.1 r.2)

/-- The engine goes on: a frame that waited for a move or a repair is tried again (R288, R440). -/
def resumeFolest (s : State) : State := drainHeld 1025 s

/-- Is there room to hold a frame (R397)? -/
def Session.room (x : Session) (f : Frame) : Bool :=
  decide (x.held.length < 1024) && decide (x.held.foldl (fun n g => n + 32 + g.payload.length) (32 + f.payload.length) ≤ 4 * 2 ^ 20)

/-- Checks 3 and 4 of R392 for a sequenced frame. -/
def sequenced (s : State) (f : Frame) : State :=
  match s.port.session with
  | none => s
  | some x =>
    let d := (f.seq - x.rxNext).toNat
    let hold := fun (s : State) => s.setSession { x with held := x.held ++ [f] }
    if 2 ^ 31 ≤ d ∨ (x.held.any fun g => decide (g.seq = f.seq)) = true then refuse s f 0x0108 0
    else if 1024 ≤ d then refuse s f 0x0107 0
    else if d = 0 then
      match act s x f with
      | (s1, some r) => resumeFolest (acted s1 x f r.1 r.2)
      | (s1, none) => if x.room f then hold s1 else s1
    else if x.room f then sendAck (hold s) else s

/-- A frame in the open session, after check 2. -/
def inSession (s0 : State) (f : Frame) : State :=
  let s := { s0 with port := { s0.port with lastRx := s0.clock } }
  let s1 := if f.ackv then takeAck s f else s
  let due := fun (b : Binding) => { b with due := true }
  let s2 := if f.creditReq then { s1 with port := { s1.port with bindings := s1.port.bindings.map due } } else s1
  let s3 := match f.typ.toNat with
    | 7 => s2
    | 8 => resendRange s2 (w32 (le f.payload 0 4)) (w32 (le f.payload 4 4))
    | 9 => s2
    | _ => sequenced s2 f
  let s4 := resumeFolest s3
  if f.creditReq then sendAck s4 else s4

/-- The checks of R392 in order, and what the frame does. -/
def accept (s : State) (f : Frame) : State :=
  let t := f.typ.toNat
  let isReset := decide (t = 1 ∧ frameCode f = 5)
  if headerCheck f ≠ 0 then refuse s f (headerCheck f) 0
  else if t = 1 ∧ frameCode f = 1 then openSession s f
  else match s.port.session with
    | none => if t ≤ 5 ∧ isReset = false then sendPlain s 0x01 ([0x05, 0] ++ leBytes 2 0x0105 ++ zeros 12) else s
    | some x =>
      if f.session ≠ x.id then refuse s f 0x0106 0
      else if isReset then endSession s
      else inSession s f

/-- Is the frame of the row: its TYPE, and for a COMMAND its CODE. A frame that fails check 1, and a COMMAND of unknown
CODE, may come under any row of its kind. -/
def frameFits (f : Frame) (typ code : Nat) : Bool :=
  decide (headerCheck f ≠ 0) || (decide (f.typ.toNat = typ) && (decide (typ ≠ 1) || decide (frameCode f = code) || decide (frameCode f = 0 ∨ 6 < frameCode f)))

/-- A Folest frame from the partner. Before READY, and without the link or MACsec, it is dropped (R386, R485). -/
def receive (typ code : Nat) (f : Frame) (s : State) : Host.Outcome State Fault Refusal :=
  if s.portOpen = true ∧ (s.power.st = .ready ∨ s.power.st = .failed) ∧ frameFits f typ code = true then .next (accept (portCount s 0) f)
  else .next s

/-! ## The rows -/

/-- FOLEST_OPEN. -/
def execFolestOpen (f : Frame) (s : State) : Host.Outcome State Fault Refusal := receive 1 1 f s

/-- FOLEST_CLOSE. -/
def execFolestClose (f : Frame) (s : State) : Host.Outcome State Fault Refusal := receive 1 3 f s

/-- FOLEST_RESET. -/
def execFolestReset (f : Frame) (s : State) : Host.Outcome State Fault Refusal := receive 1 5 f s

/-- FOLEST_NOP. -/
def execFolestNop (f : Frame) (s : State) : Host.Outcome State Fault Refusal := receive 1 6 f s

/-- MAILBOX. -/
def execMailboxFrame (f : Frame) (s : State) : Host.Outcome State Fault Refusal := receive 2 0 f s

/-- DMA_WRITE. -/
def execDmaWrite (f : Frame) (s : State) : Host.Outcome State Fault Refusal := receive 3 0 f s

/-- DMA_READ. -/
def execDmaRead (f : Frame) (s : State) : Host.Outcome State Fault Refusal := receive 4 0 f s

/-- INGEST. -/
def execIngest (f : Frame) (s : State) : Host.Outcome State Fault Refusal := receive 5 0 f s

/-- ACK. -/
def execAckFrame (f : Frame) (s : State) : Host.Outcome State Fault Refusal := receive 7 0 f s

/-- NACK. -/
def execNackFrame (f : Frame) (s : State) : Host.Outcome State Fault Refusal := receive 8 0 f s

/-- KEEPALIVE. -/
def execKeepalive (f : Frame) (s : State) : Host.Outcome State Fault Refusal := receive 9 0 f s

/-- When the module sends a frame again: RTO_NS after it was last sent, twice as long with each resend, up to 64 × RTO_NS
(R400). -/
def State.resendAt (s : State) (g : TxFrame) : Nat := g.sentAt + min (s.port.rto * 2 ^ g.tries) (64 * s.port.rto)

/-- RETRANSMIT_TIMEOUT (R400): the oldest unacknowledged frame outside the SACK blocks goes out again, or RESET does. -/
def execRetransmitTimeout (s : State) : Host.Outcome State Fault Refusal :=
  match s.port.session with
  | none => .next s
  | some x => match x.unacked.find? fun g => g.sent && !g.sacked with
    | none => .next s
    | some g =>
      if s.clock < s.resendAt g then .next s
      else if s.port.retryLimit ≤ g.tries then .next (resetSession s 0x0121)
      else
        let up := fun (h : TxFrame) => if h.seq = g.seq then { h with tries := h.tries + 1 } else h
        .next (resendOne (s.setSession { x with unacked := x.unacked.map up }) g)

/-- DELAYED_ACK (R399). -/
def execDelayedAck (s : State) : Host.Outcome State Fault Refusal :=
  match s.port.session with
  | none => .next s
  | some x => .next (if x.ackDue then sendAck s else s)

/-- KEEPALIVE_TIMER (R416): the module has sent nothing for KEEPALIVE_MS. -/
def execKeepaliveTimer (s : State) : Host.Outcome State Fault Refusal :=
  if s.port.session.isSome ∧ s.port.lastTx + s.port.keepalive * 1000000 ≤ s.clock then .next (sendPlain s 0x09 []) else .next s

/-- SESSION_TIMEOUT (R416): no valid frame of the partner for SESSION_TIMEOUT_MS: RESET with 0x0122. -/
def execSessionTimeout (s : State) : Host.Outcome State Fault Refusal :=
  if s.port.session.isSome ∧ s.port.lastRx + s.port.timeout * 1000000 ≤ s.clock then .next (resetSession s 0x0122) else .next s

/-- BINDING_IDLE (R407): the binding whose P tally is named is released after 10 s without an ingest frame for it. -/
def execBindingIdle (tally : BitVec 32) (s : State) : Host.Outcome State Fault Refusal :=
  let idle := fun (b : Binding) => decide (b.p = tally) && decide (b.last + 10000000000 ≤ s.clock)
  .next { s with port := { s.port with bindings := s.port.bindings.filter fun b => !idle b } }

/-- EGRESS_POST (R412): a store to post line t of a context's egress page queues one event frame, in whole words. -/
def execEgressPost (ctx line : Nat) (data : List (BitVec 8)) (s : State) : Host.Outcome State Fault Refusal :=
  if 256 ≤ line ∨ data = [] ∨ 128 < data.length then .next s
  else .next (queueEvent s ctx false line (data ++ zeros ((4 - data.length % 4) % 4)))

/-- The payload of an event frame (*Table 14-8*); TIME_LOCKED is the port's when the frame is sent (R389, R390). -/
def eventPayload (s : State) (e : EvFrame) : List Byte :=
  leBytes 2 e.ctx ++ [if e.bell then 1 else 0, (if e.dropped then 1 else 0) + (if s.port.locked then 2 else 0)] ++ leBytes 2 e.tag ++
  zeros 2 ++ leBytes 8 e.gen ++ vecBytes e.serial ++ zeros 4 ++ e.payload

/-- EVENT_FRAME_SEND (R413, R415): the context's oldest queued frame, when a session and the partner's window allow. -/
def execEventFrameSend (ctx : Nat) (s : State) : Host.Outcome State Fault Refusal :=
  match s.port.session, s.port.events.find? fun e => decide (e.ctx = ctx) with
  | some x, some e =>
    if s.portOpen = true ∧ x.inWindow x.txNext = true ∧ (x.unacked.all fun g => g.sent) = true then
      .next (pushTx { s with port := { s.port with events := s.port.events.erase e } } 0x06 false (eventPayload s e) (some ctx) e.time)
    else .next s
  | _, _ => .next s

end Sys2Proof.Machine
end

