-- ==== Sys2Proof/Machine/Stations.lean ====
section
/-! DEFINITION. Stations: declaration, placement, removal, migration, residency and replay (R31, R41 to R44, R53, R76 to
R80, R176 to R179, R370 to R372, R430 to R433). -/

namespace Sys2Proof.Machine

/-! ## Declarations (*Table 13-7*) -/

def Station.regionBytes (x : Station) : Nat := x.mill * 32768 + x.lane * 16384
def declVregs (d : List Byte) : Nat := 8 * le d 3 1
def declIns (d : List Byte) : Nat := le d 6 1
def declOuts (d : List Byte) : Nat := le d 7 1
/-- Stream record `k`: the inputs first, then the outputs. -/
def streamRec (d : List Byte) (k : Nat) : List Byte := slice d (64 + 32 * k) 32

/-- A byte of a context's memory as the Steward reads it; a page that is moving still holds it at the old frame. -/
def stewardByte (s : State) (ctx v : Nat) : Option Byte :=
  if 2 ^ 56 ≤ v then none else
  match s.walk ctx v with
  | .leaf level _ e => if leafR e then some (s.readByte (s.epochOf ctx e) (leafAddr level v e)) else none
  | _ => none

def stewardBytes (s : State) (ctx v n : Nat) : Option (List Byte) := (List.range n).mapM fun i => stewardByte s ctx (v + i)

/-- Ring, P and C of stream `k` of instance `i`: in the record, or in row `i` of the table it points to (R370). -/
def streamOf (s : State) (ctx : Nat) (d : List Byte) (insts i k : Nat) : Option (Nat × Nat × Nat) :=
  let r := streamRec d k
  if insts = 1 then some (le r 0 8, le r 12 4, le r 16 4)
  else (stewardBytes s ctx (le r 0 8 + 16 * i) 16).map fun b => (le b 0 8, le b 8 4, le b 12 4)

/-- The hall die whose bins hold an address of a context. -/
def binHall (s : State) (ctx v : Nat) : Option Nat :=
  match s.walk ctx v with
  | .leaf level _ e => match s.placeOf (leafAddr level v e) with
    | .bin h _ => some h
    | _ => none
  | _ => none

/-- Does a ring lie in mapped BIN pages? -/
def ringInBins (s : State) (ctx v n : Nat) : Bool :=
  (List.range ((v + n - 1) / 65536 - v / 65536 + 1)).all fun i => (binHall s ctx ((v / 65536 + i) * 65536)).isSome

/-- Stream record `k` of a declaration is in range and consistent (R370). Only an input in a larder names a PEER, the station
that produces it; with PEER 0 a DMA engine does (R37, log entry 31). -/
def streamOk (s : State) (ctx : Nat) (d : List Byte) (insts k : Nat) : Bool :=
  let r := streamRec d k
  let bytes := 2 ^ le r 9 1 * (128 * le r 10 2)
  let region := le d 9 1 * 32768 + le d 10 1 * 16384
  decide (le r 8 1 ≤ 1) && decide (1 ≤ le r 9 1 ∧ le r 9 1 ≤ 20) && decide (1 ≤ le r 10 2 ∧ le r 10 2 ≤ 8192) &&
  (decide (insts = 1) || decide (le r 12 4 = 0 ∧ le r 16 4 = 0)) &&
  (List.range insts).all fun i => match streamOf s ctx d insts i k with
    | none => false
    | some (ring, _, _) =>
      if le r 8 1 = 0 then decide (le r 20 4 = 0) && ringInBins s ctx ring bytes
      else if k < declIns d then decide (ring + bytes ≤ region) && (decide (le r 20 4 = 0) ||
        match s.stationOf ctx (le r 20 4) with
        | some (_, x) => decide (x.insts = insts)
        | none => false)
      else decide (le r 20 4 = 0)

/-- The tile descriptor at an address is valid (R34, R35). -/
def tileAtOk (s : State) (ctx v : Nat) : Bool :=
  decide (v % 64 = 0) && (match stewardBytes s ctx v 64 with
    | some b => tileOk (BitVec.ofNat 512 (leNat b))
    | none => false)

/-- R370's list, *Table 13-7*'s ranges, and NEAR_STREAM naming an input. -/
def declOk (s : State) (ctx : Nat) (d : List Byte) : Bool :=
  let g := le d 2 1
  let insts := le d 4 2
  let hints := le d 11 1
  decide (d.length = 64 + 32 * (declIns d + declOuts d) + 8 * le d 8 1) && decide (1 ≤ g ∧ g ≤ 48) &&
  decide (1 ≤ le d 3 1 ∧ le d 3 1 ≤ 32) && decide (g * declVregs d ≤ 2048) && decide (1 ≤ insts ∧ insts ≤ 4096) &&
  decide (declIns d ≤ 16 ∧ declOuts d ≤ 16 ∧ le d 8 1 ≤ 64) && decide (le d 9 1 * 32768 + le d 10 1 * 16384 ≤ 2 ^ 20) &&
  decide (nbits hints 1 0 ≠ 3) && decide (le d 12 1 ≤ 15) && (decide (nbits hints 3 3 = 0) || decide (le d 12 1 < declIns d)) && decide (le d 16 8 < 2 ^ 56) &&
  (List.range (declIns d + declOuts d)).all (streamOk s ctx d insts) &&
  (List.range (le d 8 1)).all fun i => tileAtOk s ctx (le d (64 + 32 * (declIns d + declOuts d) + 8 * i) 8)

/-! ## Instances and the room on a core (R42, R43, R52, R176 to R179) -/

def State.instsOf (s : State) (n : Nat) : List (Nat × Inst) := s.insts.filter fun e => decide (e.1 / 4096 = n)
def State.inst? (s : State) (n i : Nat) : Option Inst := tfind s.insts (instKey n i)
def State.setInst (s : State) (n i : Nat) (x : Inst) : State := { s with insts := tput s.insts (instKey n i) x }

/-- The instances on a core: station index, station, instance. -/
def State.onCore (s : State) (c : Nat) : List (Nat × Station × Inst) :=
  s.insts.filterMap fun e => if e.2.core = some c then (tfind s.stations (e.1 / 4096)).map fun x => (e.1 / 4096, x, e.2) else none

/-- The groups that hold or will take a slot of a core: resident, or parked with their instance on it. -/
def State.coreGroups (s : State) (c : Nat) : List Group :=
  (s.groups.filter fun e => decide (e.1 / 48 = c)).map (·.2) ++
  (s.parked.filter fun p => match s.inst? (p.station / 65536) p.inst with
    | some x => decide (x.core = some c)
    | none => false).map (·.grp)

def sumVregs (gs : List Group) : Nat := (gs.map (·.vregs)).foldl (· + ·) 0

/-- May an instance of a station be on a core: enabled, a hall die that the station may use, instances of one context only,
EXCLUSIVE kept both ways (R43, R178, *Table 2-8*, log entry 32)? -/
def coreAllowed (s : State) (x : Station) (c : Nat) : Bool :=
  let h := hallOfCore c
  let on := s.onCore c
  s.coreEnabled c && (s.part (s.ctxPart x.ctx)).halls.getLsbD h && (decide (x.halls = 0) || x.halls.getLsbD h) &&
  on.all (fun e => decide (e.2.1.ctx = x.ctx)) && (s.groups.all fun e => decide (e.1 / 48 ≠ c) || decide (e.2.ctx = x.ctx)) && (!x.exclusive || on.isEmpty) && !(on.any fun e => e.2.1.exclusive)

/-- Is a larder range free on a core? -/
def regionFree (s : State) (c base len : Nat) : Bool :=
  decide (base + len ≤ 2 ^ 20) && (decide (len = 0) || !((s.onCore c).any fun e => meets base len e.2.2.base e.2.1.regionBytes))

/-- The lowest base for a station's region on a core (R176). -/
def findBase (s : State) (c : Nat) (x : Station) : Option Nat :=
  ((List.range 64).map (16384 * ·)).find? fun b => decide (b % (if x.mill = 0 then 16384 else 32768) = 0) && regionFree s c b x.regionBytes

/-- A core takes an instance that needs some groups and registers, at its base or, the first time, at any. -/
def coreBase (s : State) (x : Station) (y : Inst) (gs : Nat × Nat) (c : Nat) : Option Nat :=
  let on := s.coreGroups c
  if coreAllowed s x c && decide (on.length + gs.1 ≤ 48) && decide (sumVregs on + gs.2 ≤ 2048) then
    if y.placed then (if regionFree s c y.base x.regionBytes then some y.base else none) else findBase s c x
  else none

/-- Stations joined to one by a ring in a larder (R178, R370). -/
def State.linked (s : State) (n : Nat) : List Nat :=
  let peers := fun (x : Station) => ((List.range (declIns x.decl)).filter fun k =>
    decide (le (streamRec x.decl k) 8 1 = 1) && decide (le (streamRec x.decl k) 20 4 ≠ 0)).map fun k => le (streamRec x.decl k) 20 4 / 65536
  ((tfind s.stations n).map peers).getD [] ++ (s.stations.filter fun e => (peers e.2).contains n).map (·.1)

/-- All stations joined to one, itself first. -/
def State.family (s : State) (n : Nat) : List Nat :=
  (List.range s.stations.length).foldl (fun acc _ => acc.foldl (fun a m => (s.linked m).foldl (fun b j => addOnce j b) a) acc) [n]

/-- The core on which a joined instance already is. -/
def State.partnerCore (s : State) (n i : Nat) : Option Nat :=
  (s.family n).findSome? fun m => if m = n then none else (s.inst? m i).bind (·.core)

/-- How little a core suits the station's preferences of *Table 2-8*: NEAR_STREAM weighs more than SPREAD or PACK, which is
the model's choice (log entry 119). -/
def coreScore (s : State) (n : Nat) (x : Station) (i c : Nat) : Nat :=
  let mine := (s.instsOf n).filterMap (·.2.core)
  let near := match x.near with
    | some k => match (streamOf s x.ctx x.decl x.insts i k).bind fun r => binHall s x.ctx r.1 with
      | some h => if h = hallOfCore c then 0 else 2 ^ 40
      | none => 0
    | none => 0
  near + (if x.spread then
      2 ^ 20 * (mine.filter fun d => decide (dieOfCore d = dieOfCore c)).length + (mine.filter fun d => decide (islandOfCore d = islandOfCore c)).length
    else if x.pack then (if mine.contains c then 0 else 1) else 0)

def minOf (l : List Nat) : Nat := l.foldl min (l.headD 0)

/-- Choose a core and a base for an instance: its last core when it fits, else among the best the manual leaves the
choice open (R43, R179, log entry 33). -/
def chooseCore (s : State) (n : Nat) (x : Station) (i : Nat) (y : Inst) (gs : Nat × Nat) : State × Option (Nat × Nat) :=
  let fits := fun c => (coreBase s x y gs c).map fun b => (c, b)
  let all := match s.partnerCore n i with
    | some c => [c]
    | none => partCores s (s.ctxPart x.ctx)
  match (if y.placed && all.contains y.last then fits y.last else none) with
  | some r => (s, some r)
  | none =>
    let cs := all.filterMap fits
    let best := minOf (cs.map fun r => coreScore s n x i r.1)
    let tops := cs.filter fun r => decide (coreScore s n x i r.1 = best)
    if tops.isEmpty then (s, none) else
    let (s1, v) := s.freeVal
    (s1, nth? tops (v % tops.length))

/-! ## Groups of an instance (R53, R54, R177, R371) -/

/-- A group as it first becomes resident: CR_BAR_WDOG 24, CR_RUNAHEAD 0x200, s0 the declaration copy, s1 the region's base,
s2 the lengths of its parts. -/
def Group.fresh (ctx gen station inst index : Nat) (x : Station) (base : Nat) : Group :=
  { ctx := ctx, gen := gen, station := station, inst := inst, index := index, vregs := x.vregs, live := allOnes32, barWdog := 24,
    runAheadMax := 0x200, bars := [], preds := [],
    sregs := tset 0 (tset 0 (tset 0 [] 0 (w64 (declVA x.loc))) 1 (w64 base)) 2 (w64 (x.mill * 32768 + x.lane * 16384 * 2 ^ 32)),
    vfile := [], stack := [(0, { pc := x.entry, mask := allOnes32, parent := none, kind := .run, wait := 0, turn := .go })],
    active := some 0, opp := 0, mode := .running, debug := false, bell := false, raEnded := false, ra := none, loads := [], units := [], reqs := [],
    nextId := 0, seq := 0, ordSeq := 0 }

/-- The instance's groups that are parked. -/
def State.parkedOf (s : State) (h i : Nat) : List Parked := s.parked.filter fun p => decide (p.station = h) && decide (p.inst = i)
def State.residentOf (s : State) (h i : Nat) : List (Nat × Group) :=
  s.groups.filter fun e => decide (e.2.station = h) && decide (e.2.inst = i)

/-- What an instance's parked groups need of a core. -/
def State.needs (s : State) (h i : Nat) : Nat × Nat :=
  let gs := (s.parkedOf h i).map (·.grp)
  (gs.length, sumVregs gs)

def inRegion (base len : Nat) (o : Nat) : Bool := decide (base ≤ o) && decide (o < base + len)

/-- Take an instance off its core: its larder region goes into the save area (R372, R439). -/
def saveInst (s : State) (n i : Nat) : State :=
  match s.inst? n i, tfind s.stations n with
  | some y, some x => match y.core with
    | none => s
    | some c =>
      let k := s.core c
      let len := x.regionBytes
      let sect := fun (o : Nat) => inRegion y.base len (32 * o)
      let s1 := s.setCore c { k with
        larder := k.larder.filter fun e => !inRegion y.base len e.1
        larderPoison := k.larderPoison.filter fun o => !sect o }
      s1.setInst n i { y with core := none, last := c, saved := k.larder.filter fun e => inRegion y.base len e.1,
                              savedPoison := k.larderPoison.filter sect }
  | _, _ => s

/-- Put an instance on a core: its region is restored at the same offsets, or zeroed the first time, when its groups also
learn their base (R177, R179, R372). -/
def placeInst (s : State) (n i c base : Nat) : State :=
  match s.inst? n i, tfind s.stations n with
  | some y, some x =>
    let len := x.regionBytes
    let load := fun (k : Core) => { k with
      larder := y.saved.foldl (fun l e => tset 0 l e.1 e.2) (k.larder.filter fun e => !inRegion base len e.1)
      larderPoison := (k.larderPoison.filter fun o => !inRegion base len (32 * o)) ++ y.savedPoison }
    let s1 := (s.modCore c load).setInst n i { y with
      core := some c, last := c, placed := true, base := base, saved := [], savedPoison := [], stranded := false }
    if y.placed then s1 else
      let h := stationHandle n x.tag
      { s1 with parked := s1.parked.map fun (p : Parked) =>
          if p.station = h ∧ p.inst = i then { p with grp := p.grp.setS 1 (w64 base) } else p }
  | _, _ => s

/-- An instance cannot be placed: it is stranded and the partner told (R80, R432). -/
def strand (s : State) (n i : Nat) : State :=
  match s.inst? n i, tfind s.stations n with
  | some y, some x =>
    if y.stranded then s else
    let s1 := { s with parked := s.parked.map fun (p : Parked) =>
      if p.station / 65536 = n ∧ p.inst = i ∧ p.reason = 5 then { p with reason := 2 } else p }
    notify (s1.setInst n i { y with stranded := true })
      (noticeOf s 0x8011 x.ctx (((s.ctx? x.ctx).map (·.gen)).getD 0) 0 (w32 (stationHandle n x.tag)) (w64 i))
  | _, _ => s

/-- Load a parked group into a slot (R76): a group that still waits keeps its slot WAIT-parked; the barrier counts go on from
the record's (R66). -/
def loadGroup (s : State) (p : Parked) (g : Grp) : State :=
  let k := startBars { p.grp with bell := false, raEnded := false, mode := .running } (islandCycles s g.core)
  let waits := decide (p.reason = 1) && k.stack.all fun e => !runnable e.2
  (dropParked s p).setGroup g (if waits then { k with mode := .waitParked, active := none } else pickIfIdle k)

/-- The lowest free slot of a core. -/
def State.freeGroupSlot (s : State) (c : Nat) : Option Grp :=
  (lowest 48 fun i => (s.group? { core := c, slot := i }).isNone).map fun i => { core := c, slot := i }

/-- Load every parked group of an instance that is on a core. -/
def loadInst (s : State) (h i : Nat) : State :=
  (s.parkedOf h i).foldl (fun s p => match (s.inst? (h / 65536) i).bind (·.core) with
    | none => s
    | some c => match s.freeGroupSlot c with
      | some g => loadGroup s p g
      | none => s) s

/-! ## STATION_DECLARE (R371) -/

/-- A partition's context slots in use: resident contexts, and those still leaving their cores (R372). -/
def State.slotSets (s : State) (p : Nat) : Nat :=
  (s.contexts.filter fun e => decide (e.2.part = p) && (e.2.resident ||
    s.insts.any fun x => x.2.core.isSome && (match tfind s.stations (x.1 / 4096) with
      | some y => decide (y.ctx = e.1)
      | none => false))).length

/-- May the context's groups be on cores now, taking a free slot set if it has none? -/
def State.canReside (s : State) (ctx : Nat) : Bool :=
  match s.ctx? ctx with
  | some c => decide (c.state = .active) && decide ((s.part c.part).state = .running) &&
      (s.part c.part).quiesceMb.isNone && (c.resident || decide (s.slotSets c.part < 4))
  | none => false

def becomeResident (s : State) (ctx : Nat) : State :=
  let ours := fun (u : GateUnit) => match u with
    | .cacheWay h _ => (s.part (s.ctxPart ctx)).halls.getLsbD h
    | _ => false
  let s0 := { s with idle := s.idle.filter fun e => !ours e.1 }
  let s1 := (s.seals.filter fun e => ours e.1).foldl (fun s e =>
    if e.2 = .gated then ungateUnit s e.1 else if e.2 = .closed then s.setSeal e.1 none else s) s0
  s1.modCtx ctx fun c => if c.resident then c else { c with resident := true, residentSince := s.clock }

/-- Save areas: GROUPS park records rounded up to 256 and the larder region, one after the other (R75, R371). -/
def takeSaves (ctx need : Nat) : Nat → State → Option (State × List Nat)
  | 0, s => some (s, [])
  | n + 1, s => (takeOwn s ctx need 256).bind fun r => (takeSaves ctx need n r.1).map fun q => (q.1, r.2 :: q.2)

/-- The instances of a new station with their groups, which no core holds yet. -/
def addInsts (s : State) (n : Nat) (x : Station) (gen : Nat) : State :=
  (List.range x.insts).foldl (fun s i =>
    let h := stationHandle n x.tag
    let s1 := s.setInst n i { core := none, last := 0, placed := false, base := 0, saved := [], savedPoison := [], stranded := false, left := [] }
    let rec_ := fun j => ({
      station := h, inst := i, index := j, reason := 5, status := 0, pc := x.entry, time := s.now, addr := 0, core := 0, aux := 0,
      resume := false, grp := Group.fresh x.ctx gen h i j x 0 } : Parked)
    { s1 with parked := s1.parked ++ (List.range x.groups).map rec_ }) s

/-- Place every instance of a station; none when one does not fit. -/
def placeAll (s : State) (n : Nat) (x : Station) : Option State :=
  (List.range x.insts).foldl (fun acc i => acc.bind fun s =>
    match s.inst? n i with
    | none => none
    | some y =>
      let h := stationHandle n x.tag
      match chooseCore s n x i y (s.needs h i) with
      | (s1, some (c, b)) => some (loadInst (placeInst s1 n i c b) h i)
      | (_, none) => none) (some s)

/-- The station that a declaration describes, before it has an index. -/
def declared (c : Nat) (d : List Byte) : Station :=
  let hints := le d 11 1
  { tag := 0, ctx := c, loc := 0, groups := le d 2 1, vregs := declVregs d, insts := le d 4 2, mill := le d 9 1, lane := le d 10 1
    spread := decide (nbits hints 0 0 = 1), pack := decide (nbits hints 1 1 = 1), exclusive := decide (nbits hints 2 2 = 1)
    near := if nbits hints 3 3 = 1 then some (le d 12 1) else none, halls := BitVec.ofNat 12 (le d 14 2)
    entry := va (le d 16 8), decl := d, declPage := 0, save := [], removing := none }

/-- What a context that is not resident would find on the cores when it is: its own instances alone, on their last cores
(R372). -/
def State.ownOnly (s : State) (ctx : Nat) : State :=
  let mine := fun (n : Nat) => match tfind s.stations n with
    | some x => decide (x.ctx = ctx)
    | none => false
  { s with
    insts := (s.insts.filter fun e => mine (e.1 / 4096)).map fun e => (e.1, if e.2.placed then { e.2 with core := some e.2.last } else e.2)
    groups := s.groups.filter fun e => decide (e.2.ctx = ctx)
    parked := s.parked.filter fun p => decide (p.grp.ctx = ctx) }

/-- Can the partition's enabled cores take every instance of a declared station under its binding hints (R43)? -/
def hintsMet (s : State) (x : Station) : Bool :=
  let n := ((lowest 65536 fun i => (tfind s.stations i).isNone)).getD 65536
  let t := if s.canReside x.ctx then becomeResident s x.ctx else s.ownOnly x.ctx
  (placeAll (addInsts { t with stations := tput t.stations n x } n x 0) n x).isSome

/-- Enter a station at an index and a local index: its declaration copy, its save areas, its instances with their groups; none
where the carve-out has no room (R370, R371). -/
def makeStation (s : State) (c : Nat) (d : List Byte) (n loc : Nat) : Option (Station × State) :=
  let x := declared c d
  let tag := nextTag 0xFFFF (tget 0 s.stationTags n)
  let need := x.groups * alignUp 256 (2816 + 128 * x.vregs) + x.regionBytes
  (takeOwn s c 65536 65536).bind fun r => (takeSaves c need x.insts r.1).bind fun q =>
    (setLeaf (q.1.write r.2 d) c (declVA loc) 0 (mkLeaf r.2 true false false 0 false true false false 0) none 0).map fun s1 =>
      let y := { x with tag := tag, loc := loc, declPage := BitVec.ofNat 48 r.2, save := q.2.map (BitVec.ofNat 48) }
      let s2 := { s1 with stations := tput s1.stations n y, stationTags := tput s1.stationTags n tag }
      (y, addInsts s2 n y (((s.ctx? c).map (·.gen)).getD 0))

/-- The lowest free station index, and the lowest free local index of a context. -/
def State.freeStation (s : State) (c : Nat) : Option (Nat × Nat) :=
  match lowest 65536 (fun i => (tfind s.stations i).isNone),
      lowest 1024 (fun i => !((s.stations.filter fun e => decide (e.2.ctx = c)).any fun e => decide (e.2.loc = i))) with
  | some n, some loc => some (n, loc)
  | _, _ => none

/-- STATION_DECLARE. A station of a context that cannot be resident now starts parked and is placed when the context becomes
resident (log entry 34). -/
def execStationDeclare (mb : Nat) (s : State) : Host.Outcome State Fault Refusal :=
  runCmd 0x38 mb s fun s c d =>
    if declOk s c d = false then respond s mb 0x0210 []
    else if le d 0 1 ≠ 1 ∨ 2 < le d 1 1 then respond s mb 0x0211 []
    else if hintsMet s (declared c d) = false then respond s mb 0x0212 []
    else match s.freeStation c with
      | none => respond s mb 0x0314 []
      | some (n, loc) => match makeStation s c d n loc with
        | none => respond s mb 0x0412 []
        | some (y, s1) =>
          let out := pad8 (leBytes 4 (stationHandle n y.tag))
          if s1.canReside c then match placeAll (becomeResident s1 c) n y with
            | some s2 => respond (giveSlots s2 (s.ctxPart c)) mb 0 out
            | none => respond s mb 0x0212 []
          else respond s1 mb 0 out

/-! ## Task boundaries and STATION_REMOVE (R44, R371) -/

/-- The tallies of an instance's input streams. -/
def inputTallies (s : State) (x : Station) (i : Nat) : List Nat :=
  (List.range (declIns x.decl)).flatMap fun k => match streamOf s x.ctx x.decl x.insts i k with
    | some (_, p, c) => [p / 32768, c / 32768]
    | none => []

/-- Every live path of a group waits on a watch of an input stream. -/
def waitsOnInput (s : State) (ts : List Nat) (k : Group) : Bool :=
  k.stack.all fun e => match e.2.kind with
    | .watch w _ => ts.contains (s.watch w).tally
    | .join => true
    | _ => false

/-- An instance is at a task boundary (R44). Groups that have ended do not count. -/
def atBoundary (s : State) (n : Nat) (x : Station) (i : Nat) : Bool :=
  let h := stationHandle n x.tag
  let ts := inputTallies s x i
  (s.residentOf h i).all (fun e => decide (e.2.mode = .waitParked) && waitsOnInput s ts e.2 && s.quiet (keyGrp e.1) e.2) &&
  (s.parkedOf h i).all fun p => decide (p.reason = 1) && waitsOnInput s ts p.grp

/-- Stop and forget a station: groups, slots, larder regions, save areas (R371, R375). The frame of its declaration copy is
freed once the copy is unmapped (R285). -/
def freeStation (s : State) (n : Nat) (x : Station) : State :=
  let h := stationHandle n x.tag
  let s1 := (s.groups.filter fun e => decide (e.2.station = h)).foldl (fun s e => s.dropGroup (keyGrp e.1)) s
  let s2 := (s1.instsOf n).foldl (fun s e => saveInst s n (e.1 % 4096)) s1
  let bases := x.save.map (·.toNat)
  { s2 with
    parked := s2.parked.filter fun p => decide (p.station ≠ h)
    insts := s2.insts.filter fun e => decide (e.1 / 4096 ≠ n)
    stations := tdel s2.stations n
    extents := s2.extents.filter fun e => !bases.contains e.base }

/-- Remove a station that is at its boundaries; its declaration copy is unmapped first (R283). -/
def removeNow (s : State) (mb n : Nat) (x : Station) : State :=
  let s1 := freeStation s n x
  match s1.leaves.find? fun l => decide (l.ctx = x.ctx) && decide (l.va = declVA x.loc) with
  | some l => startShoot (clearLeaves s1 [l]) x.ctx (declVA x.loc) (declVA x.loc + 65536) (.removed (s.ticket mb) x.declPage.toNat)
  | none => respond (freeExtent s1 x.declPage.toNat) mb 0 []

/-- The wait of STATION_REMOVE: up to 100 ms for the boundaries, then 0x0312 and the station runs on. -/
def removeStep (s : State) (mb n : Nat) (x : Station) : State :=
  if (s.instsOf n).all fun e => atBoundary s n x (e.1 % 4096) then removeNow s mb n x
  else if (x.removing.getD s.clock) + 100000000 ≤ s.clock then
    respond { s with stations := tput s.stations n { x with removing := none } } mb 0x0312 []
  else s

/-- STATION_REMOVE: the first time it begins its wait; given again, it looks whether the wait is over. -/
def execStationRemove (mb : Nat) (s : State) : Host.Outcome State Fault Refusal :=
  match tfind s.mailboxes mb with
  | none => .next s
  | some m =>
    if m.waiting ∧ msgCmd m.msg = 0x39 then
      match s.stationOf (msgCtx m.msg) (le (msgPayload m.msg) 0 4) with
      | some (n, x) => if x.removing.isSome then .next (removeStep s mb n x) else .next s
      | none => .next s
    else runCmd 0x39 mb s fun s c pl => match s.stationOf c (le pl 0 4) with
      | none => respond s mb 0x0315 []
      | some (n, x) =>
        let y := { x with removing := some s.clock }
        removeStep (beginWait { s with stations := tput s.stations n y } mb) mb n y

/-! ## Replay (R76) -/

/-- The page a record names is no longer moving or being shot down (R285), or its sector no longer poisoned. -/
def pageReady (s : State) (ctx v : Nat) (poison : Bool) : Bool :=
  if !poison && s.shoots.any (fun x => decide (x.asid = ctx) && decide (x.lo ≤ v) && decide (v < x.hi)) then false else
  match s.walk ctx v with
  | .leaf level _ e => if poison then !s.poisoned (s.epochOf ctx e) (leafAddr level v e) 1 || s.failedCommons (leafAddr level v e)
    else !leafMoving e
  | _ => true

/-- May a parked group replay (*Table 3-8*)? -/
def mayReplay (s : State) (p : Parked) : Bool :=
  s.served p.grp.ctx && (match p.reason.toNat with
    | 1 | 2 | 5 => true
    | 3 => pageReady s p.grp.ctx p.addr.toNat false
    | 4 => pageReady s p.grp.ctx p.addr.toNat true
    | 7 => p.resume
    | _ => false)

/-- REPLAY: into a free slot of the core its instance is on, which has the registers free (R52, R76). -/
def execReplay (station inst index : Nat) (g : Grp) (s : State) : Host.Outcome State Fault Refusal :=
  match s.findParked station inst index, s.inst? (station / 65536) inst with
  | some p, some y =>
    let on := (s.groups.filter fun e => decide (e.1 / 48 = g.core)).map (·.2)
    if y.core = some g.core ∧ s.coreEnabled g.core = true ∧ g.slot < 48 ∧ (s.group? g).isNone ∧ mayReplay s p = true ∧ sumVregs on + p.grp.vregs ≤ 2048 then
      .next (loadGroup s p g)
    else .next s
  | _, _ => .next s

/-! ## Moving instances (R78 to R80, R430 to R433) -/

/-- Write park records of an instance's WAIT-parked groups; they keep reason WAIT (R77). -/
def storeGroups (s : State) (h i : Nat) : State :=
  (s.residentOf h i).foldl (fun s e =>
    let g := keyGrp e.1
    let p : ParkReq := { reason := 1, status := 0, addr := 0, aux := 0 }
    let s1 := s.dropGroup g
    { s1 with parked := s1.parked ++ [parkRecord s g e.2 p] }) s

/-- Move joined instances to one core at their own offsets; none when one does not fit (R178, R179). -/
def moveAll (s : State) (ns : List Nat) (i target : Nat) : Option State :=
  let old := fun n => (s.inst? n i).bind (·.core)
  let s1 := ns.foldl (fun s n => saveInst s n i) s
  ns.foldl (fun acc n => acc.bind fun s => match s.inst? n i, tfind s.stations n with
    | some y, some x => match coreBase s x y (s.needs (stationHandle n x.tag) i) target with
      | some b =>
        let s2 := placeInst s n i target b
        (s2.inst? n i).map fun z => s2.setInst n i { z with left := match old n with
          | some c => tput z.left c s.clock
          | none => z.left }
      | none => none
    | _, _ => none) (some s1)

/-- No transfer or unit operation holds larder bytes of the instance (R78, R201). -/
def larderQuiet (s : State) (n i : Nat) : Bool :=
  match s.inst? n i, tfind s.stations n with
  | some y, some x => match y.core with
    | some c => decide (x.regionBytes = 0) || !((s.core c).scores.any fun e =>
        meets (64 * e.start.toNat) (64 * (e.last.toNat - e.start.toNat + 1)) y.base x.regionBytes)
    | none => true
  | _, _ => false

/-- The placer's limits: one instance from a core in 10 ms, and none back to a core it left within 100 ms (R433). -/
def placerMay (s : State) (n i target : Nat) : Bool :=
  match s.inst? n i with
  | some y => match y.core with
    | some c => !(s.insts.any fun e => match tfind e.2.left c with
        | some t => decide (s.clock < t + 10000000)
        | none => false) && (match tfind y.left target with
        | some t => decide (t + 100000000 ≤ s.clock)
        | none => true)
    | none => false
  | none => false

/-- Is an instance's SPREAD or NEAR_STREAM preference met on a core (*Table 2-8*)? -/
def prefersMet (s : State) (n : Nat) (x : Station) (i c : Nat) : Bool :=
  let others := ((s.instsOf n).filter fun e => decide (e.1 % 4096 ≠ i)).filterMap (·.2.core)
  (!x.spread || others.all fun d => decide (dieOfCore d ≠ dieOfCore c)) &&
  match x.near with
  | some k => match (streamOf s x.ctx x.decl x.insts i k).bind fun r => binHall s x.ctx r.1 with
    | some h => decide (h = hallOfCore c)
    | none => true
  | none => true

/-- Has a core 8 resident groups more than the mean of its partition's cores (R433)? -/
def overfull (s : State) (p c : Nat) : Bool :=
  let cs := partCores s p
  let count := fun (d : Nat) => (s.groups.filter fun e => decide (e.1 / 48 = d)).length
  let all := (s.groups.filter fun e => cs.contains (e.1 / 48)).length
  decide (all + 8 * cs.length ≤ count c * cs.length)

/-- The placer's own reasons for a move onto a core (R433): no stranded instance of the partition could take the core, and the
source is overfull or a preference unmet there is met on the target. -/
def placerWants (s : State) (n : Nat) (x : Station) (i c target : Nat) : Bool :=
  !(s.insts.any fun e => e.2.stranded && match tfind s.stations (e.1 / 4096) with
    | some z => decide (s.ctxPart z.ctx = s.ctxPart x.ctx) && s.served z.ctx &&
      (coreBase s z e.2 (s.needs (stationHandle (e.1 / 4096) z.tag) (e.1 % 4096)) target).isSome
    | none => false) &&
  (overfull s (s.ctxPart x.ctx) c || (!prefersMet s n x i c && prefersMet s n x i target))

/-- The placer's move: at a task boundary the placer's move; off a retired core the move of parked groups, or, when no core
takes the instance, its stranding. Joined instances move together. A move that the Reeve proposes needs no reason of the
placer's own (R468). -/
def migrate (proposed : Bool) (station inst core : Nat) (s : State) : State :=
  let n := station / 65536
  let fam := (s.family n).filter fun m => (s.inst? m inst).isSome
  match tfind s.stations n, (s.inst? n inst).bind (·.core) with
  | some x, some c =>
    let each := fun (f : Nat → Station → Bool) => fam.all fun m => match tfind s.stations m with
      | some y => f m y
      | none => false
    if x.tag ≠ station % 65536 ∨ s.served x.ctx = false ∨ fam.all (fun m => larderQuiet s m inst) = false then s
    else if s.retired.contains c then
      if each fun m y => (s.residentOf (stationHandle m y.tag) inst).isEmpty then
        match moveAll s fam inst core with
        | some s1 => s1
        | none =>
          if (partCores s (s.ctxPart x.ctx)).any fun d => (moveAll s fam inst d).isSome then s
          else fam.foldl (fun s m => strand (saveInst s m inst) m inst) s
      else s
    else if core ≠ c ∧ (proposed || placerWants s n x inst c core) = true ∧ each (fun m y => atBoundary s m y inst) = true ∧
        placerMay s n inst core = true then
      let s1 := fam.foldl (fun s m => match tfind s.stations m with
        | some y => storeGroups s (stationHandle m y.tag) inst
        | none => s) s
      match moveAll s1 fam inst core with
      | some s2 => s2
      | none => s
    else s
  | _, _ => s

/-- INSTANCE_MIGRATE. -/
def execInstanceMigrate (station inst core : Nat) (s : State) : Host.Outcome State Fault Refusal := .next (migrate false station inst core s)

/-- CORE_RETIRE (R79, R324, R430): every resident group parks with reason MIGRATE, the core's M lines are written back, its E
lines reported and its S lines dropped, the capability block changes, and notice 0x8010 carries the core and the status of the
corrected errors that led to it (log entry 35). -/
def execCoreRetire (core : Nat) (s : State) : Host.Outcome State Fault Refusal :=
  if s.coreEnabled core = false ∨ s.power.st ≠ .ready then .next s else
  let park := fun (k : Nat) (g : Group) => if k / 48 = core then beginPark g 2 0 0 0 else g
  let s0 := ((s.core core).l1.map (·.1)).foldl (fun s l => evictLine s core l) s
  let s1 := lifeUp (capChanged { s0 with retired := addOnce core s0.retired, groups := tmap park s0.groups }) 26 1
  .next (notify s1 (noticeOf s1 0x8010 0 0 0x0704 0 (w64 core)))

/-- Notice 0x8012: a stranded instance has been placed (R432). -/
def placedNotice (s : State) (x : Station) (h inst : Nat) : State :=
  notify s (noticeOf s 0x8012 x.ctx (((s.ctx? x.ctx).map (·.gen)).getD 0) 0 (w32 h) (w64 inst))

/-- INSTANCE_PLACED: a stranded instance of a resident context is placed and the partner told (R80, R432). -/
def execInstancePlaced (station inst core : Nat) (s : State) : Host.Outcome State Fault Refusal :=
  let n := station / 65536
  match tfind s.stations n, s.inst? n inst with
  | some x, some y =>
    if x.tag ≠ station % 65536 ∨ y.stranded = false ∨ s.served x.ctx = false ∨
        ((s.partnerCore n inst).getD core ≠ core) then .next s
    else match coreBase s x y (s.needs station inst) core with
      | none => .next s
      | some b => .next (placedNotice (placeInst s n inst core b) x station inst)
  | _, _ => .next s

/-! ## Residency (R372) -/

/-- Has an ACTIVE context work (R372)? -/
def State.ctxWork (s : State) (ctx : Nat) : Bool :=
  s.queues.any (fun e => decide (e.2.ctx = ctx) && !e.2.notify && decide (e.2.head ≠ e.2.tail)) ||
  s.parked.any fun p => decide (p.grp.ctx = ctx) && (p.grp.bell || decide (p.reason ≠ 1))

/-- The next victim: not PINNED, resident for at least 2 ms, lowest PRIORITY, then resident longest. -/
def State.victim (s : State) (p : Nat) : Option Nat :=
  ((sortBy (fun a b => decide (a.2.prio < b.2.prio) || (decide (a.2.prio = b.2.prio) && decide (a.2.residentSince ≤ b.2.residentSince)))
    (s.contexts.filter fun e => decide (e.2.part = p) && e.2.resident && !e.2.pinned && decide (e.2.residentSince + 2000000 ≤ s.clock))).head?).map (·.1)

/-- A context's instances: station index and instance. -/
def State.ctxInsts (s : State) (ctx : Nat) : List (Nat × Nat) :=
  s.insts.filterMap fun e => match tfind s.stations (e.1 / 4096) with
    | some x => if x.ctx = ctx then some (e.1 / 4096, e.1 % 4096) else none
    | none => none

/-- Eviction begins: no further entries start, and every group parks with reason EVICT (R372 steps 1 and 2). -/
def beginEvict (s : State) (ctx : Nat) : State :=
  let s1 := s.modCtx ctx fun c => { c with resident := false }
  { s1 with groups := tmap (fun _ (g : Group) => if g.ctx = ctx then beginPark g 5 0 0 0 else g) s1.groups }

/-- Eviction ends once the groups are parked and the running entries complete: larders are saved, slots freed (steps 3 and
4). -/
def endEvict (s : State) (ctx : Nat) : State :=
  let mine := s.queues.filter fun e => decide (e.2.ctx = ctx) && !e.2.notify
  let busy := mine.any fun e => e.2.entries.any fun x => decide (x.2 ≠ .finished) && decide (x.2 ≠ .waiting)
  if !(s.groupsOf ctx).isEmpty || busy || !((s.ctxInsts ctx).all fun x => larderQuiet s x.1 x.2) then s else
  let s1 := (s.ctxInsts ctx).foldl (fun s x => saveInst s x.1 x.2) s
  mine.foldl (fun s e => (withdrawSlot s e.1).getD s) s1

/-- CONTEXT_EVICT: the victim of its partition, when a context with work waits for a slot set; given again, it ends the
eviction. -/
def execContextEvict (ctx : Nat) (s : State) : Host.Outcome State Fault Refusal :=
  match s.ctx? ctx with
  | none => .next s
  | some c =>
    let waits := s.contexts.any fun e => decide (e.2.part = c.part) && !e.2.resident && decide (e.2.state = .active) && s.ctxWork e.1
    if c.state ≠ .active then .next s
    else if c.resident = false then .next (endEvict s ctx)
    else if waits = true ∧ 4 ≤ s.slotSets c.part ∧ s.victim c.part = some ctx then .next (endEvict (beginEvict s ctx) ctx)
    else .next s

/-- Place an instance of a returning context, or strand it. -/
def returnInst (s : State) (x : Nat × Nat) : State :=
  match s.inst? x.1 x.2, tfind s.stations x.1 with
  | some y, some st =>
    if y.core.isSome then s else
    match chooseCore s x.1 st x.2 y (s.needs (stationHandle x.1 st.tag) x.2) with
    | (s1, some (c, b)) =>
      let s2 := placeInst s1 x.1 x.2 c b
      if y.stranded then placedNotice s2 st (stationHandle x.1 st.tag) x.2 else s2
    | (s1, none) => strand s1 x.1 x.2
  | _, _ => s

/-- A context becomes resident: its instances are placed, its groups replay, its queues take slots. -/
def doReturn (s : State) (ctx : Nat) : State :=
  giveSlots ((s.ctxInsts ctx).foldl returnInst (becomeResident s ctx)) (s.ctxPart ctx)

/-- RESIDENCY_RETURN: an ACTIVE context with work and a free slot set (R372). -/
def execResidencyReturn (ctx : Nat) (s : State) : Host.Outcome State Fault Refusal :=
  match s.ctx? ctx with
  | none => .next s
  | some c =>
    if c.resident = true ∨ s.canReside ctx = false ∨ s.ctxWork ctx = false ∨ ((s.ctxInsts ctx).any fun x => ((s.inst? x.1 x.2).bind (·.core)).isSome) = true then
      .next s
    else .next (doReturn s ctx)

end Sys2Proof.Machine
end

