-- ==== Sys2Proof/Machine/Losses.lean ====
section
/-! DEFINITION. The loss and the destruction of contexts, what follows a shootdown, and page moves (R283 to R292, R326,
R374 to R377, R444). -/

namespace Sys2Proof.Machine

/-! ## Loss (R374) -/

/-- PHYS_ADDR, VIRT_ADDR and DETAIL of a loss's record: AUXILIARY of 0x0410 is a physical address and DETAIL the other
status, that of a dead end point; AUXILIARY of 0x0680 is no address (*Tables 3-10* and *16-6*, R448, log entry 144). -/
def lossAddrs (s : State) (l : Loss) : PAddr × Option (BitVec 56) × W64 :=
  if l.status = 0x0410 then
    (l.addr.setWidth 48, none, w64 (if s.homeStatus l.addr.toNat = 0x0714 then 0x0714 else 0))
  else if l.status = 0x0680 ∨ l.status = 0x0705 ∨ l.status = 0x0714 then (0, none, 0)
  else (match s.walk l.ctx l.addr.toNat with
    | .leaf level _ e => BitVec.ofNat 48 (leafAddr level l.addr.toNat e)
    | _ => 0, some (l.addr.setWidth 56), 0)

/-- The event record of a loss that a core's park raised, or that came after the first, unless the log has it (R374, R448,
log entry 36). -/
def lossEvent (s : State) (l : Loss) (first : Bool) : State :=
  let x := lossAddrs s l
  let r := fun (unit die : BitVec 8) (index : W16) => { mkEvent s 2 l.status unit die index with
    ctx := some (l.ctx, l.gen), part := BitVec.ofNat 4 (s.ctxPart l.ctx), phys := x.1, virt := x.2.1, detail := x.2.2 }
  let log := fun (r : EventRec) => if l.status = 0x0701 then withSyndrome s r else logEvent s r
  if l.logged then s
  else if l.core ≠ 0xFFFF then log (r 0x01 (dieCD l.core) (BitVec.ofNat 16 l.core))
  else if first then s
  else log (r 0x0C 0x40 0xFFFF)

/-- The doorbell leaves of a context whose queues have given up their slots (R373). -/
def closeDoorbells (s : State) (ctx : Nat) : State :=
  (s.queues.filter fun e => decide (e.2.ctx = ctx)).foldl (fun s e => match s.doorbellOf e.2 with
    | some l => reLeaf s l fun _ => doorbellLeaf none
    | none => s) s

/-- The Steward carries out a loss: the loss word, the queues, the groups, the epochs and tallies, the slots, the notice.
After 0x0713, 0x0705 and 0x0715 no group is left to write a record (R326, R376, R443). -/
def carryLoss (s : State) (l : Loss) (c : Context) : State :=
  let s1 := s.setCtx l.ctx { c with
    state := .lost, resident := false, lossStatus := l.status, lossCore := l.core, lossStation := l.station, lossTime := s.now,
    lossAddr := l.addr }
  let s2 := closeDoorbells (abortSieve (abortMill (haltQueues s1 l.ctx 0x0301) l.ctx) l.ctx) l.ctx
  let s3 := { s2 with groups := tmap (fun _ (g : Group) => if g.ctx = l.ctx then beginPark g 6 0x0301 0 0 else g) s2.groups }
  let s4 := tallyDeath (discardEpochs s3 l.ctx) l.ctx
  let s5 := (s4.ctxInsts l.ctx).foldl (fun s x => saveInst s x.1 x.2) s4
  notify s5 (noticeOf s5 0x8001 l.ctx c.gen l.status l.station l.addr)

/-- CONTEXT_LOSS: the oldest loss of a context that has not been carried out. A later loss, or one that arises during a
destroy, goes into the event log alone (R374, R375). -/
def execContextLoss (ctx : Nat) (s : State) : Host.Outcome State Fault Refusal :=
  match s.lossQ.find? fun l => decide (l.ctx = ctx) with
  | none => .next s
  | some l =>
    let s1 := { s with lossQ := s.lossQ.erase l }
    match s1.ctx? ctx with
    | none => .next s1
    | some c =>
      if c.gen ≠ l.gen then .next s1
      else if c.state = .active then .next (carryLoss (lossEvent s1 l true) l c)
      else .next (lossEvent s1 l false)

/-! ## Destroy (R375, *Table 13-8*) -/

/-- Commands under way for a context answer 0x0303; the destroy itself (CMD 0x0011) is answered at its end. -/
def stopCommands (s : State) (ctx : Nat) : State :=
  (s.mailboxes.filter fun e => e.2.waiting && decide (msgCmd e.2.msg ≠ 0x11) && decide (msgGen e.2.msg ≠ 0) && decide (msgCtx e.2.msg = ctx)).foldl
    (fun s e => respond s e.1 0x0303 []) s

/-- Intake, Stop, Release state, and the start of Unmap. -/
def startDestroy (s : State) (ctx : Nat) (ticket : Option Nat) : State :=
  match s.ctx? ctx with
  | none => s
  | some c =>
    let s1 := stopCommands (s.setCtx ctx { c with state := .destroying, resident := false, destroyMb := ticket }) ctx
    let s2 := abortSieve (abortMill (haltQueues s1 ctx 0x0303) ctx) ctx
    let s3 := (s2.groupsOf ctx).foldl (fun s e => s.dropGroup (keyGrp e.1)) s2
    let s4 := { s3 with cores := tmap (fun _ (k : Core) => { k with sb := k.sb.filter fun e => decide (e.ctx ≠ ctx) }) s3.cores }
    let s5 := tallyDeath (discardEpochs s4 ctx) ctx
    let s6 := { s5 with
      leaves := s5.leaves.filter fun l => decide (l.ctx ≠ ctx)
      shoots := s5.shoots.map fun (x : Shoot) => match x.after with
        | .removed t _ => if x.asid = ctx then { x with after := .respond t } else x
        | _ => x }
    startShoot (s6.write c.root.toNat (zeros 2048)) ctx 0 (2 ^ 56) (.destroy ctx)

/-- A move whose page no leaf maps any more stops, its destination frame is freed, and the agents that wait are released
(R289). -/
def stopMoves (s : State) : State :=
  let dead := s.moves.filter fun m => !(s.leaves.any fun l => match l.obj.bind (tfind s.objs) with
    | some o => (nth? o.pages l.page) == some m.src
    | none => false)
  let s1 := dead.foldl (fun s m => freeExtent s m.dst.toNat) s
  let s2 := { s1 with moves := s1.moves.filter fun m => !dead.contains m }
  if dead.isEmpty then s2 else resumeFolest s2

/-- Release objects: references, queues, stations, save areas, page tables and the bell log; the context number becomes
free unless the destroy was escalated (R376). Losses that arose meanwhile go into the event log (R375). CTX_DESTROY is answered; a destroy that no command asked for sends
CONTEXT_DESTROYED (R377, R426). -/
def finishDestroy (s : State) (ctx : Nat) : State :=
  match s.ctx? ctx with
  | none => s
  | some c =>
    let s0 := (s.lossQ.filter fun l => decide (l.ctx = ctx) && decide (l.gen = c.gen)).foldl (fun s l => lossEvent s l false) s
    let s1 := stopMoves s0
    let s2 := (s1.objs.filter fun e => e.2.refs.contains ctx).foldl (fun s e => dropRef s ctx e.1) s1
    let s3 := (s2.stations.filter fun e => decide (e.2.ctx = ctx)).foldl (fun s e => freeStation s e.1 e.2) s2
    let noExport := fun (t : Tally) => { t with exports := t.exports.erase ctx }
    let s4 := { s3 with
      queues := s3.queues.filter fun e => decide (e.2.ctx ≠ ctx)
      parked := s3.parked.filter fun p => decide (p.grp.ctx ≠ ctx)
      extents := s3.extents.filter fun e => decide (e.ctx ≠ some ctx)
      epochs := tfilter (fun _ v => decide (v ≠ Epoch.reset))
        (tmap (fun _ (e : Epoch) => if e.owner = some ctx then { e with owner := none, last := 0 } else e) s3.epochs)
      tallies := tmap (fun _ t => noExport t) s3.tallies
      lossQ := s3.lossQ.filter fun l => decide (l.ctx ≠ ctx)
      contexts := if c.escalated then s3.contexts else tdel s3.contexts ctx }
    match c.destroyMb with
    | some t => respondLate s4 t 0 []
    | none => if c.escalated then s4 else notify s4 (noticeOf s4 0x8003 ctx c.gen 0 0 0)

/-- CTX_DESTROY. -/
def execCtxDestroy (mb : Nat) (s : State) : Host.Outcome State Fault Refusal :=
  runCmd 0x11 mb s fun s c _ => startDestroy (beginWait s mb) c (some (s.ticket mb))

/-- DESTROY_OVERRUN (R376): the event, DESTROY_ESCALATED, the answer 0x0304, and the partition level of containment. -/
def execDestroyOverrun (ctx : Nat) (s : State) : Host.Outcome State Fault Refusal :=
  match s.ctx? ctx with
  | none => .next s
  | some c =>
    if c.state ≠ .destroying ∨ c.escalated = true then .next s else
    let s1 := s.setCtx ctx { c with escalated := true, destroyMb := none }
    let s2 := match c.destroyMb with
      | some t => respondLate s1 t 0x0304 []
      | none => s1
    let s3 := logEvent s2 { mkEvent s2 3 0x0715 0x0C 0x40 0xFFFF with
      ctx := some (ctx, c.gen), part := BitVec.ofNat 4 c.part, detail := c.lossStatus.setWidth 64 }
    let s4 := notify s3 (noticeOf s3 0x8005 ctx c.gen 0x0715 0 0)
    .next (takeDown (rasNotice s4 c.part 0x0715 0) c.part 0x0715 0)

/-- SESSION_GRACE_EXPIRY (R377): every context is destroyed; with a period of 0 a new session does not save them. -/
def execSessionGraceExpiry (s : State) : Host.Outcome State Fault Refusal :=
  if s.port.graceOn = false ∨ s.clock < s.port.graceFrom + s.grace * 1000000000 ∨ (s.port.session.isSome = true ∧ s.grace ≠ 0) then .next s else
  let s1 := { s with port := { s.port with graceOn := false } }
  .next ((s1.contexts.filter fun e => decide (e.2.state ≠ .destroying)).foldl (fun s e => startDestroy s e.1 none) s1)

/-! ## The end of a shootdown (R283 steps 4 and 5) -/

/-- The lines of a page that L1 caches hold or ask for. -/
def State.pageDir (s : State) (base size : Nat) : List Nat :=
  (s.dir.filter fun e => decide (base ≤ 128 * e.1) && decide (128 * e.1 < base + size)).map (·.1)

/-- The home slices of a frame take its lines back from the L1 caches (R287 step 3). -/
def callPage (s : State) (base size : Nat) : State := (s.pageDir base size).foldl (fun s l => homeCall s l true) s

/-- Requests that the home slices of a frame have accepted and not completed: copies in L1 caches, near-store atomics, fills;
and pool lines, which keep a page from moving (R261, R287 step 3, log entry 132). -/
def State.pageBusy (s : State) (base size : Nat) : Bool :=
  let inPage := fun (pa : Nat) => decide (base ≤ pa) && decide (pa < base + size)
  !(s.pageDir base size).isEmpty || s.cores.any (fun e => e.2.nsa.any fun r => inPage r.pa.toNat) ||
  s.slices.any (fun e => e.2.fills.any (fun f => inPage (128 * f.line) || (f.victim.map fun v => inPage (128 * v)).getD false) ||
    e.2.pool.any fun p => inPage (128 * p.line))

/-- The lines of a frame leave the slices: dirty ones are in memory (R287 step 3). -/
def dropPage (s : State) (base size : Nat) : State :=
  { s with slices := tmap (fun _ (x : Slice) => { x with
      lines := x.lines.filter fun y => !(decide (base ≤ 128 * y.line) && decide (128 * y.line < base + size)) }) s.slices }

/-- Step 5: answer the command, let the copy begin once every identifier's shootdown is over, or go on with the destroy. -/
def afterShoot (s : State) (a : After) : State :=
  match a with
  | .respond t => respondLate s t 0 []
  | .removed t base => respondLate (freeExtent s base) t 0 []
  | .destroy c => finishDestroy s c
  | .move id =>
    if s.shoots.any fun x => decide (x.after = .move id) then s else
    match s.moves.find? fun m => decide (m.id = id) with
    | none => s
    | some m =>
      let s1 := callPage s m.src.toNat m.size
      { s1 with moves := s1.moves.map fun x => if x = m then { m with copying := true } else x }

/-- SHOOTDOWN_ACK. -/
def execShootdownAck (id : Nat) (st : TlbStruct) (s : State) : Host.Outcome State Fault Refusal :=
  match s.shoots.find? fun x => decide (x.id = id) with
  | none => .next s
  | some x =>
    if x.acks.contains st = false then .next s else
    let y := { x with acks := x.acks.erase st }
    if y.todo.isEmpty && y.acks.isEmpty then .next (afterShoot { s with shoots := s.shoots.erase x } x.after)
    else .next { s with shoots := s.shoots.map fun z => if z = x then y else z }

/-! ## Page moves (R286 to R291) -/

/-- The leaves that map a frame, with the object and page. -/
def State.leavesOfFrame (s : State) (f : Nat) : List (LeafRec × Obj) :=
  s.leaves.filterMap fun l => match l.obj.bind (tfind s.objs) with
    | some o => if (nth? o.pages l.page).map (·.toNat) = some f then some (l, o) else none
    | none => none

/-- The group mode and partition of an address. -/
def State.groupAt (s : State) (pa : Nat) : Nat × Nat :=
  match s.placeOf pa with
  | .hbm g _ => ((s.hbmEntry g).mode.toNat, (s.hbmEntry g).part.toNat)
  | .cellar g _ _ => ((s.cellarEntry g).mode.toNat, (s.cellarEntry g).part.toNat)
  | _ => (0, 0xFF)

/-- Bytes that a partition may move in an interval: BUDGET_PCT percent of its cellar guarantees over 1 ms (R291). -/
def moveBudget (s : State) (p : Nat) : Nat :=
  let g := fun r => (tget Regulator.reset s.regs (regKey r p)).guar
  bits (s.part p).tier 55 48 * ((g 24 + g 25) * 1000000) / 100

/-- Free bytes of a partition's HBM groups, and all of them. -/
def hbmRoom (s : State) (p : Nat) : Nat × Nat :=
  let gs := s.groupsOfMode p 1 ++ s.groupsOfMode p 2
  let used := ((s.extents.filter fun e => gs.any fun g => meets e.base e.size (groupBase 1 g) groupBytes).map (·.size)).foldl (· + ·) 0
  (gs.length * groupBytes - used, gs.length * groupBytes)

/-- Fills of a page in the last interval. -/
def pageFills (s : State) (base size : Nat) : Nat :=
  ((List.range (size / 65536)).map fun i => tget 0 s.lastHeat (base / 65536 + i)).foldl (· + ·) 0

/-- The effective promotion threshold (R291). -/
def promoteAt (s : State) (p : Nat) : Nat :=
  let t := (s.part p).tier
  if bit t 57 then bits t 47 40 else max (tget Tier.reset s.tiers p).threshold (bits t 47 40)

/-- Are pages demoted: the free frames fell below RESERVE_PCT and have not reached twice it (R290)? -/
def demoteNow (s : State) (p : Nat) : Bool :=
  let r := bits (s.part p).tier 31 24
  let room := hbmRoom s p
  decide (room.1 * 100 < r * room.2) || ((tget Tier.reset s.tiers p).demoting && decide (room.1 * 100 < 2 * r * room.2))

/-- R290's reasons to move a page: hot enough and not demoted within 16 intervals; or cold long enough while the reserve is
short. -/
def moveWanted (s : State) (p f size : Nat) (promote : Bool) : Bool :=
  let t := (s.part p).tier
  let n := (tget Tier.reset s.tiers p).interval
  if promote then
    decide ((if size = 65536 then 1 else 4) * promoteAt s p ≤ pageFills s f size) && (match tfind s.demoted (f / 65536) with
      | some k => decide (k + 16 < n)
      | none => true)
  else
    decide (bits t 39 32 ≤ tget 0 s.cold (f / 65536)) && demoteNow s p

/-- Start a move: MOVING in every leaf, one shootdown for each context (R287 steps 1 and 2). -/
def startMove (s : State) (f dst size p : Nat) (promote : Bool) : State :=
  let id := s.nextMove
  let m : Move := { id := id, src := BitVec.ofNat 48 f, dst := BitVec.ofNat 48 dst, size := size, part := p, promote := promote, copying := false }
  let t := tget Tier.reset s.tiers p
  let ls := s.leavesOfFrame f
  let s1 := { s with
    moves := s.moves ++ [m], nextMove := id + 1
    tiers := tset Tier.reset s.tiers p { t with moved := t.moved + size, demoting := t.demoting || !promote } }
  ls.foldl (fun s l => startShoot (reLeaf s l.1 (setMoving true)) l.1.ctx l.1.va (l.1.va + size) (.move id)) s1

/-- Would the page go to HBM; and the group mode it would go into. -/
def moveUp (s : State) (f : Nat) : Bool := decide ((s.groupAt f).1 = 3)
def moveInto (s : State) (f : Nat) (o : Obj) : Nat := if moveUp s f then (if o.kind = 1 then 1 else 2) else 3

/-- Does a page of a frame qualify for a move (R286, R290)? -/
def moveFits (s : State) (f : Nat) (o : Obj) : Bool :=
  let p := (s.groupAt f).2
  !o.commons && !o.nomove && decide (o.page ≤ 2 ^ 21) && decide (1 ≤ (s.groupAt f).1 ∧ (s.groupAt f).1 ≤ 3 ∧ p ≤ 11) &&
  !(s.moves.any fun m => decide (m.src.toNat = f)) &&
  !(s.slices.any fun e => e.2.pool.any fun l => decide (f ≤ 128 * l.line) && decide (128 * l.line < f + o.page)) &&
  moveWanted s p f o.page (moveUp s f)

/-- How strongly a page asks to be moved: its fills for a promotion, its intervals without fills for a demotion (R290). -/
def moveRank (s : State) (f size : Nat) : Nat := if moveUp s f then pageFills s f size else tget 0 s.cold (f / 65536)

/-- No other page of the partition that qualifies comes before: hottest first, coldest first (R290). -/
def moveFirst (s : State) (f : Nat) (o : Obj) : Bool :=
  s.objs.all fun e => e.2.pages.all fun a =>
    decide ((s.groupAt a.toNat).2 ≠ (s.groupAt f).2) || decide (moveUp s a.toNat ≠ moveUp s f) || !moveFits s a.toNat e.2 ||
    decide (moveRank s a.toNat e.2.page ≤ moveRank s f o.page)

/-- May a page of an object move into a group (R286, R289 to R291)? -/
def moveMay (s : State) (f : Nat) (o : Obj) (group : Nat) : Bool :=
  let p := (s.groupAt f).2
  let pt := s.part p
  moveFits s f o && moveFirst s f o && decide (pt.state = .running) && pt.quiesceMb.isNone && bit pt.tier 56 &&
  decide ((s.moves.filter fun m => decide (m.part = p)).length < bits pt.tier 23 16) && (s.groupsOfMode p (moveInto s f o)).contains group

/-- PAGE_MOVE_REQUEST: the checks of R286, the policy of R290 and R291, then the move into the named group of the
destination tier. A move that the budget holds back is counted. -/
def execPageMoveRequest (frame : BitVec 48) (group : Nat) (s : State) : Host.Outcome State Fault Refusal :=
  let f := frame.toNat
  match s.leavesOfFrame f with
  | [] => .next s
  | (_, o) :: _ =>
    let p := (s.groupAt f).2
    let t := tget Tier.reset s.tiers p
    if moveMay s f o group = false then .next s
    else if moveBudget s p < t.moved + o.page then
      .next (countUp { s with tiers := tset Tier.reset s.tiers p { t with held := true } } 3 p 2 1)
    else match takeIn s (moveInto s f o) group o.page o.page none with
      | none => .next s
      | some (s1, a) => .next (startMove s1 f a o.page p (moveUp s f))

/-- The record of a move that ended; its DETAIL is not stated (log entry 1). -/
def moveEvent (s : State) (m : Move) : State :=
  let (s1, n) := s.freeVal
  logEvent s1 { mkEvent s1 5 0 0x0D 0x41 0xFFFF with part := BitVec.ofNat 4 m.part, phys := m.src, detail := w64 n }

/-- The destination of a move is sealed or has failed (R289). -/
def dstLost (s : State) (m : Move) : Bool :=
  decide (s.homeStatus m.dst.toNat ≠ 0) || (match s.placeOf m.dst.toNat with
    | .cellar g _ _ => !s.cellarUsable g
    | _ => false)

/-- A move is abandoned: every leaf keeps the old frame with MOVING clear (R289). -/
def abandonMove (s : State) (m : Move) : State :=
  let s1 := (s.leavesOfFrame m.src.toNat).foldl (fun s l => reLeaf s l.1 (setMoving false)) s
  resumeFolest (moveEvent { freeExtent s1 m.dst.toNat with moves := s1.moves.erase m } m)

/-- PAGE_COPY_DONE (R287 steps 3 to 5): once the old frame's home slices have completed its requests, the bytes are at the new
frame, the leaves name it with MOVING clear, and the old frame is freed. Poison moves along, and a destination that has failed
ends the move (R289). -/
def execPageCopyDone (move : Nat) (s : State) : Host.Outcome State Fault Refusal :=
  match s.moves.find? fun m => decide (m.id = move) with
  | none => .next s
  | some m =>
    if m.copying = false then .next s
    else if dstLost s m then .next (abandonMove s m)
    else if s.pageBusy m.src.toNat m.size then .next (callPage s m.src.toNat m.size) else
    let f := m.src.toNat
    let ls := s.leavesOfFrame f
    let s0 := chargePart (chargePart (dropPage s f m.size) m.part f m.size) m.part m.dst.toNat m.size
    let s1 := (copyBytes s0 none f m.dst.toNat m.size).1
    let frame := fun (e : W64) => setMoving false ((e &&& 0xFFFF_0000_0000_FFFF) ||| w64 (m.dst.toNat / 65536 * 65536))
    let s2 := ls.foldl (fun s l => reLeaf s l.1 frame) s1
    let swap := fun (o : Obj) => { o with pages := o.pages.map fun a => if a = m.src then m.dst else a }
    let n := (tget Tier.reset s2.tiers m.part).interval
    let s3 := { freeExtent s2 f with
      objs := tmap (fun _ o => swap o) s2.objs
      moves := s2.moves.erase m
      demoted := if m.promote then s2.demoted else tput s2.demoted (m.dst.toNat / 65536) n
      cold := tdel s2.cold (f / 65536) }
    .next (resumeFolest (moveEvent (countUp s3 3 m.part (if m.promote then 0 else 1) 1) m))

/-- MOVE_ABANDONED: the destination is sealed or has failed; every leaf keeps the old frame (R289). -/
def execMoveAbandoned (move : Nat) (s : State) : Host.Outcome State Fault Refusal :=
  match s.moves.find? fun m => decide (m.id = move) with
  | none => .next s
  | some m =>
    .next (if dstLost s m then abandonMove s m else s)

/-- The pages of a partition's objects that lie in its HBM groups. -/
def hbmPages (s : State) (p : Nat) : List (Nat × Nat) :=
  (s.objs.filter fun e => !e.2.commons && decide (e.2.part = p)).flatMap fun e =>
    (e.2.pages.filter fun a => match s.placeOf a.toNat with
      | .hbm _ _ => true
      | _ => false).map fun a => (a.toNat, e.2.page)

/-- TIER_INTERVAL: the heat tables are read and cleared, cold pages are counted, and the threshold adapts (R290, R291). -/
def execTierInterval (part : Nat) (s : State) : Host.Outcome State Fault Refusal :=
  if 12 ≤ part ∨ s.inService = false then .next s else
  let tabs := s.heat.filter fun e => decide (e.1 % 16 = part)
  let all := tabs.flatMap (·.2)
  let other := s.lastHeat.filter fun e => (s.groupAt (65536 * e.1)).2 ≠ part
  let heat := all.foldl (fun t e => tput t e.1 ((tget 0 t e.1) + e.2)) other
  let s1 := { s with heat := s.heat.filter (fun e => decide (e.1 % 16 ≠ part)), lastHeat := heat }
  let cold := (hbmPages s1 part).foldl (fun t e =>
    if pageFills s1 e.1 e.2 = 0 then tput t (e.1 / 65536) (tget 0 t (e.1 / 65536) + 1) else tdel t (e.1 / 65536)) s1.cold
  let t := tget Tier.reset s.tiers part
  let r := (s.part part).tier
  let least := bits r 47 40
  let heldN := if t.held then t.heldIntervals + 1 else 0
  let calmN := if 2 * t.moved < moveBudget s part then t.calmIntervals + 1 else 0
  let thr := max t.threshold least
  let t1 : Tier :=
    { threshold := if bit r 57 then least else if heldN = 8 then min 255 (2 * thr) else if calmN = 64 then max least (thr / 2) else thr
      heldIntervals := if heldN = 8 then 0 else heldN, calmIntervals := if calmN = 64 then 0 else calmN
      moved := 0, interval := t.interval + 1, held := false, demoting := demoteNow s part }
  .next { s1 with cold := cold, tiers := tset Tier.reset s1.tiers part t1 }

end Sys2Proof.Machine
end

