-- ==== Sys2Proof/Machine/Parts.lean ====
section
/-! DEFINITION. The partition commands (R272, R419 to R429, R489). -/

namespace Sys2Proof.Machine

/-! ## Partition records (*Table 15-2*) -/

def partStateCode : PartState → Nat
  | .unconfigured => 0
  | .running => 1
  | .quiesced => 2
  | .down => 3

/-- A partition's record as stored, STATE filled in. -/
def partRecord (s : State) (p : Nat) : List Byte :=
  let x := s.part p
  leBytes 1 p ++ leBytes 1 (partStateCode x.state) ++ leBytes 2 x.halls.toNat ++ leBytes 1 x.binWays ++ [if x.tent then 1 else 0] ++
  leBytes 1 x.refAdd ++ zeros 1 ++ leBytes 2 x.cellar ++ zeros 6 ++ leBytes 4 x.tallyQuota ++ leBytes 4 x.watchQuota ++
  leBytes 16 x.masks.toNat ++ leBytes 24 x.modes.toNat

/-- The partition that a record describes, over the policies it already has. -/
def partOfRecord (old : Partition) (r : List Byte) : Partition :=
  { old with
    halls := BitVec.ofNat 12 (le r 2 2), binWays := le r 4 1, tent := decide (le r 5 1 % 2 = 1), refAdd := le r 6 1, cellar := le r 8 2
    tallyQuota := le r 0x10 4, watchQuota := le r 0x14 4, masks := BitVec.ofNat 128 (le r 0x18 16), modes := BitVec.ofNat 192 (le r 0x28 24) }

/-! ## PART_CONFIG (R421 to R423) -/

/-- The group mode of HBM group `g` in a record. -/
def wantedMode (x : Partition) (g : Nat) : Nat :=
  match bits x.modes (2 * g + 1) (2 * g) with
  | 3 => 4
  | m => m

/-- Does a group of a mode hold any range in use? -/
def State.groupUsed (s : State) (mode g : Nat) : Bool := s.extents.any fun e => meets e.base e.size (groupBase mode g) groupBytes

def hallGroups (x : Partition) : List Nat := (List.range 96).filter fun g => x.halls.getLsbD (g / 8)

def interleave {α : Type} : List α → List α → List α
  | [], b => b
  | a :: t, b => a :: (match b with
    | [] => t
    | c :: u => c :: interleave t u)

/-- The free cellar groups, alternately from CL0 and CL1, lowest first. -/
def State.freeCellar (s : State) : List Nat :=
  let free := (List.range s.cellarGroupsCount).filter fun g => decide ((s.cellarEntry g).mode = 0) && s.cellarUsable g
  interleave (free.filter fun g => decide (s.dieOfCellar g = 0)) (free.filter fun g => decide (s.dieOfCellar g = 1))

def State.cellarOf (s : State) (p : Nat) : List Nat :=
  (List.range s.cellarGroupsCount).filter fun g => decide ((s.cellarEntry g).mode = 3) && decide ((s.cellarEntry g).part.toNat = p)

/-- CELLAR groups to give up: the highest-numbered unused ones. -/
def State.surplus (s : State) (p n : Nat) : List Nat := ((s.cellarOf p).reverse.filter fun g => !s.groupUsed 3 g).take n

/-- The highest bin way in use in a partition's slices, plus one. -/
def binTop (s : State) (x : Partition) : Nat :=
  let tops := s.extents.filterMap fun e => match s.placeOf e.base with
    | .bin h off => if x.halls.getLsbD h then some (off / 2 ^ 26 + 1) else none
    | _ => none
  tops.foldl max 0

def epochsFree (s : State) (p : Nat) : Bool := (List.range 64).all fun e => decide ((s.epoch (64 * p + e)).state = .free)
def quotaSum (s : State) (p : Nat) (f : Partition → Nat) : Nat :=
  (((List.range 12).filter fun q => decide (q ≠ p)).map fun q => f (s.part q)).foldl (· + ·) 0

/-- Does any leaf of a context of the partition have EP set? -/
def epMapped (s : State) (p : Nat) : Bool :=
  s.leaves.any fun l => decide (s.ctxPart l.ctx = p) && leafEp (s.tableEntry l.entry.toNat)

/-- Write group table entries. -/
def setGroups (cellar : Bool) (e : GroupEntry) (gs : List Nat) (s : State) : State :=
  if cellar then { s with cellarGroups := gs.foldl (fun t g => tset GroupEntry.reset t g e) s.cellarGroups }
  else { s with hbmGroups := gs.foldl (fun t g => tset GroupEntry.reset t g e) s.hbmGroups }

def modeEntry (mode p : Nat) : GroupEntry :=
  { mode := BitVec.ofNat 4 mode, part := if mode = 1 ∨ mode = 2 ∨ mode = 3 then BitVec.ofNat 8 p else 0xFF }

/-- What R421, R422 and R487 refuse, in the order of *Table 15-3*: 0 when the record may be applied. -/
def configStatus (s : State) (p : Nat) (x : Partition) : W16 :=
  let old := s.part p
  let fresh := decide (old.state = .unconfigured)
  let s1 := resetRegs ((hallGroups x).foldl (fun s g => setGroups false (modeEntry (wantedMode x g) p) [g] s)
    (s.setPart p { x with state := .quiesced })) p
  let need := x.cellar + x.refAdd
  let drop := (s.cellarOf p).length - x.cellar
  if 11 < p ∨ x.halls = 0 ∨ 16 < x.binWays ∨ (x.binWays = 16 ∧ x.tent = true) ∨ 256 < x.cellar ∨
      ((List.range 96).any fun g => (!x.halls.getLsbD (g / 8) || s.excluded.contains g) && decide (wantedMode x g ≠ 0)) = true then 0x0210
  else if old.state = .running ∨ old.state = .down then 0x0316
  else if fresh = false ∧ x.halls ≠ old.halls then 0x0210
  else if fresh = true ∧ ((partHalls x).any fun h => (s.partOfHall h).isSome) = true then 0x0317
  else if 73728 < x.tallyQuota + quotaSum s p (·.tallyQuota) ∨ 49152 < x.watchQuota + quotaSum s p (·.watchQuota) then 0x0318
  else if fresh = true ∧ regsOver s1 = true then 0x0318
  else if ((hallGroups x).any fun g => decide ((s.hbmEntry g).mode.toNat ≠ wantedMode x g) && s.groupUsed 1 g) = true ∨
      (s.surplus p drop).length < drop ∨ x.binWays < binTop s x ∨ (x.tent ≠ old.tent ∧ epochsFree s p = false) ∨
      (old.tent = true ∧ x.tent = false ∧ epMapped s p = true) ∨ x.tallyQuota < s.talliesOfPart p ∨ x.watchQuota < s.watchesOfPart p then 0x0319
  else if s.freeCellar.length + (s.cellarOf p).length < need then 0x0412
  else 0

/-- Give a slice its split and way masks: a way that changes use is emptied first (R423). `all` empties every bin and the
pool. -/
def splitSlice (all tent : Bool) (binWays : Nat) (masks : BitVec 128) (s : State) (h : Nat) : State :=
  let sl := s.slice h
  let dst : Slice := { sl with tent := tent, binWays := binWays, wayMask := masks }
  let s0 := (sl.lines.filter fun x => !dst.isCache x.way).foldl (fun s x => dropLine s h x.line) s
  let s1 := s0.setSlice h { s0.slice h with
    tent := tent, binWays := binWays, wayMask := masks
    pool := if all || tent != sl.tent then [] else sl.pool }
  let base := 0x0800_0000_0000 + h * 2 ^ 30
  let lo := if all then 0 else sl.binWays
  if lo < binWays then zeroRange s1 (base + lo * 2 ^ 26) ((binWays - lo) * 2 ^ 26) else s1

/-- Apply a record that `configStatus` allows; the partition is QUIESCED. -/
def configure (s : State) (p : Nat) (x : Partition) : State :=
  let old := s.part p
  let fresh := decide (old.state = .unconfigured)
  let pol := if fresh then { x with tier := tierPolicyReset, fence := fencePolicyReset, reeve := reevePolicyReset } else x
  let s1 := (s.setPart p { pol with state := .quiesced })
  let s2 := (hallGroups x).foldl (fun s g => setGroups false (modeEntry (wantedMode x g) p) [g] s) s1
  let held := (s.cellarOf p).length
  let give := s.surplus p (held - x.cellar)
  let s3 := setGroups true GroupEntry.reset give s2
  let free := s3.freeCellar
  let more := x.cellar - held
  let s4 := setGroups true (modeEntry 5 p) ((free.drop more).take x.refAdd) (setGroups true (modeEntry 3 p) (free.take more) s3)
  let s5 := (partHalls x).foldl (splitSlice fresh x.tent x.binWays x.masks) s4
  let s6 := { s5 with cursors := s5.cursors.filter fun e => !((List.range 3).any fun i => decide (e.1 = cursorKey p (i + 1))) }
  if fresh then
    resetRegs { s6 with
      epochs := s6.epochs.filter fun e => decide (e.1 / 64 ≠ p)
      epochQ := tdel s6.epochQ p
      tiers := tdel s6.tiers p } p
  else s6

/-- A partition change enters the measurement log with the record as stored (R480), and the flash keeps it (R489). -/
def partChanged (s : State) (p : Nat) : State := saveParts (measureRecord s 3 p 0 (partRecord s p))

/-- PART_CONFIG. FLAGS bit 7 reads the record. -/
def execPartConfig (mb : Nat) (s : State) : Host.Outcome State Fault Refusal :=
  runCmd 0x58 mb s fun s _ pl =>
    let p := le pl 0 1
    let x := partOfRecord (s.part p) pl
    if 11 < p then respond s mb 0x0210 []
    else if 128 ≤ le pl 5 1 then respond s mb 0 (partRecord s p)
    else if configStatus s p x ≠ 0 then respond s mb (configStatus s p x) []
    else
      let s1 := partChanged (configure s p x) p
      respond s1 mb 0 (partRecord s1 p)

/-! ## Quiesce and resume (R424, R425) -/

/-- No transfer runs, no group or instance is on a core, no move is under way. -/
def quiet (s : State) (p : Nat) : Bool :=
  let cs := s.ctxsOf p
  !(s.groups.any fun e => cs.contains e.2.ctx) && !(s.moves.any fun m => decide (m.part = p)) &&
  (cs.all fun c => (s.ctxInsts c).all fun x => ((s.inst? x.1 x.2).bind (·.core)).isNone) &&
  !(s.queues.any fun e => cs.contains e.2.ctx && e.2.entries.any fun x => decide (x.2 ≠ .finished) && decide (x.2 ≠ .waiting))

/-- One look at a quiesce that has begun: contexts whose groups are parked leave their cores; the last one ends it. -/
def quiesceStep (s : State) (mb p : Nat) : State :=
  let s1 := (s.ctxsOf p).foldl (fun s c => match s.ctx? c with
    | some x => if x.state = .active then endEvict s c else s
    | none => s) s
  if quiet s1 p then respond (saveParts (s1.setPart p { s1.part p with state := .quiesced, quiesceMb := none })) mb 0 [] else s1

/-- PART_QUIESCE: given again, it looks whether the partition has become quiet. -/
def execPartQuiesce (mb : Nat) (s : State) : Host.Outcome State Fault Refusal :=
  match tfind s.mailboxes mb with
  | none => .next s
  | some m =>
    if m.waiting ∧ msgCmd m.msg = 0x59 then
      let p := le (msgPayload m.msg) 0 1
      .next (if (s.part p).quiesceMb = some m.order then quiesceStep s mb p else s)
    else runCmd 0x59 mb s fun s _ pl =>
      let p := le pl 0 1
      if 11 < p then respond s mb 0x0210 []
      else match (s.part p).state with
        | .quiesced => respond s mb 0 []
        | .unconfigured | .down => respond s mb 0x0316 []
        | .running =>
          if (s.part p).quiesceMb.isSome then respond s mb 0x0316 [] else
          let s1 := (beginWait s mb).setPart p { s.part p with quiesceMb := some (s.ticket mb) }
          let s2 := (s1.ctxsOf p).foldl (fun s c => match s.ctx? c with
            | some x => if x.resident then beginEvict s c else s
            | none => s) s1
          quiesceStep s2 mb p

/-- PART_RESUME. -/
def execPartResume (mb : Nat) (s : State) : Host.Outcome State Fault Refusal :=
  runCmd 0x5A mb s fun s _ pl =>
    let p := le pl 0 1
    if 11 < p then respond s mb 0x0210 []
    else if (s.part p).state ≠ .quiesced then respond s mb 0x0316 []
    else respond (saveParts (s.setPart p { s.part p with state := .running })) mb 0 []

/-! ## PART_RESET (R426) -/

/-- A core island reset: its cores' registers, larders, L1 data caches and store buffers are cleared, and modified L1 lines
are discarded (*Tables 18-5 and 18-6*). -/
def islandReset (s : State) (i : Nat) : State :=
  let ours := fun (c : Option Nat) => match c with
    | some n => decide (islandOfCore n = i)
    | none => false
  { s with
    cores := s.cores.filter fun e => decide (islandOfCore e.1 ≠ i)
    groups := s.groups.filter fun e => decide (islandOfCore (e.1 / 48) ≠ i)
    net := s.net.filter fun m => !(ours m.src || ours m.dst || ours m.requester) }

/-- The islands of a hall die. -/
def islandsOfHall (h : Nat) : List Nat := (List.range 44).map (44 * h + ·)

/-- The end of a reset, once every context is gone: bins and pools zero, epochs FREE, caches and directory empty. -/
def resetDone (s : State) (p : Nat) : State :=
  let x := s.part p
  let s1 := (partHalls x).foldl (fun s h => zeroRange (s.setSlice h { s.slice h with pool := [] }) (0x0800_0000_0000 + h * 2 ^ 30) (2 ^ 30)) s
  let s2 := { ((partHalls x).flatMap islandsOfHall).foldl islandReset s1 with
    dir := s1.dir.filter fun e => !x.halls.getLsbD (s1.homeOf (128 * e.1))
    epochs := s1.epochs.filter fun e => decide (e.1 / 64 ≠ p)
    epochQ := tdel s1.epochQ p }
  partChanged (s2.setPart p { x with state := .quiesced, quiesceMb := none }) p

/-- One look at a reset that has begun. -/
def resetStep (s : State) (mb p : Nat) : State := if (s.ctxsOf p).isEmpty then respond (resetDone s p) mb 0 [] else s

/-- Every context of the partition is destroyed; a number held under R376 becomes free. -/
def resetBegin (s : State) (p : Nat) : State :=
  let s1 := s.setPart p { s.part p with state := .down, quiesceMb := none }
  let s2 := match (s.part p).quiesceMb with
    | some t => respondLate s1 t 0x030F []
    | none => s1
  (s2.ctxsOf p).foldl (fun s c => match s.ctx? c with
    | none => s
    | some x =>
      if x.state ≠ .destroying then startDestroy s c none
      else if x.escalated then
        let s1 := s.setCtx c { x with escalated := false }
        if s1.shoots.any fun h => decide (h.after = .destroy c) then s1 else finishDestroy s1 c
      else s) s2

/-- PART_RESET: given again, it looks whether the contexts are gone. While it runs the partition is DOWN. -/
def execPartReset (mb : Nat) (s : State) : Host.Outcome State Fault Refusal :=
  match tfind s.mailboxes mb with
  | none => .next s
  | some m =>
    if m.waiting ∧ msgCmd m.msg = 0x5B then .next (resetStep s mb (le (msgPayload m.msg) 0 1))
    else runCmd 0x5B mb s fun s _ pl =>
      let p := le pl 0 1
      if 11 < p then respond s mb 0x0210 []
      else if (s.part p).state = .unconfigured then respond s mb 0x0316 []
      else resetStep (resetBegin (beginWait s mb) p) mb p

/-! ## PART_MOVE_HALLS (R427) -/

/-- Write back and invalidate the L1 data caches of a partition and the cache ways of its slices (step 1). -/
def flushPart (s : State) (p : Nat) : State :=
  let x := s.part p
  let cs := s.cores.filter fun e => x.halls.getLsbD (hallOfCore e.1)
  let ls := cs.flatMap fun e => (e.2.l1.map (·.1)) ++ e.2.mshr.map (·.1)
  let s1 := ls.foldl recallLine s
  (partHalls x).foldl (fun s h => s.setSlice h { s.slice h with lines := [] }) s1

/-- What R427 refuses as in use. -/
def moveInUse (s : State) (src : Nat) (hs : List Nat) : Bool :=
  (hs.any fun h => (List.range 8).any fun i =>
    let m := (s.hbmEntry (8 * h + i)).mode
    (decide (m = 1) || decide (m = 2)) && s.groupUsed 1 (8 * h + i)) ||
  (s.extents.any fun e => match s.placeOf e.base with
    | .bin h _ => hs.contains h
    | _ => false) ||
  !epochsFree s src || (decide (hs.length = (partHalls (s.part src)).length) && !(s.ctxsOf src).isEmpty)

/-- A source left with no hall die is UNCONFIGURED: its record and its regulators are gone and its CELLAR groups are free (log
entry 143). -/
def unconfigure (s : State) (p : Nat) : State := dropRegs (setGroups true GroupEntry.reset (s.cellarOf p) s) p

/-- Move hall dies; a target of none leaves them in no partition. -/
def moveHalls (s : State) (src : Nat) (tgt : Option Nat) (mask : BitVec 12) (hs : List Nat) : State :=
  let s1 := flushPart s src
  let s2 := match tgt with
    | some t => flushPart s1 t
    | none => s1
  let s3 := hs.foldl (fun s h => (List.range 8).foldl (fun s i =>
    let m := (s.hbmEntry (8 * h + i)).mode
    if m = 1 ∨ m = 2 then setGroups false GroupEntry.reset [8 * h + i] s else s) s) s2
  let clear := fun (x : Partition) => { x with
    halls := x.halls &&& ~~~mask
    modes := BitVec.ofNat 192 (packFields 2 (fun g => if mask.getLsbD (g / 8) then 0 else bits x.modes (2 * g + 1) (2 * g)) 96) }
  let left := clear (s.part src)
  let s4 := s3.setPart src (if left.halls = 0 then Partition.reset else left)
  match tgt with
  | none =>
    let s5 := hs.foldl (splitSlice true false 0 Slice.reset.wayMask) s4
    if left.halls = 0 then unconfigure s5 src else resetRegs s5 src
  | some t =>
    let x := s4.part t
    let com := fun (g : Nat) => decide ((s4.hbmEntry g).mode = 4)
    let y := { x with
      halls := x.halls ||| mask
      modes := BitVec.ofNat 192 (packFields 2 (fun g => if mask.getLsbD (g / 8) then (if com g then 3 else 0) else bits x.modes (2 * g + 1) (2 * g)) 96) }
    let s5 := hs.foldl (splitSlice true x.tent x.binWays x.masks) (s4.setPart t y)
    resetRegs (if left.halls = 0 then unconfigure s5 src else resetRegs s5 src) t

/-- PART_MOVE_HALLS; guarantees that would exceed a rate refuse it with the status of *Table 15-3* that names them (R297,
log entry 138). -/
def execPartMoveHalls (mb : Nat) (s : State) : Host.Outcome State Fault Refusal :=
  runCmd 0x5C mb s fun s _ pl =>
    let src := le pl 0 1
    let tgt := le pl 1 1
    let mask := le pl 2 2
    let hs := (List.range 16).filter fun h => decide (nbits mask h h = 1)
    if 11 < src ∨ (11 < tgt ∧ tgt ≠ 0xFF) ∨ tgt = src ∨ mask = 0 ∨ (hs.any fun h => !(s.part src).halls.getLsbD h) = true then
      respond s mb 0x0210 []
    else if (s.part src).state ≠ .quiesced ∨ (tgt ≠ 0xFF ∧ (s.part tgt).state ≠ .quiesced) then respond s mb 0x0316 []
    else if moveInUse s src hs then respond s mb 0x0319 []
    else
      let t := if tgt = 0xFF then none else some tgt
      let s0 := moveHalls s src t (BitVec.ofNat 12 mask) hs
      if regsOver s0 then respond s mb 0x0318 [] else
      let s1 := partChanged s0 src
      let s2 := if tgt = 0xFF then s1 else partChanged s1 tgt
      respond s2 mb 0 (pad8 (leBytes 2 (s2.part src).halls.toNat ++ leBytes 2 (if tgt = 0xFF then 0 else (s2.part tgt).halls.toNat)))

end Sys2Proof.Machine
end

