-- ==== Sys2Proof/Machine/Port.lean ====
section
/-! DEFINITION. The Ethernet port below Folest: the link, what the module drops, answers and sends on its own, and MACsec
key agreement (R378 to R386). -/

namespace Sys2Proof.Machine

/-! ## The link (R378, R381) -/

/-- Does the provisioned PORT_MODE allow a mode of *Table 14-1*? Mode 0 negotiates a KR8 or CR8 mode. -/
def modeAllowed (prov mode : Nat) : Bool :=
  if prov = 0 then decide (mode = 1 ∨ mode = 2 ∨ mode = 4 ∨ mode = 5) else decide (mode = prov)

/-- LINK_DOWN: the module stops sending and keeps every Folest state (R381). -/
def execLinkDown (s : State) : Host.Outcome State Fault Refusal := .next { s with port := { s.port with link := false } }

/-- LINK_UP: training ends in a mode that PORT_MODE allows, with ETHREF present (R378, R491); waiting frames go out. -/
def execLinkUp (mode : Nat) (s : State) : Host.Outcome State Fault Refusal :=
  if modeAllowed (provNum s.port.prov 0 1) mode = true ∧ s.power.ethref = true ∧ s.power.st ≠ .off ∧ s.power.st ≠ .boot then
    .next (pump { s with port := { s.port with link := true, mode := mode } })
  else .next s

/-! ## What the module drops (R380, R383 to R385) -/

/-- FOREIGN_FRAME: counted in FOREIGN_RX, never answered (R383). -/
def execForeignFrame (s : State) : Host.Outcome State Fault Refusal := .next (if s.port.link then portCount s 3 else s)

/-- RX_FRAME_DROPPED: a frame that fails MACsec counts in MACSEC_DROP, every other dropped frame in OTHER_RX. -/
def execRxFrameDropped (cause : DropCause) (s : State) : Host.Outcome State Fault Refusal :=
  if s.port.link = false then .next s else
  match cause with
  | .macsec => .next (portCount s 5)
  | .tooLong | .tagged | .badFcs | .other => .next (portCount s 4)

/-! ## What the module answers (R384) -/

/-- MODULE_IP in the form of an operand: 16 bytes, or 4 for IPv4. -/
def State.moduleIp (s : State) : Nat := if s.provFlag 0 then provNum s.port.prov 0x20 16 else provNum s.port.prov 0x20 4

/-- Frames other than MKA and PTP pass only once the module has become READY (R485). -/
def State.answersPort (s : State) : Bool := s.portOpen && (decide (s.power.st = .ready) || decide (s.power.st = .failed))

/-- A request for an address: answered for MODULE_IP to the partner alone; a foreign one counts in FOREIGN_RX, any other
in OTHER_RX. -/
def answerFor (s : State) (partner : Bool) (good : Bool) (o : Out) : State :=
  if s.answersPort = false then s
  else if partner = false then portCount s 3
  else if good then wire s o
  else portCount s 4

/-- ARP_REQUEST. -/
def execArpRequest (partner : Bool) (ip : BitVec 128) (s : State) : Host.Outcome State Fault Refusal :=
  .next (answerFor s partner (!s.provFlag 0 && decide (ip.toNat = s.moduleIp)) (.arpReply ip))

/-- ND_SOLICIT. -/
def execNdSolicit (partner : Bool) (ip : BitVec 128) (s : State) : Host.Outcome State Fault Refusal :=
  .next (answerFor s partner (s.provFlag 0 && decide (ip.toNat = s.moduleIp)) (.ndReply ip))

/-- Echo requests answered in the current second. -/
def State.echoesNow (s : State) : Nat := tget 0 s.port.echoes (s.clock / 1000000000)

/-- ICMP_ECHO: up to 1,000 answers in a second. -/
def execIcmpEcho (partner : Bool) (data : List (BitVec 8)) (s : State) : Host.Outcome State Fault Refusal :=
  if partner = true ∧ s.answersPort = true ∧ s.echoesNow < 1000 then
    .next (wire { s with port := { s.port with echoes := [(s.clock / 1000000000, s.echoesNow + 1)] } } (.echoReply data))
  else .next (answerFor s partner false (.echoReply data))

/-- LLDP_TIMER: with LLDP set, every 30 s, with the MAC address as chassis identifier. -/
def execLldpTimer (s : State) : Host.Outcome State Fault Refusal :=
  .next (if s.answersPort && s.provFlag 1 && decide (s.port.lastLldp + 30000000000 ≤ s.clock) then
    wire { s with port := { s.port with lastLldp := s.clock } } (.lldp s.mac) else s)

/-! ## MACsec key agreement (R385, R386) -/

/-- EAPOL_MKA: with a CAK provisioned the peer is live; a SAK that is installed starts the packet numbers again. The
module's answer asks for a new SAK once its packet number reaches 0xC000_0000_0000_0000. -/
def execEapolMka (sak : Bool) (s : State) : Host.Outcome State Fault Refusal :=
  if s.port.link = false ∨ s.flash.ckn = [] then .next s
  else
    let s1 := { s with port := { s.port with
      mkaLive := true, sak := s.port.sak || sak, txPn := if sak then 0 else s.port.txPn } }
    .next (pump (s1.emit (.mka (decide (0xC000_0000_0000_0000 ≤ s1.port.txPn)))))

/-- MKA_PEER_LOST: only EAPOL-MKA frames pass until a SAK is installed again (R386). -/
def execMkaPeerLost (s : State) : Host.Outcome State Fault Refusal :=
  .next { s with port := { s.port with mkaLive := false, sak := false } }

end Sys2Proof.Machine
end

