-- ==== Sys2Proof/Machine/Mesh.lean ====
section
/-! DEFINITION. The hall mesh: where the hall dies sit, what each die-to-die link joins, and the fixed route of a packet
(R17 to R20, *Table 18-4*). -/

namespace Sys2Proof.Machine

/-- The dies that die-to-die links join (*Tables 1-1 and 1-2*); a compute die reaches the mesh through its hall die. -/
inductive Die where
  | hall (h : Nat)
  | gate
  | cellar (n : Nat)
  | reeve
  deriving DecidableEq, Repr

def hallRow (h : Nat) : Nat := h / 4
def hallCol (h : Nat) : Nat := h % 4

/-- The two dies that a link joins (*Table 18-4*): 9 row edges, 8 column edges, then the edge dies. -/
def linkEnds : Nat → Option (Die × Die)
  | 17 => some (.gate, .hall 1)
  | 18 => some (.gate, .hall 2)
  | 19 => some (.cellar 0, .hall 4)
  | 20 => some (.cellar 1, .hall 7)
  | 21 => some (.reeve, .hall 10)
  | n => if n < 9 then some (.hall (4 * (n / 3) + n % 3), .hall (4 * (n / 3) + n % 3 + 1))
         else if n < 17 then some (.hall (n - 9), .hall (n - 5))
         else none

/-- The link that joins two dies. -/
def linkOf (a b : Die) : Option Nat :=
  lowest 22 fun n => decide (linkEnds n = some (a, b)) || decide (linkEnds n = some (b, a))

/-- The difference of two numbers. -/
def apart (a b : Nat) : Nat := (a - b) + (b - a)

/-- The hop count between two hall dies (R19). -/
def hops (a b : Nat) : Nat := apart (hallCol a) (hallCol b) + apart (hallRow a) (hallRow b)

/-- The hall dies an edge die attaches to (*Table 1-2*). -/
def attachments : Die → List Nat
  | .hall h => [h]
  | .gate => [1, 2]
  | .cellar 0 => [4]
  | .cellar _ => [7]
  | .reeve => [10]

/-- The hall die at which a packet between a die and hall die `h` passes the mesh boundary (R19): the nearest attached one,
for the gate die HD1 or HD2 by the column of `h` when both are equally near. -/
def boundary (d : Die) (h : Nat) : Nat :=
  match d with
  | .gate => if hops 1 h < hops 2 h then 1 else if hops 2 h < hops 1 h then 2 else if hallCol h ≤ 1 then 1 else 2
  | d => (attachments d).headD 0

/-- The next hall die of a packet: along its row to the destination column, then along that column (R19). -/
def nextHall (a b : Nat) : Nat :=
  if hallCol a < hallCol b then a + 1 else if hallCol b < hallCol a then a - 1
  else if hallRow a < hallRow b then a + 4 else if hallRow b < hallRow a then a - 4 else a

/-- The hall dies that a packet passes from one hall die to another, both included (R19). -/
def meshPath (a b : Nat) : List Nat :=
  ((List.range (hops a b)).foldl (fun (acc : List Nat × Nat) _ => (acc.1 ++ [nextHall acc.2 b], nextHall acc.2 b)) ([a], a)).1

/-- The dies that a packet passes from one die to another. A packet from an edge die enters the mesh at the attached hall
die nearest its destination (R19); where a packet to the gate die leaves it is settled the same way (log entry 137). -/
def packetPath (a b : Die) : List Die :=
  let inner := fun (x y : Nat) => (meshPath x y).map Die.hall
  match a, b with
  | .hall x, .hall y => inner x y
  | d, .hall y => d :: inner (boundary d y) y
  | .hall x, d => inner x (boundary d x) ++ [d]
  | d, d' =>
    let out := (attachments d').headD 0
    if d = d' then [d] else d :: inner (boundary d out) (boundary d' (boundary d out)) ++ [d']

/-- The links of a route, in order. -/
def route (a b : Die) : List Nat :=
  let ds := packetPath a b
  (ds.zip (ds.drop 1)).filterMap fun e => linkOf e.1 e.2

/-- Can a packet go from one die to another over trained links? -/
def State.routed (s : State) (a b : Die) : Bool := (route a b).all s.power.links.contains

end Sys2Proof.Machine
end

