-- ==== Sys2Proof/Machine/Ras.lean ====
section
/-! DEFINITION. Uncorrectable errors and their containment: core state, tallies, dead end points, the module's failure, and
the repair of commons (R443 to R451, R313, R426). -/

namespace Sys2Proof.Machine

/-! ## The module's failure (R445) -/

/-- Fields of the module's power state. -/
def State.setPower (s : State) (p : Power) : State := { s with power := p }

/-- MOD_ALERT_L is asserted and the I3C in-band interrupt raised (R458, R505). -/
def raiseAlert (s : State) : State := { s with reeve := { s.reeve with alert := true } }.emit .inBand

/-- The module fails: every partition goes DOWN, the event is recorded, MOD_ALERT_L is asserted. -/
def failModule (s : State) (status : W16) : State :=
  if s.power.st ≠ .ready then s else
  let s1 := (List.range 12).foldl (fun s p => takeDown s p status 0) s
  let s2 := event (s1.setPower { s1.power with st := .failed, failure := status }) 4 status 0x10 0xFF 0xFFFF
  let s3 := lifeUp (raiseAlert s2) 31 1
  rasNotice s3 15 status 0

/-- A step of bring-up fails: HELD with a status, the event, and MOD_ALERT_L (R484). -/
def hold (s : State) (status : W16) (unit die : BitVec 8) (index : W16) : State :=
  raiseAlert (event (s.setPower { s.power with st := .held, failure := status }) 4 status unit die index)

/-- MODULE_FAILED; during training the failure ends the bring-up (R484). -/
def execModuleFailed (status : BitVec 16) (s : State) : Host.Outcome State Fault Refusal :=
  .next (if s.power.st = .training then hold s status 0x10 0xFF 0xFFFF else failModule s status)

/-- RESET_OVERRUN: a PART_RESET that is under way does not end within its bound (R426). -/
def execResetOverrun (part : Nat) (s : State) : Host.Outcome State Fault Refusal :=
  let runs := fun (m : Mailbox) => m.waiting && decide (msgCmd m.msg = 0x5B) && decide (le (msgPayload m.msg) 0 1 = part)
  if s.mailboxes.any fun e => runs e.2 then .next (failModule s 0x0716) else .next s

/-! ## Core state and tallies (R443) -/

/-- CORE_STATE_LOST: the core is retired without migration, its groups end without park records, and the context of its
instances is lost with 0x0705 and the core's number. -/
def execCoreStateLost (core : Nat) (s : State) : Host.Outcome State Fault Refusal :=
  if s.coreEnabled core = false ∨ s.inService = false then .next s else
  let mine := s.groups.filter fun e => decide (e.1 / 48 = core)
  let onCore := s.insts.find? fun e => decide (e.2.core = some core)
  let owner := (onCore.bind fun e => tfind s.stations (e.1 / 4096)).map fun x => (x.ctx, onCore)
  let s1 := mine.foldl (fun s e => s.dropGroup (keyGrp e.1)) s
  let s2 := s1.modCore core fun k => { Core.reset with l1 := k.l1, mshr := k.mshr, seq := k.seq }
  let s3 := lifeUp (lifeUp (capChanged { s2 with retired := addOnce core s2.retired }) 26 1) 23 1
  let s4 := match owner, onCore with
    | some (c, _), some e => lose s3 c 0x0705 core (w32 (stationHandle (e.1 / 4096) (tget 0 s3.stationTags (e.1 / 4096)))) 0
    | _, _ => event s3 2 0x0705 0x01 (dieCD core) (BitVec.ofNat 16 core)
  .next (notify s4 (noticeOf s4 0x8010 0 0 0x0705 0 (w64 core)))

/-- TALLY_CORRUPT: the tally is as one whose owner died, and its entry stays out of the pool. -/
def execTallyCorrupt (tally : Nat) (s : State) : Host.Outcome State Fault Refusal :=
  if 12 * Config.talliesPerHall ≤ tally ∨ s.inService = false then .next s else
  let h := hallOfTally tally
  let s1 := abandon (s.setTally tally { s.tally tally with corrupt := true }) tally
  .next (event (lifeUp s1 24 1) 2 0x0709 0x08 (BitVec.ofNat 8 h) (BitVec.ofNat 16 (tally % Config.talliesPerHall)))

/-! ## Dead end points (R446 to R448) -/

/-- Does a physical address lie in an end point? -/
def State.inEndPoint (s : State) (e : EndPoint) (pa : Nat) : Bool :=
  match e, s.placeOf pa with
  | .hbmGroup g, .hbm n _ => decide (n = g)
  | .cellarDevice d k, .cellar _ die dev => decide (die = d ∧ dev = k)
  | .binBank h b, .bin n off => decide (n = h ∧ binBank off = b)
  | _, _ => false

/-- Does a range of frames have a byte in an end point? -/
def State.rangeMeets (s : State) (e : EndPoint) (base size : Nat) : Bool := (linesOf base size).any fun l => s.inEndPoint e (128 * l)

/-- UNIT, DIE and INDEX of an end point, and its partition. -/
def State.endPointName (s : State) : EndPoint → BitVec 8 × BitVec 8 × W16 × Nat
  | .hbmGroup g => (0x06, BitVec.ofNat 8 (hallOfGroup g), BitVec.ofNat 16 g, (s.hbmEntry g).part.toNat)
  | .cellarDevice d k => (0x07, dieCL d, BitVec.ofNat 16 k, 15)
  | .binBank h b => (0x04, BitVec.ofNat 8 h, BitVec.ofNat 16 b, (s.partOfHall h).getD 15)
  | .tallySlice h => (0x08, BitVec.ofNat 8 h, 0xFFFF, (s.partOfHall h).getD 15)

/-- The end point is sealed without a drain, and never allocated again (R447 steps 1 and 4). -/
def markDead (s : State) (e : EndPoint) : State :=
  match e with
  | .hbmGroup g => s.setSeal (.hbmGroup g) (some .dead)
  | .binBank h b => s.setSeal (.binBank h b) (some .dead)
  | _ => { s with deadEps := s.deadEps ++ [e] }

def State.isDead (s : State) (e : EndPoint) : Bool :=
  match e with
  | .hbmGroup g => decide (s.seal? (.hbmGroup g) = some .dead)
  | .binBank h b => decide (s.seal? (.binBank h b) = some .dead)
  | _ => s.deadEps.contains e

/-- A core ends its buffered stores and outstanding requests to the end point; each issuing group parks with 0x0410 and the
target's physical address (R447 step 2, R312). -/
def endRequests (s : State) (e : EndPoint) (c : Nat) : State :=
  let hits := (s.core c).sb.filter fun x => s.inEndPoint e (128 * x.line)
  let s1 := hits.foldl (fun s x => s.modGroup { core := c, slot := x.slot } fun k => beginPark k 6 0x0410 0 (w64 (entryAddr x))) s
  let s2 := s1.modCore c fun k => { k with
    sb := k.sb.filter fun x => !s.inEndPoint e (128 * x.line)
    nsa := k.nsa.filter fun r => !s.inEndPoint e r.pa.toNat }
  let slots := (s2.groups.filter fun x => decide (x.1 / 48 = c)).map (·.1)
  slots.foldl (fun s i => s.modGroup (keyGrp i) fun k =>
    let far := (k.reqs.filter fun r => s.inEndPoint e r.pa.toNat).map fun r => r.pa
    let late := k.loads.flatMap fun l => (l.addrs.filter fun a => s.inEndPoint e a.2.2.toNat).map fun a => a.2.2
    match far ++ late with
    | pa :: _ => beginPark { k with reqs := k.reqs.filter fun r => !s.inEndPoint e r.pa.toNat } 6 0x0410 0 (pa.setWidth 64)
    | [] => k) s2

/-- The contexts that map an end point other than through a commons, or that hold a tally of a dead slice (R313). -/
def State.usersOf (s : State) (e : EndPoint) : List Nat :=
  let byLeaf := (s.leaves.filter fun l => match l.obj.bind (tfind s.objs) with
    | some o => !o.commons && s.rangeMeets e (frameAt o.pages l.page) o.page
    | none => false).map (·.ctx)
  let holders := fun (t : Nat × Tally) => t.2.owner.toList ++ t.2.imports
  let byTally : List Nat := match e with
    | .tallySlice h => (s.tallies.filter fun t => decide (hallOfTally t.1 = h) && t.2.alloc).flatMap holders
    | _ => []
  (s.contexts.map (·.1)).filter fun c => byLeaf.contains c || byTally.contains c

/-- The blocks of commons in a dead HBM group need repair into new frames (R447). -/
def repairDead (s : State) (e : EndPoint) : State :=
  let hit := s.objs.flatMap fun x => if x.2.commons then
      ((List.range x.2.pages.length).filter fun i => s.inEndPoint e (frameAt x.2.pages i)).map fun i => (x.1, i)
    else []
  { s with repairs := hit.foldl (fun l r => addOnce r l) s.repairs }

/-- A dead tally slice has lost its state: its tallies, its watches and the bells in it are gone (R333). -/
def loseSlice (s : State) (e : EndPoint) : State :=
  match e with
  | .tallySlice h => { s with
      tallies := tmap (fun n t => if hallOfTally n = h then Tally.reset else t) s.tallies
      watches := tmap (fun n w => if hallOfWatch n = h then Watch.reset else w) s.watches
      bells := s.bells.filter fun w => decide (hallOfWatch w ≠ h) }
  | _ => s

/-- ENDPOINT_DEAD. -/
def execEndpointDead (e : EndPoint) (s : State) : Host.Outcome State Fault Refusal :=
  if s.isDead e ∨ s.inService = false then .next s else
  let n := s.endPointName e
  let s1 := markDead s e
  let s2 := (s1.cores.map (·.1)).foldl (fun s c => endRequests s e c) s1
  let s3 := (s2.usersOf e).foldl (fun s c => loseCtx s c 0x0714 0) (loseSlice s2 e)
  let s4 := capIfChanged s (repairDead s3 e)
  let s5 := logEvent s4 { mkEvent s4 2 0x0714 n.1 n.2.1 n.2.2.1 with part := BitVec.ofNat 4 n.2.2.2 }
  .next (rasNotice s5 n.2.2.2 0x0714 0)

/-! ## Repair of commons (R449 to R451) -/

/-- The working block gets the reference block's bytes; every L1 copy of it is invalidated, and its poison is gone. -/
def rewriteBlock (s : State) (o : Obj) (i pa : Nat) : State :=
  (linesOf pa 65536).foldl recallLine (s.write pa (s.read none (frameAt o.refPages i) 65536))

/-- The block moves to a new frame: every leaf that maps it names the frame, and no translation of the old one stays. -/
def relocateBlock (s : State) (n : Nat) (o : Obj) (i pa : Nat) : State :=
  let ls := (s.maps n).filter fun l => decide (l.page = i)
  let frame := fun (e : W64) => (e &&& 0xFFFF_0000_0000_FFFF) ||| w64 (pa / 65536 * 65536)
  let s1 := ls.foldl (fun s l => reLeaf s l frame) (freeExtent s (frameAt o.pages i))
  let gone := fun (t : TlbEntry) => ls.any fun l => decide (l.ctx = t.asid) && overlaps t.level t.vpn l.va (l.va + 65536)
  { s1 with
    tlb := s1.tlb.filter fun t => !gone t
    objs := tput s1.objs n { o with pages := setNth o.pages i (BitVec.ofNat 48 pa) } }

/-- A repair fails: the commons is FAILED, the contexts waiting on the block are lost, and the partner is told (R451). The
step that failed is the event's DETAIL. -/
def failRepair (s : State) (n i step : Nat) (o : Obj) : State :=
  let s1 := { s with objs := tput s.objs n { o with failed := true }, repairs := s.repairs.erase (n, i) }
  let waits := fun (p : Parked) => decide (p.reason = 4) && (s.maps n).any fun l =>
    decide (l.ctx = p.grp.ctx ∧ l.page = i ∧ p.addr.toNat / 65536 = l.va / 65536)
  let s2 := (s.parked.filter waits).foldl (fun s p => lose s p.grp.ctx 0x0703 p.core (w32 p.station) (p.addr.setWidth 64)) s1
  let s3 := logEvent s2 { mkEvent s2 2 0x0703 0x0D 0x41 0xFFFF with phys := BitVec.ofNat 48 (frameAt o.pages i), detail := w64 step }
  notify s3 (noticeOf s3 0x8013 0 0 0x0703 (w32 (objHandle n o.tag)) (w64 (65536 * i)))

/-- The Reeve repairs up to 8 blocks at once, in the order in which they were notified (R450). -/
def State.repairRuns (s : State) (n i : Nat) : Bool := (s.repairs.take 8).contains (n, i)

/-- COMMONS_REPAIRED: the end of the repair of a block that is REPAIRING; its outcome follows from the reference block, its
digest and the frames at hand. -/
def execCommonsRepaired (obj block : Nat) (s : State) : Host.Outcome State Fault Refusal :=
  match tfind s.objs obj with
  | none => .next s
  | some o =>
    if s.repairRuns obj block = false ∨ o.commons = false then .next s
    else if o.badRef.contains block = true ∨ s.blockMatches o block (frameAt o.refPages block) = false then
      .next (resumeFolest (failRepair s obj block 2 o))
    else
      let s0 := { s with repairs := s.repairs.erase (obj, block) }
      let finish := fun (s : State) (pa : Nat) => resumeFolest (logEvent s { mkEvent s 5 0x0708 0x0D 0x41 0xFFFF with
        phys := BitVec.ofNat 48 pa, detail := w64 block })
      let old := frameAt o.pages block
      if s.homeStatus old = 0 then
        .next (finish (rewriteBlock s0 o block old) old)
      else match takeFirst s0 4 65536 65536 none ((s.groupsOfMode 12 4).filter s.hbmUsable) with
        | none => .next (resumeFolest (failRepair s obj block 3 o))
        | some (s1, pa, _) => .next (finish (rewriteBlock (relocateBlock s1 obj o block pa) o block pa) pa)

end Sys2Proof.Machine
end

