-- ==== Sys2Proof/Machine/Reeve.lean ====
section
/-! DEFINITION. The Reeve's loops: sensors, clocks, run-ahead caps, placement, gating, its restart, and the counters and
histograms it keeps (R457, R462 to R474, R500, R511). -/

namespace Sys2Proof.Machine

/-- The Reeve's firmware runs (R477, R482). -/
def State.reeveRuns (s : State) : Bool := s.power.slot.isSome && decide (s.power.st ≠ .off)

/-! ## REEVE_POLICY (*Table 17-5*) -/

def clkMin (v : W64) : Nat := bits v 57 52
def clkMax (v : W64) : Nat := bits v 51 46
def raCapMax (v : W64) : Nat := bits v 43 32
def raCapMin (v : W64) : Nat := bits v 31 20
def raLock (v : W64) : Bool := bit v 19
def placeEnable (v : W64) : Bool := bit v 18
def gateEnable (v : W64) : Bool := bit v 17
def powerWeight (v : W64) : Nat := bits v 15 8

/-! ## Sensors (R457, R511; numbers in the order of *Table 17-2*, log entry 18) -/

/-- Number of sensors: temperatures, then voltage and current of 96 rails and of 2 blades. -/
def sensorCount : Nat := 1348

/-- The cold plate's inlet and outlet sensors (log entry 45). -/
def inletSensor : Nat := 1150
def outletSensor : Nat := 1151

def State.sensor (s : State) (n : Nat) : Int := tget 0 s.reeve.sensors n

/-- The two conditions of R511: the inlet above 35 °C; the rise above 1.5 °C per kW of input power. -/
def State.coolantBad (s : State) (k : Nat) : Bool :=
  if k = 0 then decide (35000 < s.sensor inletSensor)
  else decide ((1500 : Int) * (s.reeve.powerWatts : Int) < 1000 * (s.sensor outletSensor - s.sensor inletSensor))

/-- A condition that has held for 1 s is recorded once, with MOD_ALERT_L. Entry `k` holds since when, plus 1; entry `k + 2`
that it has been recorded. -/
def coolantCheck (s : State) (k : Nat) : State :=
  let put := fun (t : Table Nat) => { s with reeve := { s.reeve with coolant := t } }
  if s.coolantBad k = false then put (tdel (tdel s.reeve.coolant k) (k + 2))
  else match tfind s.reeve.coolant k with
    | none => put (tput s.reeve.coolant k (s.clock + 1))
    | some t =>
      if t + 999999999 < s.clock + 1 ∧ (tfind s.reeve.coolant (k + 2)).isNone then
        raiseAlert (event (put (tput s.reeve.coolant (k + 2) 1)) 5 0x081B 0x10 0xFF 0xFFFF)
      else s

/-- SENSOR_SAMPLE. -/
def execSensorSample (sensor : Nat) (value : Int) (s : State) : Host.Outcome State Fault Refusal :=
  if s.reeveRuns = false ∨ sensorCount ≤ sensor then .next s
  else
    let s1 := { s with reeve := { s.reeve with sensors := tset 0 s.reeve.sensors sensor value } }
    .next (if sensor = inletSensor ∨ sensor = outletSensor then coolantCheck (coolantCheck s1 0) 1 else s1)

/-! ## Clocks (R463 to R465) -/

def State.island (s : State) (i : Nat) : Island := tget Island.reset s.reeve.islands i
def hallOfIsland (i : Nat) : Nat := i / 44
def State.islandPolicy (s : State) (i : Nat) : Option W64 := (s.partOfHall (hallOfIsland i)).map fun p => (s.part p).reeve

/-- An island's ceiling and floor: CLK_MAX and CLK_MIN, or 0.8 GHz in no partition. -/
def State.ceiling (s : State) (i : Nat) : Nat := ((s.islandPolicy i).map clkMax).getD 16
def State.floor (s : State) (i : Nat) : Nat := ((s.islandPolicy i).map clkMin).getD 16

/-- Change islands; the cycles of a clock step are counted when the step ends (R107). -/
def setIslands (s : State) (f : Nat → Island → Island) : State :=
  let one := fun (t : Table Island) i =>
    let old := s.island i
    let new := f i old
    tset Island.reset t i (if new.clock = old.clock then new
      else { new with cycles := old.cycles + (s.power.up - old.since) * old.clock / 20, since := s.power.up })
  { s with reeve := { s.reeve with islands := (List.range 528).foldl one s.reeve.islands } }

/-- The partitions in increasing POWER_WEIGHT, the lowest number first among equal weights. -/
def State.powerOrder (s : State) : List Nat :=
  sortBy (fun a b => decide (powerWeight (s.part a).reeve ≤ powerWeight (s.part b).reeve))
    ((List.range 12).filter fun p => decide ((s.part p).state ≠ .unconfigured))

/-- The stages of R464's reduction: whose islands, and whether below CLK_MIN. -/
def State.stages (s : State) : List (Option Nat × Bool) :=
  [(none, false)] ++ s.powerOrder.map (fun p => (some p, false)) ++ [(none, true)] ++ s.powerOrder.map (fun p => (some p, true))

/-- The islands of a stage. -/
def State.stageIslands (s : State) (g : Option Nat × Bool) : List Nat :=
  (List.range 528).filter fun i => decide (s.partOfHall (hallOfIsland i) = g.1)

/-- How far a stage lowers an island, and how far it raises it in the reverse order. -/
def State.stageFloor (s : State) (g : Option Nat × Bool) (i : Nat) : Nat := if g.2 then 16 else s.floor i
def State.stageCeiling (s : State) (g : Option Nat × Bool) (i : Nat) : Nat := if g.2 then s.floor i else s.ceiling i

/-- Is an island below its CLK_MIN by the power loop? -/
def State.belowFloor (s : State) (i : Nat) : Bool := decide ((s.island i).power < s.floor i)

/-- One step down in the first stage that can give one (R464). -/
def lowerClocks (s : State) : State :=
  let can := fun g => (s.stageIslands g).any fun i => decide (s.stageFloor g i < (s.island i).power)
  match s.stages.find? can with
  | none => if s.reeve.unmet then s else event { s with reeve := { s.reeve with unmet := true } } 5 0x0812 0x0D 0x41 0xFFFF
  | some g =>
    let first := g.2 && !((List.range 528).any s.belowFloor)
    let mine := s.stageIslands g
    let s1 := setIslands s fun i x => if mine.contains i ∧ s.stageFloor g i < x.power then { x with power := x.power - 1 } else x
    if first then event s1 5 0x0811 0x0D 0x41 0xFFFF else s1

/-- One step up in the last stage that can take one; none when every island is at its ceiling. -/
def raiseClocks (s : State) : Option State :=
  let can := fun g => (s.stageIslands g).any fun i => decide ((s.island i).power < s.stageCeiling g i)
  (s.stages.reverse.find? can).map fun g =>
    let mine := s.stageIslands g
    setIslands s fun i x => if mine.contains i ∧ x.power < s.stageCeiling g i then { x with power := x.power + 1 } else x

/-- Every island runs at its ceiling (R463, R490). -/
def settleClocks (s : State) : State := setIslands s fun i x => { x with power := s.ceiling i }

/-- The cap in force, in units of 100 W: 4.0 kW on one blade (R464, R500). -/
def State.capNow (s : State) : Nat := if s.power.lostBlade.isSome then 40 else s.flash.cap

/-- POWER_CAP_INTERVAL: `watts` is the 1 ms average of input power. -/
def execPowerCapInterval (watts : Nat) (s : State) : Host.Outcome State Fault Refusal :=
  if s.reeveRuns = false ∨ s.power.st ≠ .ready then .next s else
  let s1 := { s with reeve := { s.reeve with powerWatts := watts } }
  let s2 := setIslands s1 fun i x => { x with power := min x.power (s.ceiling i) }
  if 100 * s.capNow < watts then .next (lowerClocks { s2 with reeve := { s2.reeve with capped := true, underFor := 0 } })
  else
    let s3 := { s2 with reeve := { s2.reeve with unmet := false } }
    if s.reeve.capped = false then .next (settleClocks s3)
    else if watts ≤ 98 * s.capNow then
      let n := s.reeve.underFor + 1
      let s4 := { s3 with reeve := { s3.reeve with underFor := n } }
      if n < 100 then .next s4
      else match raiseClocks s4 with
        | some s5 => .next s5
        | none => .next { s4 with reeve := { s4.reeve with capped := false } }
    else .next { s3 with reeve := { s3.reeve with underFor := 0 } }

/-- THERMAL_THROTTLE: one step down at 100 °C and above; up again after 10 ms below 97 °C. The first throttle of an island in
each second is recorded. -/
def execThermalThrottle (s : State) : Host.Outcome State Fault Refusal :=
  if s.reeveRuns = false then .next s else
  let now := s.clock / 1000000000
  let hot := fun i => decide (100000 ≤ s.sensor i)
  let firsts := (List.range 528).filter fun i => hot i && decide ((s.island i).throttledAt ≠ some now)
  let s1 := setIslands s fun i x =>
    if hot i then { x with heat := max 16 (x.clock - 1), coolFor := 0, throttledAt := some now }
    else if s.sensor i < 97000 then
      let up := x.heat + 1
      if 99 ≤ x.coolFor then { x with heat := if s.ceiling i ≤ up then 42 else up, coolFor := x.coolFor + 1 }
      else { x with coolFor := x.coolFor + 1 }
    else { x with coolFor := 0 }
  let die := fun (i : Nat) => BitVec.ofNat 8 (0x10 + i / 11)
  .next (firsts.foldl (fun s i => lifeUp (event s 5 0x0813 0x01 (die i) (BitVec.ofNat 16 (8 * i))) 27 1) s1)

/-- TEMP of an island in units of 0.1 °C. -/
def tempField (t : Int) : Nat := min 4095 (t / 100).toNat

/-- REASON of *Table 17-6*. -/
def State.clockReason (s : State) (i : Nat) : Nat :=
  let x := s.island i
  if s.belowFloor i then 3 else if x.heat < x.power then 2 else if x.power < s.ceiling i then 1 else 0

/-- An island's state word (*Table 17-6*). -/
def State.islandWord (s : State) (i : Nat) : W64 :=
  let x := s.island i
  w64 (fld x.clock 63 58 + fld (s.clockReason i) 57 56 + fld x.raCap 55 44 + fld (tempField (s.sensor i)) 43 32 +
    fld ((s.partOfHall (hallOfIsland i)).getD 15) 31 28)

/-! ## Run-ahead, placement and gating (R467 to R469) -/

/-- An island's cap after an interval with so many prefetches, of which so many were useful. -/
def nextRaCap (v : W64) (cap fetched useful : Nat) : Nat :=
  if raLock v then raCapMax v
  else clamp (raCapMin v) (raCapMax v)
    (if fetched = 0 then cap else if 100 * useful < 25 * fetched then cap / 2
     else if 60 * fetched < 100 * useful then 2 * cap else cap)

/-- A core counter of an island since module reset, summed over the island's 8 cores. -/
def State.islandCount (s : State) (i num : Nat) : Nat :=
  ((List.range 8).map fun k =>
    let c := tget Counter.reset s.counters (counterKey 0 (8 * i + k) num)
    c.wraps * 2 ^ 48 + c.value).foldl (· + ·) 0

/-- RUN_AHEAD_POLICY: RA_USEFUL over RA_PREFETCHES since the last interval (R467). -/
def execRunAheadPolicy (s : State) : Host.Outcome State Fault Refusal :=
  if s.reeveRuns = false then .next s else
  .next (setIslands s fun i x =>
    let f := s.islandCount i 5
    let u := s.islandCount i 6
    let y := { x with fetched := f, useful := u }
    match s.islandPolicy i with
    | some v => { y with raCap := nextRaCap v x.raCap (f - x.fetched) (u - x.useful) }
    | none => y)

/-- Is an island throttled by the thermal loop? -/
def State.throttled (s : State) (i : Nat) : Bool := let x := s.island i; decide (x.heat < x.power) && decide (x.coolFor = 0)

/-- PLACEMENT_PROPOSAL: from a throttled island to a core of the partition whose island runs at CLK_MAX; the placer carries
it out under R433 or drops it. -/
def execPlacementProposal (station inst core : Nat) (s : State) : Host.Outcome State Fault Refusal :=
  match (s.inst? (station / 65536) inst).bind (·.core) with
  | none => .next s
  | some c =>
    let i := islandOfCore core
    let ok := match s.partOfHall (hallOfCore c) with
      | some p => placeEnable (s.part p).reeve && decide (s.partOfHall (hallOfCore core) = some p)
      | none => false
    if s.reeveRuns && ok && s.throttled (islandOfCore c) && decide ((s.island i).clock = s.ceiling i) && s.coreEnabled c &&
        s.coreEnabled core then .next (migrate true station inst core s)
    else .next s

/-- The hall die of a gating unit. -/
def hallOfUnit : GateUnit → Nat
  | .binBank h _ => h
  | .cacheWay h _ => h
  | .poolWay h => h
  | .hbmGroup g => hallOfGroup g

/-- A unit is idle: no context maps it, or the partition of a cache way is QUIESCED or has no resident context. Pool ways are
not among the units of R469. -/
def State.unitIdle (s : State) (p : Nat) (u : GateUnit) : Bool :=
  s.mayGate u && match u with
    | .cacheWay _ _ => decide ((s.part p).state = .quiesced) || !(s.contexts.any fun e => decide (e.2.part = p) && e.2.resident)
    | .poolWay _ => false
    | _ => true

/-- How long a unit is idle before it is gated: cache ways 100 ms, the others 1 s (R469). -/
def idleTime : GateUnit → Nat
  | .cacheWay _ _ => 100000000
  | _ => 1000000000

/-- A unit is seen idle: it closes once its time is over (R469). -/
def seeIdle (s : State) (u : GateUnit) : State :=
  match (s.idle.find? fun e => decide (e.1 = u)).map (·.2) with
  | none => { s with idle := (u, s.clock) :: s.idle }
  | some t => if t + idleTime u ≤ s.clock then sealUnit s u else s

/-- GATING_INTERVAL: with GATE_ENABLE set, a unit that has been idle for its time begins to close; with it clear, the unit
returns to service (R469). -/
def execGatingInterval (u : GateUnit) (s : State) : Host.Outcome State Fault Refusal :=
  match s.partOfHall (hallOfUnit u) with
  | none => .next s
  | some p =>
    if s.reeveRuns = false ∨ u.wf = false then .next s
    else if gateEnable (s.part p).reeve then .next (if s.unitIdle p u then seeIdle s u else s.stirUnit u)
    else if s.seal? u = some .gated then .next (ungateUnit s u)
    else if s.seal? u = some .closed then .next (s.setSeal u none)
    else .next s

/-! ## Counters and histograms (R473, R474) -/

/-- The working copies reach flash. -/
def flushLife (s : State) : State := { s with flash := { s.flash with life := s.reeve.life, hist := s.reeve.hist } }

/-- LIFETIME_FLUSH. -/
def execLifetimeFlush (s : State) : Host.Outcome State Fault Refusal := .next (if s.reeveRuns then flushLife s else s)

/-- The key of a histogram's bin. -/
def histKey (hist inst bin : Nat) : Nat := (hist * 1024 + inst) * 32 + bin

/-- One more second in a bin, which sticks at its maximum. -/
def histAdd (t : Table Nat) (k : Nat) : Table Nat := tput t k (min (tget 0 t k + 1) (2 ^ 64 - 1))

/-- The bin of a temperature in m°C. -/
def tempBin (t : Int) : Nat := if t < 40000 then 0 else min 31 (1 + (t.toNat - 40000) / 2000)

/-- HISTOGRAM_TICK: every histogram, one second of POWER_ON_SECONDS, and the energy of that second. -/
def execHistogramTick (s : State) : Host.Outcome State Fault Refusal :=
  if s.reeveRuns = false then .next s else
  let h1 := (List.range 528).foldl (fun t i => histAdd t (histKey 0 i (tempBin (s.sensor i)))) s.reeve.hist
  let h2 := (List.range 24).foldl (fun t k => histAdd t (histKey 1 k (tempBin (s.stackTemp k)))) h1
  let h3 := histAdd h2 (histKey 2 0 (min 31 (s.reeve.powerWatts / 300)))
  let h4 := (List.range 528).foldl (fun t i => histAdd t (histKey 3 i ((s.island i).clock - 16))) h3
  let rateBin := fun k => match (tget Refresh.reset s.refresh k).rate with
    | 1 => 0
    | 2 => 1
    | _ => 2
  let h5 := (List.range 24).foldl (fun t k => histAdd t (histKey 4 k (rateBin k))) h4
  let j := s.reeve.joules + s.reeve.powerWatts
  let s1 := { s with reeve := { s.reeve with hist := h5, joules := j % 1000 } }
  .next (lifeUp (lifeUp s1 0 1) 2 (j / 1000))

/-! ## The Reeve's restart (R471, R494) -/

/-- Has an event record reached flash: 10 ms at level context and above, 1 s else (R475)? -/
def settledEvent (s : State) (r : EventRec) : Bool :=
  decide (r.time + (if r.level = 2 ∨ r.level = 3 ∨ r.level = 4 then 10000000 else 1000000000) ≤ s.time)

/-- The latest records may not be in flash yet; how many are lost is a free value (log entry 1), and the next record says
that records were lost (R471, R495). -/
def loseEvents (s : State) : State :=
  let young := (s.flash.events.reverse.takeWhile fun r => !settledEvent s r).length
  let (s1, v) := s.freeVal
  let n := v % (young + 1)
  let last := s1.flash.events.drop (s1.flash.events.length - n)
  if n = 0 then s1
  else { s1 with
    flash := { s1.flash with
      events := s1.flash.events.take (s1.flash.events.length - n)
      severe := s1.flash.severe.filter fun r => !(last.any fun q => decide (q.seq = r.seq)) }
    reeve := { s1.reeve with eventsLost := true } }

/-- The Reeve's counters come from flash again; EVENT_SEQ never names a record twice. -/
def reloadLife (s : State) : State :=
  let top := s.flash.events.foldl (fun n r => max n (r.seq + 1)) (tget Life.reset s.flash.life 3).value
  let was := (tget Life.reset s.reeve.life 3).value
  { s with reeve := { s.reeve with
    life := tset Life.reset s.flash.life 3 { value := max top was, stuck := false }, hist := s.flash.hist } }

/-- A Reeve restart: every island at 0.8 GHz, MOD_ALERT_L, and the record 0x0818; contexts keep running. -/
def restartReeve (s : State) : State :=
  let s1 := reloadLife (loseEvents s)
  let s2 := setIslands s1 fun _ x => { x with power := 16 }
  let s3 := { s2 with reeve := { s2.reeve with
    capped := false, underFor := 0, unmet := false, fwOpen := false, verified := none, coolant := [] } }
  event (raiseAlert s3) 5 0x0818 0x0D 0x41 0xFFFF

end Sys2Proof.Machine
end

