-- ==== Sys2Proof/Machine/Power.lean ====
section
/-! DEFINITION. Power, bring-up, module resets, references, the thermal trip and JTAG (R471, R477, R481 to R495, R498 to R512). -/

namespace Sys2Proof.Machine

/-! ## Firmware slots (R476, R477) -/

/-- The bytes of a slot that are not erased. -/
def State.slotCells (s : State) (b : Bool) : List Host.Cell := if b then s.flash.slotB else s.flash.slotA
def State.setSlot (s : State) (b : Bool) (cs : List Host.Cell) : State :=
  { s with flash := if b then { s.flash with slotB := cs } else { s.flash with slotA := cs } }

/-- Bytes of a slot; an erased byte of the NOR flash reads 0xFF (log entry 46). -/
def State.slotBytes (s : State) (b : Bool) (off n : Nat) : List Byte := (List.range n).map fun i => tget 0xFF (s.slotCells b) (off + i)
def State.slotSvn (s : State) (b : Bool) : Nat := le (s.slotBytes b 4 4) 0 4

/-- The image of a slot: format, key index, flags, body length and digest; `sig` says that its key is genuine and not
revoked, and that its signature is correct. -/
def State.imageGood (s : State) (b sig : Bool) : Bool :=
  let h := s.slotBytes b 0 0x38
  let n := le h 0x10 8
  sig && decide (le h 0 4 = 1) && decide (le h 8 4 < 4) && decide (le h 0x0C 4 < 2) && decide (n ≤ 2 ^ 25 - 4096) &&
  decide (sha256 (s.slotBytes b 4096 n) = Machine.slice h 0x18 32)

/-- FW_VERIFY's answer for a slot, and the boot ROM's test of it: 0, SIGNATURE or ROLLBACK. -/
def State.slotStatus (s : State) (b sig : Bool) : W16 :=
  if s.imageGood b sig = false then 0x0807 else if s.slotSvn b < s.flash.minSvn then 0x0809 else 0

/-! ## Module resets (*Tables 18-5, 18-6*) -/

/-- A cold or warm module reset: what *Table 18-6* lists as kept is kept. -/
def moduleReset (s : State) (warm : Bool) : State :=
  let f := flushLife s
  let r := s.reeve
  let p := s.power
  { State.reset with
    pending := s.pending, out := s.out, spare := s.spare, orderC := s.orderC, serial := s.serial, mac := s.mac, disabled := s.disabled
    time := if warm then s.time else 0, timeMilli := if warm then s.timeMilli else 0
    flash := f.flash
    port := { Port.reset with prov := s.flash.prov }
    reeve := { Reeve.reset with
      life := r.life, hist := r.hist, sensors := r.sensors, eventsLost := r.eventsLost }
    power := { Power.reset with
      pwrEn := p.pwrEn, resetLow := p.resetLow, inputOk := p.inputOk, lostBlade := p.lostBlade, rails := min 1 p.rails, refclk := p.refclk,
      ethref := p.ethref, trip := p.trip, jtag := p.jtag, jtagUnlocked := p.jtagUnlocked, links := if warm then p.links else [] } }

/-- Power comes up: rail group 1 starts (R482, R498). -/
def startUp (s : State) : State :=
  let s1 := moduleReset s false
  lifeUp (s1.setPower { s1.power with rails := 0, refclk := true }) 1 1

/-- No rail is left. -/
def railsOff (s : State) : State :=
  let s1 := moduleReset s false
  { s1 with reeve := { s1.reeve with sensors := [] }, power := { s1.power with st := .off, rails := 0, jtag := .idcode } }

/-- May power come up: MOD_PWR_EN high, input in range, no rail up, and no trip latched (R498, R512)? -/
def State.mayStart (s : State) : Bool := s.power.pwrEn && s.power.inputOk && decide (s.power.st = .off) && !s.power.trip

/-- MOD_PWR_EN_RISE. -/
def execModPwrEnRise (s : State) : Host.Outcome State Fault Refusal :=
  let s1 := s.setPower { s.power with pwrEn := true }
  .next (if s1.mayStart then startUp s1 else s1)

/-- MOD_PWR_EN_FALL (R495): counters, histograms and events reach flash, then the rails go; a trip ends (R512). -/
def execModPwrEnFall (s : State) : Host.Outcome State Fault Refusal :=
  let s1 := if s.power.st = .off then s else railsOff s
  .next (s1.setPower { s1.power with pwrEn := false, trip := false })

/-- INPUT_POWER_APPLIED (R498). -/
def execInputPowerApplied (s : State) : Host.Outcome State Fault Refusal :=
  let s1 := s.setPower { s.power with inputOk := true }
  .next (if s1.mayStart then startUp s1 else s1)

/-- INPUT_FAULT (R499): every rail goes without the sequence of R495, and counts since the last flush are lost. -/
def execInputFault (s : State) : Host.Outcome State Fault Refusal :=
  let s1 := if s.power.st = .off then s else railsOff (reloadLife (loseEvents s))
  .next (s1.setPower { s1.power with inputOk := false })

/-- INPUT_RECOVERED (R499). -/
def execInputRecovered (s : State) : Host.Outcome State Fault Refusal :=
  let s1 := s.setPower { s.power with inputOk := true, lostBlade := none }
  .next (if s1.mayStart then startUp s1 else s1)

/-- MOD_RESET_ASSERT (R505): group 1 stays with the boot ROM waiting. A trip is not cleared (R512). -/
def execModResetAssert (s : State) : Host.Outcome State Fault Refusal :=
  let s1 := s.setPower { s.power with resetLow := true }
  .next (if s.power.st = .off ∨ s.power.trip = true then s1 else moduleReset s1 false)

/-- MOD_RESET_RELEASE (R492). -/
def execModResetRelease (s : State) : Host.Outcome State Fault Refusal :=
  let s1 := s.setPower { s.power with resetLow := false }
  .next (if s.power.resetLow = false ∨ s.power.st = .off ∨ s.power.trip = true then s1 else moduleReset s1 false)

/-- REEVE_RESTART (R471, R494): while the module is not READY it acts as a cold reset. -/
def reeveReset (s : State) : State :=
  if s.power.st = .ready then restartReeve s else if s.power.st = .off ∨ s.power.trip = true then s else moduleReset s false

def execReeveRestart (s : State) : Host.Outcome State Fault Refusal := .next (if s.reeveRuns then reeveReset s else s)

/-! ## Bring-up (*Table 18-3*) -/

/-- Fallback to the other slot: recorded, and the trial mark cleared (R477 step 6). -/
def fallBack (s : State) : State :=
  let s1 := lifeUp (event s 5 0x0816 0x0D 0x41 0xFFFF) 30 1
  { s1 with flash := { s1.flash with trial := none }, reeve := { s1.reeve with fallback := true } }

/-- Boot from a slot: the image is measured, and TRAINING begins unless a sensor reads above 95 °C (R480, R482, R512). -/
def bootSlot (s : State) (b : Bool) : State :=
  let s1 := measure (s.setPower { s.power with slot := some b, st := .training }) 1 0xFFFF 0 (sha256N (s.slotBytes b 0 4096))
  if (List.range 1152).any fun i => decide (95000 < s.sensor i) then hold s1 0x0814 0x0D 0x41 0xFFFF else s1

/-- BOOT_VERIFY: the trial slot, else the active one, else the other. -/
def execBootVerify (sigA sigB : Bool) (s : State) : Host.Outcome State Fault Refusal :=
  if s.power.st ≠ .boot ∨ s.power.rails = 0 ∨ s.power.resetLow = true ∨ s.power.refclk = false then .next s else
  let good := fun (b : Bool) => decide (s.slotStatus b (if b then sigB else sigA) = 0)
  let first := s.flash.trial.getD s.flash.activeB
  if good first then .next (bootSlot s first)
  else if good (!first) then .next (bootSlot (fallBack s) (!first))
  else .next (hold s 0x080A 0x0D 0x41 0xFFFF)

/-- RAIL_GROUP_UP: groups come up in order; groups 2 to 4 follow a verified slot (R481, R482). -/
def execRailGroupUp (group : Nat) (s : State) : Host.Outcome State Fault Refusal :=
  let p := s.power
  if group = p.rails + 1 ∧ group ≤ 4 ∧ ((group = 1 ∧ p.st = .boot) ∨ (1 < group ∧ p.st = .training)) then .next (s.setPower { p with rails := group })
  else .next s

/-- RAIL_FAULT (R481, R484). -/
def execRailFault (rail : Nat) (s : State) : Host.Outcome State Fault Refusal :=
  if s.power.st = .boot ∨ s.power.st = .training then .next (hold s 0x0819 0x10 0xFF (BitVec.ofNat 16 rail)) else .next s

/-- LINK_TRAIN (R486): link 21 first, since the Reeve reaches every other die through it; the fourth failed attempt of a link ends the bring-up. -/
def execLinkTrain (link : Nat) (ok : Bool) (s : State) : Host.Outcome State Fault Refusal :=
  let p := s.power
  if p.st ≠ .training ∨ p.rails ≠ 4 ∨ 22 ≤ link ∨ p.links.contains link = true ∨ p.retrying.contains link = true ∨
      (link ≠ 21 ∧ s.routed .reeve (.hall 10) = false) then .next s
  else if ok then .next (s.setPower { p with links := p.links ++ [link] })
  else
    let n := tget 0 p.attempts link + 1
    let p1 := { p with attempts := tput p.attempts link n }
    if n < 4 then .next (s.setPower { p1 with retrying := addOnce link p.retrying })
    else .next (hold (s.setPower { p1 with linkMask := p.linkMask ||| w32 (2 ^ link) }) 0x0706 0x09 0xFF (BitVec.ofNat 16 link))

/-- LINK_RETRY: 50 ms later the link may be trained again. -/
def execLinkRetry (link : Nat) (s : State) : Host.Outcome State Fault Refusal :=
  .next (s.setPower { s.power with retrying := s.power.retrying.erase link })

def State.linksUp (s : State) : Bool := decide (s.power.st = .training) && decide (s.power.rails = 4) && (List.range 22).all s.power.links.contains

/-- MEMORY_TRAINING_DONE (R487): the excluded HBM groups, and the cellar devices (16 × die + device) whose dies lose every
group; each exclusion is recorded. Memory then holds zeros. -/
def execMemoryTrainingDone (badGroups badDies : List Nat) (s : State) : Host.Outcome State Fault Refusal :=
  if s.linksUp = false ∨ s.power.memReady = true then .next s else
  let gs := badGroups.filter fun g => decide (g < 96)
  let ds := badDies.filter fun d => decide (d < 32)
  let s1 := { s with
    excluded := gs.foldl (fun l g => addOnce g l) [], excludedDies := ds.foldl (fun l d => addOnce (d / 16) l) [], mem := [], poison := []
    power := { s.power with memReady := true } }
  let s2 := gs.foldl (fun s g => event s 2 0x0714 0x06 (BitVec.ofNat 8 (hallOfGroup g)) (BitVec.ofNat 16 g)) s1
  .next (ds.foldl (fun s d => event s 2 0x0714 0x07 (dieCL (d / 16)) (BitVec.ofNat 16 (d % 16))) s2)

/-- CORE_TEST_DONE (R488). -/
def execCoreTestDone (bad : List Nat) (s : State) : Host.Outcome State Fault Refusal :=
  if s.linksUp = false ∨ s.power.coresTested = true then .next s else
  let cs := (bad.filter fun c => decide (c < Config.cores) && !s.disabled.contains c).foldl (fun l c => addOnce c l) []
  let s1 := { s with failedCores := cs, retired := [], power := { s.power with coresTested := true } }
  .next (cs.foldl (fun s c => event (lifeUp s 26 1) 2 0x0705 0x01 (dieCD c) (BitVec.ofNat 16 c)) s1)

/-- One stored partition record: applied as PART_CONFIG would, with its policies, or left out with notice 0x8015. -/
def restorePart (s : State) (p : Nat) (x : Partition) : State :=
  let st := configStatus s p { x with state := .unconfigured }
  if x.state = .unconfigured then s
  else if st ≠ 0 then notify s (noticeOf s 0x8015 p 0 st 0 0)
  else
    let s1 := configure s p { x with quiesceMb := none }
    let s2 := s1.setPart p { s1.part p with tier := x.tier, fence := x.fence, reeve := x.reeve }
    let rs := s.flash.regs.filter fun e => decide (e.1 % 16 = p)
    let s3 := { s2 with regs := rs.foldl (fun t e => tset Regulator.reset t e.1 e.2) s2.regs }
    measureRecord s3 3 p 0 (partRecord s3 p)

/-- The trial slot that has booted becomes the active one; RAISE_SVN raises the minimum (R477 step 5). -/
def commitTrial (s : State) : State :=
  match s.flash.trial with
  | some b =>
    if s.power.slot ≠ some b then s else
    let raise := decide (le (s.slotBytes b 0x0C 4) 0 4 % 2 = 1)
    lifeUp { s with flash := { s.flash with
      activeB := b, trial := none, minSvn := if raise then max s.flash.minSvn (s.slotSvn b) else s.flash.minSvn } } 29 1
  | none => s

/-- PARTITION_RESTORE: the last step; the module is READY (R489, R490). -/
def execPartitionRestore (s : State) : Host.Outcome State Fault Refusal :=
  if s.linksUp = false ∨ s.power.memReady = false ∨ s.power.coresTested = false then .next s else
  let s1 := s.flash.parts.foldl (fun s e => restorePart s e.1 e.2) s
  .next (settleClocks (commitTrial (s1.setPower { s1.power with st := .ready })))

/-- BOOT_TRIAL_TIMEOUT (R477 step 6): a cold reset, and the other slot boots. -/
def execBootTrialTimeout (s : State) : Host.Outcome State Fault Refusal :=
  if s.flash.trial.isNone ∨ s.power.slot ≠ s.flash.trial ∨ s.power.st = .ready ∨ s.power.st = .off ∨ s.power.trip = true then .next s
  else .next (fallBack (moduleReset s false))

/-! ## References (R491) -/

/-- REFCLK_LOST. -/
def execRefclkLost (s : State) : Host.Outcome State Fault Refusal :=
  let s1 := s.setPower { s.power with refclk := false }
  match s.power.st with
  | .off | .held | .failed | .resetting => .next s1
  | .boot => .next (raiseAlert (s1.setPower { s1.power with failure := 0x070B }))
  | .training => .next (hold s1 0x070B 0x10 0xFF 0xFFFF)
  | .ready => .next (failModule s1 0x070B)

/-- ETHREF_LOST: the link goes down. -/
def execEthrefLost (s : State) : Host.Outcome State Fault Refusal :=
  .next { s with port := { s.port with link := false }, power := { s.power with ethref := false } }

/-- ETHREF_RETURN: the port retrains. -/
def execEthrefReturn (s : State) : Host.Outcome State Fault Refusal := .next (s.setPower { s.power with ethref := true })

/-! ## Blades and the thermal trip (R500, R512) -/

/-- BLADE_LOST: every island at 0.8 GHz, the effective cap at 4.0 kW, event 0x081A and MOD_ALERT_L. -/
def execBladeLost (blade : Nat) (s : State) : Host.Outcome State Fault Refusal :=
  if s.power.st = .off ∨ s.power.lostBlade.isSome = true ∨ 2 ≤ blade then .next s else
  let s1 := setIslands (s.setPower { s.power with lostBlade := some blade }) fun _ x => { x with power := 16 }
  let s2 := { s1 with reeve := { s1.reeve with capped := true, underFor := 0 } }
  .next (raiseAlert (event s2 5 0x081A 0x10 0xFF (BitVec.ofNat 16 blade)))

/-- BLADE_RETURN: the stored cap applies again; the event has DETAIL 1. -/
def execBladeReturn (blade : Nat) (s : State) : Host.Outcome State Fault Refusal :=
  if s.power.lostBlade ≠ some blade then .next s else
  let s1 := s.setPower { s.power with lostBlade := none }
  .next (logEvent s1 { mkEvent s1 5 0x081A 0x10 0xFF (BitVec.ofNat 16 blade) with detail := 1 })

/-- THERMAL_TRIP: rail groups 2 to 4 go, the module is FAILED with 0x0814, and every content is lost. -/
def execThermalTrip (sensor : Nat) (s : State) : Host.Outcome State Fault Refusal :=
  if s.power.st = .off ∨ s.power.trip = true then .next s else
  let s1 := moduleReset s true
  let s2 := s1.setPower { s1.power with st := .failed, failure := 0x0814, trip := true, slot := s.power.slot, links := [], up := s.power.up }
  .next (lifeUp (raiseAlert (event s2 4 0x0814 0x10 0xFF (BitVec.ofNat 16 sensor))) 28 1)

/-! ## JTAG (R509) -/

/-- An instruction enters the TAP of a powered module. -/
def jtagRun (s : State) (i : JtagInstr) (data : List Byte) : State :=
  if s.power.st = .off then s else (s.setPower { s.power with jtag := i }).emit (.jtag i data)

/-- JTAG_BYPASS. -/
def execJtagBypass (s : State) : Host.Outcome State Fault Refusal := .next (jtagRun s .bypass [])

/-- JTAG_IDCODE: 0x1640_0A4D. -/
def execJtagIdcode (s : State) : Host.Outcome State Fault Refusal := .next (jtagRun s .idcode (leBytes 4 0x1640_0A4D))

/-- JTAG_SAMPLE_PRELOAD: the levels of the 96 pins at that moment are a free value (log entry 1). -/
def execJtagSamplePreload (s : State) : Host.Outcome State Fault Refusal :=
  let (s1, v) := s.freeVal
  .next (jtagRun s1 .sample (leBytes 12 v))

/-- JTAG_EXTEST: drives the connector's pins while MOD_RESET_L is low, and acts as BYPASS else. -/
def execJtagExtest (pins : BitVec 96) (s : State) : Host.Outcome State Fault Refusal :=
  .next (if s.power.resetLow then jtagRun s .extest (vecBytes pins) else jtagRun s .bypass [])

/-- JTAG_TRST: the TAP is reset, which selects IDCODE (IEEE 1149.1). -/
def execJtagTrst (s : State) : Host.Outcome State Fault Refusal := .next (s.setPower { s.power with jtag := .idcode })

end Sys2Proof.Machine
end

