-- ==== Sys2Proof/Machine/Ptp.lean ====
section
/-! DEFINITION. Device time: the Precision Time Protocol, holdover, PPS, and the advance of device time (R387 to R390,
R506). -/

namespace Sys2Proof.Machine

/-- Device time advances by 1 ns, or by 0.999 ns while it runs slow (R389). -/
def tick (s : State) : State :=
  let up := { s.power with up := s.power.up + 1 }
  if s.power.st = .off then s
  else if s.port.slow = 0 then { s with time := s.time + 1, power := up }
  else
    let t := s.timeMilli + 999
    { s with time := s.time + t / 1000, timeMilli := t % 1000, power := up, port := { s.port with slow := s.port.slow - 1 } }

/-- A forward step of device time, which is logged and ends a slow run (R389, R453). -/
def stepTime (s : State) (m : Nat) : State :=
  event { s with time := m, port := { s.port with slow := 0 } } 5 0 0x0E 0x40 0xFFFF

/-- A correction of device time toward `m`: forward by a step beyond 1 ms and by frequency adjustment below it, backward by
running 1,000 ppm slow until the offset is gone (R389, log entry 40). -/
def correctTime (s : State) (m : Nat) : State :=
  if s.time + 1000000 < m then stepTime s m
  else if s.time ≤ m then { s with time := m, port := { s.port with slow := 0 } }
  else { s with port := { s.port with slow := 1000 * (s.time - m) } }

/-- How far device time is from `m`. -/
def offsetOf (s : State) (m : Nat) : Nat := (s.time - m) + (m - s.time)

/-- A Sync or Follow_Up that names PTP time: the first lock steps device time once; later ones correct it, and the lock
returns once the offset is below 1 µs (R389, R390). With PPS_REF set PTP supplies whole seconds alone. -/
def ptpTime (s0 : State) (master : Nat) : State :=
  if s0.portOpen = false then s0 else
  let s := { s0 with port := { s0.port with lastSync := s0.clock } }
  let m0 := ((master : Int) + s.port.delay).toNat
  let k := (m0 + 500000000 - s.time % 1000000000) / 1000000000
  let m := if s.provFlag 4 && s.port.everLocked then k * 1000000000 + s.time % 1000000000 else m0
  if s.port.everLocked then
    let s1 := correctTime s m
    { s1 with port := { s1.port with locked := s1.port.locked || decide (offsetOf s1 m < 1000) } }
  else
    let s1 := if s.time < m then stepTime s m else correctTime s m
    { s1 with port := { s1.port with locked := true, everLocked := true } }

/-- PTP_SYNC. -/
def execPtpSync (master : Nat) (s : State) : Host.Outcome State Fault Refusal := .next (ptpTime s master)

/-- PTP_FOLLOW_UP. -/
def execPtpFollowUp (master : Nat) (s : State) : Host.Outcome State Fault Refusal := .next (ptpTime s master)

/-- PTP_DELAY_RESP: the mean path delay in force for later corrections. -/
def execPtpDelayResp (delay : Int) (s : State) : Host.Outcome State Fault Refusal :=
  .next (if s.portOpen then { s with port := { s.port with delay := delay } } else s)

/-- PTP_ANNOUNCE: the partner's Announce interval in nanoseconds, three of which are the receipt timeout (R390). -/
def execPtpAnnounce (interval : Nat) (s : State) : Host.Outcome State Fault Refusal :=
  .next (if s.portOpen then { s with port := { s.port with announce := interval } } else s)

/-- PTP_HOLDOVER (R390): with no Sync accepted for three Announce intervals the lock is lost, and information event 0x081C
recorded. -/
def execPtpHoldover (s : State) : Host.Outcome State Fault Refusal :=
  if s.port.locked = false ∨ s.clock < s.port.lastSync + 3 * s.port.announce then .next s
  else .next (event { s with port := { s.port with locked := false } } 5 0x081C 0x0E 0x40 0xFFFF)

/-- DELAY_REQ_TIMER (R387). -/
def execDelayReqTimer (s : State) : Host.Outcome State Fault Refusal :=
  .next (if s.portOpen then wire s (.delayReq (w64 s.now)) else s)

/-- PPS_IN_EDGE (R389, R506): with PPS_REF set the edge marks the nearest whole second. -/
def execPpsInEdge (s : State) : Host.Outcome State Fault Refusal :=
  if s.provFlag 4 = false ∨ s.power.st = .off then .next s
  else .next (correctTime s ((s.time + 500000000) / 1000000000 * 1000000000))

/-- PPS_OUT_PULSE (R389, R506): at a whole second of device time. -/
def execPpsOutPulse (s : State) : Host.Outcome State Fault Refusal :=
  if s.time % 1000000000 = 0 ∧ s.power.st ≠ .off then .next (s.emit (.pps (w64 s.now))) else .next s

end Sys2Proof.Machine
end

