-- ==== Sys2Proof/Machine/Retry.lean ====
section
/-! DEFINITION. Arrivals that end the home's own transactions or a victim's write: a frame of the port that waited for a line
goes on (R240, R320 to R323). -/

namespace Sys2Proof.Machine

/-- After the arrival the Folest engine tries again a frame that waits. -/
def resumed (r : Host.Outcome State Fault Refusal) : Host.Outcome State Fault Refusal :=
  match r with
  | .next s => .next (resumeFolest s)
  | x => x

/-- DATA_HOME. -/
def execDatahome (core line : Nat) (s : State) : Host.Outcome State Fault Refusal := resumed (dataHomeArrives core line s)

/-- DATA_IN_FLIGHT. -/
def execDatainflight (core line : Nat) (s : State) : Host.Outcome State Fault Refusal := resumed (dataInFlightArrives core line s)

/-- DONE. -/
def execDoneMsg (core line : Nat) (s : State) : Host.Outcome State Fault Refusal := resumed (doneArrives core line s)

/-- INV_ACK. -/
def execInvack (core line : Nat) (s : State) : Host.Outcome State Fault Refusal := resumed (invAckArrives core line s)

/-- VICTIM_WRITE_ACCEPTED. -/
def execVictimWriteAccepted (hall line : Nat) (s : State) : Host.Outcome State Fault Refusal := resumed (victimAccepted hall line s)

end Sys2Proof.Machine
end

