-- ==== Sys2Proof/Machine/Scalar.lean ====
section
/-! DEFINITION. Class S: scalar arithmetic, logic, shifts, minimum and maximum, copies and predicate masks, and the
control registers (R53, R86, R105, R107, *Table 4-12* opcodes 0x01 to 0x05 and 0x3D). -/

namespace Sys2Proof.Machine

/-- What issue needs of a scalar instruction: operand kinds, TYPE 0x0 and no rounding fields (R85, R102). -/
def scalarIss (s : State) (g : Grp) (f : RI) (as bs ds : List Kind) : Iss :=
  let o := Ops3.of f
  let n := s.vregsOf g
  { ext := o.ext, gp := o.gp, gn := o.gn, cls := .alu, access := false, alone := false, reads := o.reads 1,
    writes := regsOf o.dst 1
    bad := illegalUnless (o.aOk n as && o.bOk n bs && decide (o.c = opZero) && accepts n false ds o.dst &&
      decide (o.mod = 0) && immOk f) }

/-- Write a scalar or predicate destination (R84, R86). -/
def Group.putD (k : Group) (dst : BitVec 9) (act : W32) (v : W64) : Group :=
  if 0x140 ≤ dst.toNat ∧ dst.toNat < 0x148 then k.putP dst act (v.setWidth 32) else k.putS dst v

/-- A scalar operation of two sources. -/
def scalarBin (op : W64 → W64 → W64) (g : Grp) (f : RI) (s : State) : Host.Outcome State Fault Refusal :=
  let o := Ops3.of f
  issue (scalarIss s g f [.s, .x, .z] [.s, .x, .z] [.s, .z]) g
    (fun s k _ => .done (s.setGroup g (k.putS o.dst (op (k.opS o.ext o.a) (o.bS k))))) s

/-- A scalar operation of one source; SRC_B is unused (opcode 0x04). -/
def scalarUn (op : W64 → W64) (as ds : List Kind) (g : Grp) (f : RI) (s : State) : Host.Outcome State Fault Refusal :=
  let o := Ops3.of f
  issue (scalarIss s g f as [.z] ds) g
    (fun s k act => .done (s.setGroup g (k.putD o.dst act (op (k.opS o.ext o.a))))) s

/-- Division under R105: by zero all ones or −1, the remainder the dividend; rounding toward zero. -/
def divU {n : Nat} (a b : BitVec n) : BitVec n := if b = 0 then BitVec.allOnes n else a / b
def divS {n : Nat} (a b : BitVec n) : BitVec n := if b = 0 then BitVec.allOnes n else a.sdiv b
def remU {n : Nat} (a b : BitVec n) : BitVec n := if b = 0 then a else a % b
def remS {n : Nat} (a b : BitVec n) : BitVec n := if b = 0 then a else a.srem b

/-- The high half of a product. -/
def mulHiU {n : Nat} (a b : BitVec n) : BitVec n := BitVec.ofNat n (a.toNat * b.toNat / 2 ^ n)
def mulHiS {n : Nat} (a b : BitVec n) : BitVec n := BitVec.ofInt n (a.toInt * b.toInt / 2 ^ n)

/-- Minimum and maximum, signed and unsigned. -/
def minS {n : Nat} (a b : BitVec n) : BitVec n := if a.slt b then a else b
def maxS {n : Nat} (a b : BitVec n) : BitVec n := if a.slt b then b else a
def minU {n : Nat} (a b : BitVec n) : BitVec n := if a.ult b then a else b
def maxU {n : Nat} (a b : BitVec n) : BitVec n := if a.ult b then b else a

def flagWord (b : Bool) : W64 := if b then 1 else 0

/-- SADD (R108). -/
def execSadd (g : Grp) (f : RI) (s : State) : Host.Outcome State Fault Refusal :=
  scalarBin (fun a b => a + b) g f s

/-- SSUB. -/
def execSsub (g : Grp) (f : RI) (s : State) : Host.Outcome State Fault Refusal :=
  scalarBin (fun a b => a - b) g f s

/-- SMUL: the low 64 bits. -/
def execSmul (g : Grp) (f : RI) (s : State) : Host.Outcome State Fault Refusal :=
  scalarBin (fun a b => a * b) g f s

/-- SMULHU. -/
def execSmulhu (g : Grp) (f : RI) (s : State) : Host.Outcome State Fault Refusal :=
  scalarBin (fun a b => mulHiU a b) g f s

/-- SMULHS. -/
def execSmulhs (g : Grp) (f : RI) (s : State) : Host.Outcome State Fault Refusal :=
  scalarBin (fun a b => mulHiS a b) g f s

/-- SDIVU (R105). -/
def execSdivu (g : Grp) (f : RI) (s : State) : Host.Outcome State Fault Refusal :=
  scalarBin (fun a b => divU a b) g f s

/-- SDIVS (R105). -/
def execSdivs (g : Grp) (f : RI) (s : State) : Host.Outcome State Fault Refusal :=
  scalarBin (fun a b => divS a b) g f s

/-- SREMU (R105). -/
def execSremu (g : Grp) (f : RI) (s : State) : Host.Outcome State Fault Refusal :=
  scalarBin (fun a b => remU a b) g f s

/-- SREMS (R105). -/
def execSrems (g : Grp) (f : RI) (s : State) : Host.Outcome State Fault Refusal :=
  scalarBin (fun a b => remS a b) g f s

/-- SAND. -/
def execSand (g : Grp) (f : RI) (s : State) : Host.Outcome State Fault Refusal :=
  scalarBin (fun a b => a &&& b) g f s

/-- SOR; with ZERO everywhere it is NOP. -/
def execSor (g : Grp) (f : RI) (s : State) : Host.Outcome State Fault Refusal :=
  scalarBin (fun a b => a ||| b) g f s

/-- SXOR. -/
def execSxor (g : Grp) (f : RI) (s : State) : Host.Outcome State Fault Refusal :=
  scalarBin (fun a b => a ^^^ b) g f s

/-- SANDN: AND with the complement of SRC_B. -/
def execSandn (g : Grp) (f : RI) (s : State) : Host.Outcome State Fault Refusal :=
  scalarBin (fun a b => a &&& ~~~b) g f s

/-- SSHL: the count modulo 64 (R105). -/
def execSshl (g : Grp) (f : RI) (s : State) : Host.Outcome State Fault Refusal :=
  scalarBin (fun a b => a <<< (b.toNat % 64)) g f s

/-- SSHR (R105). -/
def execSshr (g : Grp) (f : RI) (s : State) : Host.Outcome State Fault Refusal :=
  scalarBin (fun a b => a >>> (b.toNat % 64)) g f s

/-- SSAR (R105). -/
def execSsar (g : Grp) (f : RI) (s : State) : Host.Outcome State Fault Refusal :=
  scalarBin (fun a b => a.sshiftRight (b.toNat % 64)) g f s

/-- SROR. -/
def execSror (g : Grp) (f : RI) (s : State) : Host.Outcome State Fault Refusal :=
  scalarBin (fun a b => a.rotateRight (b.toNat % 64)) g f s

/-- SMIN. -/
def execSmin (g : Grp) (f : RI) (s : State) : Host.Outcome State Fault Refusal :=
  scalarBin (fun a b => minS a b) g f s

/-- SMAX. -/
def execSmax (g : Grp) (f : RI) (s : State) : Host.Outcome State Fault Refusal :=
  scalarBin (fun a b => maxS a b) g f s

/-- SMINU. -/
def execSminu (g : Grp) (f : RI) (s : State) : Host.Outcome State Fault Refusal :=
  scalarBin (fun a b => minU a b) g f s

/-- SMAXU. -/
def execSmaxu (g : Grp) (f : RI) (s : State) : Host.Outcome State Fault Refusal :=
  scalarBin (fun a b => maxU a b) g f s

/-- SSLT writes 1 or 0. -/
def execSslt (g : Grp) (f : RI) (s : State) : Host.Outcome State Fault Refusal :=
  scalarBin (fun a b => flagWord (a.slt b)) g f s

/-- SSLTU. -/
def execSsltu (g : Grp) (f : RI) (s : State) : Host.Outcome State Fault Refusal :=
  scalarBin (fun a b => flagWord (a.ult b)) g f s

/-- SSEQ. -/
def execSseq (g : Grp) (f : RI) (s : State) : Host.Outcome State Fault Refusal :=
  scalarBin (fun a b => flagWord (decide (a = b))) g f s

/-- SMOV. -/
def execSmov (g : Grp) (f : RI) (s : State) : Host.Outcome State Fault Refusal :=
  scalarUn (fun a => a) [.s, .p, .x, .z] [.s, .p, .z] g f s

/-- SPOPC. -/
def execSpopc (g : Grp) (f : RI) (s : State) : Host.Outcome State Fault Refusal :=
  scalarUn (fun a => w64 (popCount a)) [.s, .p, .x, .z] [.s, .p, .z] g f s

/-- SCLZ: 64 for zero. -/
def execSclz (g : Grp) (f : RI) (s : State) : Host.Outcome State Fault Refusal :=
  scalarUn (fun a => w64 (clz a)) [.s, .p, .x, .z] [.s, .p, .z] g f s

/-- SCTZ: 64 for zero. -/
def execSctz (g : Grp) (f : RI) (s : State) : Host.Outcome State Fault Refusal :=
  scalarUn (fun a => w64 (ctz a)) [.s, .p, .x, .z] [.s, .p, .z] g f s

/-- SPGET reads a predicate mask, zero-extended; its fields accept the kinds of its row. -/
def execSpget (g : Grp) (f : RI) (s : State) : Host.Outcome State Fault Refusal :=
  scalarUn (fun a => a) [.s, .p, .x, .z] [.s, .p, .z] g f s

/-- SPSET writes SRC_A[31:0] to all 32 bits of its predicate (R86). -/
def execSpset (g : Grp) (f : RI) (s : State) : Host.Outcome State Fault Refusal :=
  let o := Ops3.of f
  issue (scalarIss s g f [.s, .p, .x, .z] [.z] [.p]) g
    (fun s k _ => .done (s.setGroup g (k.setPred (o.dst.toNat - 0x140) ((k.opS o.ext o.a).setWidth 32)))) s

/-! ## Control registers (R107, *Table 4-15*) -/

/-- The word of CR_GROUP_ID (*Table 4-16*). -/
def groupId (g : Grp) (k : Group) : W64 := w64 (fld g.core 47 32 + fld k.inst 31 16 + fld k.index 7 0)

/-- The value of a control register; none where the number is not in *Table 4-15*. -/
def readCr (s : State) (g : Grp) (k : Group) (n : Nat) : Option W64 :=
  match n with
  | 0x000 => some (k.live.setWidth 64)
  | 0x001 => some (w64 k.barWdog)
  | 0x002 => some (k.runAheadMax.setWidth 64)
  | 0x004 => some (groupId g k)
  | 0x005 => some (w64 k.gen)
  | 0x006 => some (w64 k.station)
  | 0x008 => some (w64 s.now)
  | 0x009 => some (w64 (islandCycles s g.core))
  | 0x00A => some (flagWord k.debug)
  | _ => none

def crListed (n : Nat) : Bool := n ≤ 2 || n == 4 || n == 5 || n == 6 || n == 8 || n == 9 || n == 10

/-- The register number of SRDCR: IMM18, or the extension word in its place (R88). -/
def crNumber (f : IWord) : Nat :=
  match f.ext with
  | some x => x.toNat
  | none => f.imm.toNat

/-- SRDCR (R107). -/
def execSrdcr (g : Grp) (f : IWord) (s : State) : Host.Outcome State Fault Refusal :=
  let n := s.vregsOf g
  issue { ext := f.ext, gp := f.gp, gn := f.gn, cls := .alu, access := false, alone := false,
          reads := [0x140 + f.gp.toNat], writes := regsOf f.dst 1
          bad := illegalUnless (decide (f.a = opZero) && accepts n false [.s] f.dst && decide (f.mod = 0) &&
            immOk (.i f) && crListed (crNumber f)) } g
    (fun s k _ => .done (s.setGroup g (k.putS f.dst ((readCr s g k (crNumber f)).getD 0)))) s

/-- What WRCR leaves in a group: CR_BAR_WDOG stores 12 below 12 and 32 above 32 (*Table 3-5*), CR_RUNAHEAD stores MAX;
none where a reserved bit is set. -/
def writeCr (k : Group) (n : Nat) (v : W64) : Option Group :=
  match n with
  | 0x001 => if 64 ≤ v.toNat then none else some { k with barWdog := clamp 12 32 v.toNat }
  | 0x002 => if 4096 ≤ v.toNat then none else some { k with runAheadMax := v.setWidth 12 }
  | _ => none

/-- WRCR, class Y: IMM18 is always the register number, and XIMM may be the value (R88, R107). -/
def execWrcr (g : Grp) (f : IWord) (s : State) : Host.Outcome State Fault Refusal :=
  let n := s.vregsOf g
  issue { ext := f.ext, gp := f.gp, gn := f.gn, cls := .ender, access := false, alone := false,
          reads := regsOf f.a 1 ++ [0x140 + f.gp.toNat], writes := []
          bad := illegalUnless (accepts n f.ext.isSome [.s, .x] f.a && decide (f.dst = opZero) && decide (f.mod = 0) &&
            (f.imm == 1 || f.imm == 2)) } g
    (fun s k _ => match writeCr k f.imm.toNat (k.opS f.ext f.a) with
      | some k' => .done (s.setGroup g k')
      | none => .fault 0x0504 k.pc.toNat 0) s

end Sys2Proof.Machine
end

