-- ==== Sys2Proof/Machine/Sideband.lean ====
section
/-! DEFINITION. The sideband: the Lemsawyn commands of *Table 17-3*, MCTP control and PLDM (R458 to R461, R472 to R480). The
fields of a request and of a response follow one another without padding in the order of the table (log entry 42). -/

namespace Sys2Proof.Machine

/-! ## Requests and responses (R460) -/

/-- The response to a request, with its message tag. -/
def reply (m : SbMsg) (s : State) (code : Nat) (st : W16) (payload : List Byte) : State :=
  s.emit (.sideband m.tag (BitVec.ofNat 16 code) st payload)

/-- Who answers: the Reeve's firmware every command; the boot ROM IDENTIFY, STATE_READ and, with REFCLK100 present, the
firmware commands (R477, R491). -/
def State.answers (s : State) (code : Nat) : Bool :=
  decide (s.power.st ≠ .off) &&
  (s.power.slot.isSome || decide (code ≤ 2) || (decide (0x40 ≤ code ∧ code ≤ 0x44) && s.power.refclk))

/-- A request: LENGTH, then the reserved fields, then the command's own checks in `body`, which answers (R460). -/
def sideband (code : Nat) (m : SbMsg) (fits : List Byte → Bool) (s : State) (body : State → List Byte → State) :
    Host.Outcome State Fault Refusal :=
  if s.answers code = false then .next s
  else if m.length.toNat ≠ m.payload.length ∨ 4080 < m.payload.length ∨ fits m.payload = false then .next (reply m s code 0x0802 [])
  else if m.status ≠ 0 ∨ m.rsvd ≠ 0 then .next (reply m s code 0x0803 [])
  else .next (body s m.payload)

/-- A payload of exactly `n` bytes. -/
def exactly (n : Nat) (p : List Byte) : Bool := decide (p.length = n)

/-! ## The module -/

/-- IDENTIFY. The layout of its response is the model's (log entry 43). -/
def execIdentify (m : SbMsg) (s : State) : Host.Outcome State Fault Refusal :=
  sideband 0x01 m (exactly 0) s fun s _ =>
    let b := s.power.slot.getD s.flash.activeB
    reply m s 0x01 0 (vecBytes s.serial ++ vecBytes s.mac ++ [BitVec.ofNat 8 (orderCode s), 0xB0, if b then 1 else 0] ++
      leBytes 4 (s.slotSvn b) ++ leBytes 4 Config.iana ++ [if 2 ^ 30 ≤ (tget Life.reset s.reeve.life 5).value then 1 else 0])

/-- The code of *Table 18-2*. -/
def modStateCode : ModState → Nat
  | .off => 0
  | .boot => 1
  | .training => 2
  | .ready => 3
  | .held => 4
  | .failed => 5
  | .resetting => 6

/-- STATE_READ (R483, R505): it clears a pending alert. -/
def execStateRead (m : SbMsg) (s : State) : Host.Outcome State Fault Refusal :=
  sideband 0x02 m (exactly 0) s fun s _ =>
    let s1 := { s with reeve := { s.reeve with alert := false } }
    reply m s1 0x02 0 (leBytes 1 (modStateCode s.power.st) ++ zeros 1 ++ vecBytes s.power.failure ++ vecBytes s.power.linkMask ++
      (List.range 12).map (fun p => BitVec.ofNat 8 (partStateCode (s.part p).state)) ++ leBytes 4 (s.power.up / 1000000))

/-- MOD_ALERT_L is low (R505). -/
def State.alertLow (s : State) : Bool := s.reeve.alert || decide (s.power.st = .held) || decide (s.power.st = .failed)

/-- MODULE_RESET (R492, R494): the answer, then the reset. A trip is not cleared (R512). -/
def execModuleReset (m : SbMsg) (s : State) : Host.Outcome State Fault Refusal :=
  sideband 0x03 m (exactly 1) s fun s p =>
    let level := le p 0 1
    if 2 < level then reply m s 0x03 0x0803 []
    else
      let s1 := reply m s 0x03 0 []
      if s.power.trip then s1 else if level = 2 then reeveReset s1 else moduleReset s1 (decide (level = 1))

/-- SENSOR_READ. -/
def execSensorRead (m : SbMsg) (s : State) : Host.Outcome State Fault Refusal :=
  sideband 0x10 m (exactly 4) s fun s p =>
    let a := le p 0 2
    let n := le p 2 2
    if n = 0 ∨ 1020 < n ∨ sensorCount < a + n then reply m s 0x10 0x0803 []
    else reply m s 0x10 0 ((List.range n).flatMap fun i => vecBytes (BitVec.ofInt 32 (s.sensor (a + i))))

/-- POWER_CAP: a cap out of 4.0 to 9.6 kW is out of range (R460, R464, log entry 44). -/
def execPowerCap (m : SbMsg) (s : State) : Host.Outcome State Fault Refusal :=
  sideband 0x11 m (fun p => exactly 3 p || (exactly 1 p && decide (le p 0 1 = 0))) s fun s p =>
    let rw := le p 0 1
    let c := le p 1 2
    if 1 < rw ∨ (rw = 1 ∧ (c < 40 ∨ 96 < c)) then reply m s 0x11 0x0803 []
    else if rw = 0 then reply m s 0x11 0 (leBytes 2 s.flash.cap)
    else
      let s1 := measureRecord { s with flash := { s.flash with cap := c } } 5 0xFFFF 0x11 (leBytes 2 c)
      reply m s1 0x11 0 (leBytes 2 c)

/-! ## Policies (R461, R470) -/

/-- POLICY. A read may leave out the value. -/
def execPolicy (m : SbMsg) (s : State) : Host.Outcome State Fault Refusal :=
  sideband 0x12 m (fun p => exactly 12 p || (exactly 4 p && decide (le p 2 1 = 0))) s fun s p =>
    let q := le p 0 1
    let rec_ := le p 1 1
    let rw := le p 2 1
    let res := le p 3 1
    if 11 < q ∨ 3 < rec_ ∨ 1 < rw ∨ 25 < res ∨ (rec_ ≠ 2 ∧ res ≠ 0) then reply m s 0x12 0x0803 []
    else if (s.part q).state = .unconfigured then reply m s 0x12 0x0805 []
    else
      let r := policyAccess s q rec_ rw res (w64 (le p 4 8)) 0x0803
      if r.2.1 ≠ 0 then reply m s 0x12 r.2.1 [] else reply m r.1 0x12 0 (vecBytes r.2.2.1 ++ vecBytes r.2.2.2)

/-- POLICY_STATE. -/
def execPolicyState (m : SbMsg) (s : State) : Host.Outcome State Fault Refusal :=
  sideband 0x13 m (exactly 4) s fun s p =>
    let a := le p 0 2
    let n := le p 2 2
    if n = 0 ∨ 510 < n ∨ 528 < a + n then reply m s 0x13 0x0803 []
    else reply m s 0x13 0 ((List.range n).flatMap fun i => vecBytes (s.islandWord (a + i)))

/-! ## Counters (R472 to R474) -/

/-- Does a unit have a counter (*Table 17-9*)? -/
def counterExists (kind unit num : Nat) : Bool :=
  match kind with
  | 0 => decide (unit < Config.cores) && decide (num ≤ 16)
  | 1 => decide (unit < 12) && decide (num ≤ 7)
  | 2 => decide (unit = 0) && (decide (num ≤ 7) || decide (0x101 ≤ num ∧ num ≤ 0x114))
  | 3 => decide (unit < 12) && decide (num ≤ 3)
  | _ => false

/-- Core counters that the model counts; the others depend on timing it does not have, and read as free values (log
entry 1). -/
def counted (kind num : Nat) : Bool := decide (kind ≠ 0) || decide (num ∈ [4, 5, 6, 7, 11, 12, 14, 16])

/-- A counter's word (*Table 17-8*). -/
def counterWord (c : Counter) : W64 := w64 ((if c.ovf then 2 ^ 63 else 0) + fld c.wraps 62 48 + fld c.value 47 0)

/-- COUNTER_READ; CLEAR_OVF clears OVF in the counters read. -/
def execCounterRead (m : SbMsg) (s : State) : Host.Outcome State Fault Refusal :=
  sideband 0x20 m (exactly 7) s fun s p =>
    let kind := le p 0 1
    let unit := le p 1 2
    let first := le p 3 2
    let n := le p 5 1
    let flags := le p 6 1
    if n = 0 ∨ 1 < flags ∨ ((List.range n).all fun i => counterExists kind unit (first + i)) = false then reply m s 0x20 0x0803 []
    else
      let (s1, v) := s.freeVal
      let key := fun i => counterKey kind unit (first + i)
      let word := fun i => if counted kind (first + i) then counterWord (tget Counter.reset s.counters (key i)) else w64 (Config.freeNat (v + i))
      let clear := fun (t : Table Counter) i => tset Counter.reset t (key i) { tget Counter.reset t (key i) with ovf := false }
      let s2 := if flags = 1 then { s1 with counters := (List.range n).foldl clear s1.counters } else s1
      reply m s2 0x20 0 ((List.range n).flatMap fun i => vecBytes (word i))

/-- LIFETIME_READ: a value of 8 bytes and a flags byte each. -/
def execLifetimeRead (m : SbMsg) (s : State) : Host.Outcome State Fault Refusal :=
  sideband 0x21 m (exactly 4) s fun s p =>
    let a := le p 0 2
    let n := le p 2 2
    if n = 0 ∨ 32 < a + n then reply m s 0x21 0x0803 []
    else reply m s 0x21 0 ((List.range n).flatMap fun i =>
      let c := tget Life.reset s.reeve.life (a + i)
      leBytes 8 c.value ++ [if c.stuck then 1 else 0])

/-- The number of units a histogram has. -/
def histUnits : Nat → Nat
  | 0 => 528
  | 1 => 24
  | 2 => 1
  | 3 => 528
  | 4 => 24
  | _ => 0

/-- HISTOGRAM_READ. -/
def execHistogramRead (m : SbMsg) (s : State) : Host.Outcome State Fault Refusal :=
  sideband 0x22 m (exactly 4) s fun s p =>
    let h := le p 0 2
    let i := le p 2 2
    if histUnits h ≤ i then reply m s 0x22 0x0803 []
    else reply m s 0x22 0 ((List.range 32).flatMap fun b => leBytes 8 (tget 0 s.reeve.hist (histKey h i b)))

/-! ## Logs (R453, R475, R480) -/

/-- An event record as 64 bytes (*Table 16-6*). -/
def recordBytes (r : EventRec) : List Byte :=
  let b := fun (x : Bool) (i : Nat) => if x then 2 ^ i else 0
  leBytes 64 (fld 1 511 504 + fld r.level.toNat 503 496 + fld r.status.toNat 495 480 + fld r.unit.toNat 479 472 + fld r.die.toNat 471 464 +
    fld r.index.toNat 463 448 + fld r.part.toNat 447 444 + fld ((r.ctx.map (·.1)).getD 0) 443 432 +
    (b r.ctx.isSome 424 + b r.virt.isSome 425 + b r.merged 426 + b r.lost 427) + fld ((r.ctx.map (·.2)).getD 0) 415 352 +
    fld r.time 351 288 + fld r.phys.toNat 287 240 + fld ((r.virt.map (·.toNat)).getD 0) 239 184 + fld r.repeats 183 152 +
    fld r.detail.toNat 127 64 + fld r.seq 63 0)

/-- LOG_READ: records from the first SEQ asked for; LOG_RANGE with the oldest SEQ held when that one has been overwritten. -/
def execLogRead (m : SbMsg) (s : State) : Host.Outcome State Fault Refusal :=
  sideband 0x28 m (exactly 10) s fun s p =>
    let ring := le p 0 1
    let first := le p 1 8
    let n := le p 9 1
    let log := if ring = 0 then s.flash.events else s.flash.severe
    let full := decide ((if ring = 0 then 2097152 else 16384) ≤ log.length)
    if 1 < ring ∨ n = 0 ∨ 63 < n then reply m s 0x28 0x0803 []
    else match log.head? with
      | some r => if full ∧ first < r.seq then reply m s 0x28 0x080B (leBytes 8 r.seq)
          else reply m s 0x28 0 (((log.filter fun r => decide (first ≤ r.seq)).take n).flatMap recordBytes)
      | none => reply m s 0x28 0 []

/-- MEASURE_READ; as LOG_READ. -/
def execMeasureRead (m : SbMsg) (s : State) : Host.Outcome State Fault Refusal :=
  sideband 0x52 m (exactly 9) s fun s p =>
    let first := le p 0 8
    let n := le p 8 1
    if n = 0 ∨ 63 < n then reply m s 0x52 0x0803 []
    else match s.flash.measures.head? with
      | some r => if 1 < r.index ∧ first < r.index then reply m s 0x52 0x080B (leBytes 8 r.index)
          else reply m s 0x52 0 (((s.flash.measures.filter fun r => decide (first ≤ r.index)).take n).flatMap measureBytes)
      | none => reply m s 0x52 0 []

/-! ## Provisioning (R382, R385, R461) -/

/-- A provisioning record as stored: every field at the nearer limit of its range (*Table 14-2*). -/
def provStore (r : List Byte) : List Byte :=
  let put := fun (r : List Byte) (f : Nat × Nat × Nat × Nat) => patch r f.1 (leBytes f.2.1 (clamp f.2.2.1 f.2.2.2 (le r f.1 f.2.1)))
  [(0x00, 1, 0, 6), (0x04, 1, 0, 127), (0x05, 1, 0, 63), (0x30, 4, 2000, 10000000), (0x34, 2, 1, 32), (0x36, 2, 1, 65535),
    (0x38, 4, 1, 60000), (0x3C, 4, 1, 10000), (0x40, 4, 10, 60000)].foldl put r

/-- PROVISION. -/
def execProvision (m : SbMsg) (s : State) : Host.Outcome State Fault Refusal :=
  sideband 0x30 m (fun p => exactly 129 p || (exactly 1 p && decide (le p 0 1 = 0))) s fun s p =>
    let rw := le p 0 1
    let r := p.drop 1
    if 1 < rw ∨ (rw = 1 ∧ (le r 1 1 / 32 ≠ 0 ∨ le r 0x44 60 ≠ 0)) then reply m s 0x30 0x0803 []
    else if rw = 0 then reply m s 0x30 0 (vecBytes s.flash.prov)
    else
      let t := provStore r
      let s1 := measureRecord { s with flash := { s.flash with prov := BitVec.ofNat 1024 (leNat t) } } 4 0xFFFF 0x30 t
      reply m s1 0x30 0 t

/-- MACSEC_KEY: CKN length, CKN, CAK. -/
def execMacsecKey (m : SbMsg) (s : State) : Host.Outcome State Fault Refusal :=
  sideband 0x31 m (fun p => decide (p.length = 33 + le p 0 1)) s fun s p =>
    let n := le p 0 1
    if n = 0 ∨ 32 < n then reply m s 0x31 0x0803 []
    else reply m { s with flash := { s.flash with ckn := slice p 1 n, cak := BitVec.ofNat 256 (le p (1 + n) 32) } } 0x31 0 []

/-- TIME_SET: before the first PTP lock; device time never decreases (R389). -/
def execTimeSet (m : SbMsg) (s : State) : Host.Outcome State Fault Refusal :=
  sideband 0x32 m (exactly 8) s fun s p =>
    let t := le p 0 8
    if s.port.everLocked then reply m s 0x32 0x0806 []
    else if s.time < t then reply m (stepTime s t) 0x32 0 []
    else reply m (correctTime s t) 0x32 0 []

/-! ## Firmware update (R477) -/

/-- The slot that does not run. -/
def State.idleSlot (s : State) : Bool := !(s.power.slot.getD s.flash.activeB)

/-- FW_BEGIN. -/
def execFwBegin (m : SbMsg) (s : State) : Host.Outcome State Fault Refusal :=
  sideband 0x40 m (exactly 0) s fun s _ =>
    if s.reeve.fwOpen then reply m s 0x40 0x0804 []
    else
      let s1 := s.setSlot s.idleSlot []
      reply m { s1 with reeve := { s1.reeve with fwOpen := true, verified := none } } 0x40 0 []

/-- FW_WRITE: an offset of 8 bytes, 8 zero bytes, and up to 4,064 bytes (log entry 43). -/
def execFwWrite (m : SbMsg) (s : State) : Host.Outcome State Fault Refusal :=
  sideband 0x41 m (fun p => decide (17 ≤ p.length)) s fun s p =>
    let off := le p 0 8
    let bs := p.drop 16
    if le p 8 8 ≠ 0 ∨ 2 ^ 25 < off + bs.length then reply m s 0x41 0x0803 []
    else if s.reeve.fwOpen = false then reply m s 0x41 0x0808 []
    else
      let cells := ((List.range bs.length).zip bs).foldl (fun c b => tset 0xFF c (off + b.1) b.2) (s.slotCells s.idleSlot)
      let s1 := s.setSlot s.idleSlot cells
      reply m { s1 with reeve := { s1.reeve with verified := none } } 0x41 0 []

/-- FW_VERIFY; `sig` says that the slot's key and signature are good. -/
def execFwVerify (m : SbMsg) (sig : Bool) (s : State) : Host.Outcome State Fault Refusal :=
  sideband 0x42 m (exactly 0) s fun s _ =>
    let st := s.slotStatus s.idleSlot sig
    reply m (if st = 0 then { s with reeve := { s.reeve with verified := some s.idleSlot } } else s) 0x42 st []

/-- FW_ACTIVATE. -/
def execFwActivate (m : SbMsg) (s : State) : Host.Outcome State Fault Refusal :=
  sideband 0x43 m (exactly 0) s fun s _ =>
    if s.reeve.verified = some s.idleSlot then reply m { s with flash := { s.flash with trial := some s.idleSlot } } 0x43 0 []
    else reply m s 0x43 0x0808 []

/-- FW_STATUS: active slot, trial mark (0xFF none), the SVN of each slot and the minimum (log entry 43); NO_VALID_SLOT when
neither slot verified. -/
def execFwStatus (m : SbMsg) (s : State) : Host.Outcome State Fault Refusal :=
  sideband 0x44 m (exactly 0) s fun s _ =>
    if s.power.st = .held ∧ s.power.failure = 0x080A then reply m s 0x44 0x080A []
    else
      let trial := match s.flash.trial with
        | none => 0xFF
        | some b => if b then 1 else 0
      reply m s 0x44 0 (leBytes 1 (if s.flash.activeB then 1 else 0) ++ leBytes 1 trial ++ leBytes 4 (s.slotSvn false) ++ leBytes 4 (s.slotSvn true) ++ leBytes 4 s.flash.minSvn)

/-! ## Attestation (R478, R479) -/

/-- The signed bytes of a quote (*Table 17-10*). -/
def quoteBytes (s : State) (nonce : List Byte) (index : Nat) : List Byte :=
  let b := s.power.slot.getD s.flash.activeB
  let flag := fun (x : Bool) (i : Nat) => if x then 2 ^ i else 0
  nonce ++ vecBytes s.serial ++ leBytes 8 (s.time % 2 ^ 63 + flag s.port.locked 63) ++
  leBytes 4 (fld 0xB0 31 24 + fld (orderCode s) 23 16 + fld s.enabledCores.length 15 0) ++ leBytes 4 (s.slotSvn b) ++
  sha256 (s.slotBytes b 0 4096) ++ sha256 (vecBytes s.flash.prov) ++
  leBytes 4 (flag (s.provFlag 2) 0 + flag s.reeve.fallback 1 + flag s.power.jtagUnlocked 2) ++ zeros 4 ++
  leBytes 8 s.flash.measureCount ++ vecBytes s.flash.chain ++ leBytes 8 index

/-- ATTEST_QUOTE: at most 16 in a second and 64 in 64 s; the next index reaches flash before the signature is released. -/
def execAttestQuote (m : SbMsg) (s : State) : Host.Outcome State Fault Refusal :=
  sideband 0x50 m (exactly 32) s fun s p =>
    let index := (tget Life.reset s.reeve.life 5).value
    let lately := fun (span : Nat) => (s.reeve.quotes.filter fun t => decide (s.clock < t + span)).length
    if 2 ^ 30 ≤ index then reply m s 0x50 0x080C []
    else if 16 ≤ lately 1000000000 ∨ 64 ≤ lately 64000000000 then reply m s 0x50 0x080D []
    else
      let s1 := lifeUp s 5 1
      let s2 := { s1 with
        flash := { s1.flash with life := tset Life.reset s1.flash.life 5 (tget Life.reset s1.reeve.life 5) }
        reeve := { s1.reeve with quotes := (s.reeve.quotes.filter fun t => decide (s.clock < t + 64000000000)) ++ [s.clock] } }
      let s3 := if index + 1 + 2 ^ 20 = 2 ^ 30 then event s2 5 0x0815 0x0D 0x41 0xFFFF else s2
      let q := quoteBytes s p index
      reply m s3 0x50 0 (q ++ Config.hssSign q)

/-- ATTEST_CERT: the endorsement. -/
def execAttestCert (m : SbMsg) (s : State) : Host.Outcome State Fault Refusal :=
  sideband 0x51 m (exactly 0) s fun s _ => reply m s 0x51 0 (vecBytes s.serial ++ Config.endorsement)

/-! ## MCTP control and PLDM (R458, R459) -/

/-- MCTP_CONTROL. -/
def execMctpControl (data : List (BitVec 8)) (s : State) : Host.Outcome State Fault Refusal :=
  .next (if s.reeveRuns then s.emit (.mctp (Config.mctpAnswer data)) else s)

/-- GET_PDR. -/
def execGetPdr (id : Nat) (s : State) : Host.Outcome State Fault Refusal :=
  .next (if s.reeveRuns then s.emit (.pldm 0x51 id (Config.pdrBytes id)) else s)

/-- GET_SENSOR_READING: a completion code and the reading; 0x80 for a sensor that does not exist (DSP0248, log entry 47). -/
def execGetSensorReading (id : Nat) (s : State) : Host.Outcome State Fault Refusal :=
  .next (if s.reeveRuns then
      s.emit (.pldm 0x11 id (if id < sensorCount then [0] ++ vecBytes (BitVec.ofInt 32 (s.sensor id)) else [0x80]))
    else s)

/-- GET_STATE_SENSOR_READINGS: the module state (log entry 47). -/
def execGetStateSensorReadings (id : Nat) (s : State) : Host.Outcome State Fault Refusal :=
  .next (if s.reeveRuns then s.emit (.pldm 0x21 id ([0] ++ leBytes 1 (modStateCode s.power.st))) else s)

/-- DYNAMIC_ADDRESS_ASSIGNMENT (R458). -/
def execDynamicAddressAssignment (addr : BitVec 7) (s : State) : Host.Outcome State Fault Refusal :=
  .next (if s.power.st = .off then s else { s with reeve := { s.reeve with i3c := some addr } })

end Sys2Proof.Machine
end

