-- ==== Sys2Proof/Machine/Vector.lean ====
section
/-! DEFINITION. Class V: per-lane integer and floating-point arithmetic, compares, conversions, moves and the cross-lane
operations (R94, R102 to R106, R515, R516, *Table 4-12* opcodes 0x10 to 0x16). -/

namespace Sys2Proof.Machine

/-- What issue needs of an integer vector instruction of opcodes 0x10 and 0x11: TYPE 0x0 to 0x2 (R102). -/
def vecIss (s : State) (g : Grp) (f : RI) (bs : List Kind) : Iss :=
  let o := Ops3.of f
  let n := s.vregsOf g
  { ext := o.ext, gp := o.gp, gn := o.gn, cls := .alu, access := false, alone := false, reads := o.reads 1,
    writes := regsOf o.dst 1
    bad := illegalUnless (o.aOk n [.v, .s, .x, .z] && o.bOk n bs && decide (o.c = opZero) && accepts n false [.v] o.dst &&
      modIntOk o.mod && decide (modType o.mod ≤ 2) && immOk f) }

/-- Apply an integer operation to every element of a lane. -/
def onElems (ty : Nat) (op : (n : Nat) → BitVec n → BitVec n → BitVec n) (a b : W32) : W32 :=
  let k := (elems ty).2
  (packElems ty fun i => ((op k (BitVec.ofNat k (elemOf ty a.toNat i)) (BitVec.ofNat k (elemOf ty b.toNat i))).toNat, 0)).1

def vecBin (op : (n : Nat) → BitVec n → BitVec n → BitVec n) (g : Grp) (f : RI) (s : State) :
    Host.Outcome State Fault Refusal :=
  let o := Ops3.of f
  issue (vecIss s g f [.v, .s, .x, .z]) g
    (fun s k act => .done (s.setGroup g (k.putV o.dst.toNat act fun i =>
      onElems (modType o.mod) op (k.opL o.ext o.a i) (o.bL k i)))) s

/-- An operation of one source; SRC_B is unused. -/
def vecUn (op : (n : Nat) → BitVec n → BitVec n) (g : Grp) (f : RI) (s : State) : Host.Outcome State Fault Refusal :=
  let o := Ops3.of f
  issue (vecIss s g f [.z]) g
    (fun s k act => .done (s.setGroup g (k.putV o.dst.toNat act fun i =>
      onElems (modType o.mod) (fun n a _ => op n a) (k.opL o.ext o.a i) 0))) s

/-- The bits of an element in reverse order. -/
def revBits (n : Nat) (a : BitVec n) : BitVec n := BitVec.ofNat n (packFields 1 (fun i => if bit a (n - 1 - i) then 1 else 0) n)

/-- VADD: wraps (R105). -/
def execVadd (g : Grp) (f : RI) (s : State) : Host.Outcome State Fault Refusal :=
  vecBin (fun _ a b => a + b) g f s

/-- VSUB. -/
def execVsub (g : Grp) (f : RI) (s : State) : Host.Outcome State Fault Refusal :=
  vecBin (fun _ a b => a - b) g f s

/-- VMUL: the low part. -/
def execVmul (g : Grp) (f : RI) (s : State) : Host.Outcome State Fault Refusal :=
  vecBin (fun _ a b => a * b) g f s

/-- VMULHU. -/
def execVmulhu (g : Grp) (f : RI) (s : State) : Host.Outcome State Fault Refusal :=
  vecBin (fun _ a b => mulHiU a b) g f s

/-- VMULHS. -/
def execVmulhs (g : Grp) (f : RI) (s : State) : Host.Outcome State Fault Refusal :=
  vecBin (fun _ a b => mulHiS a b) g f s

/-- VMIN. -/
def execVmin (g : Grp) (f : RI) (s : State) : Host.Outcome State Fault Refusal :=
  vecBin (fun _ a b => minS a b) g f s

/-- VMAX. -/
def execVmax (g : Grp) (f : RI) (s : State) : Host.Outcome State Fault Refusal :=
  vecBin (fun _ a b => maxS a b) g f s

/-- VMINU. -/
def execVminu (g : Grp) (f : RI) (s : State) : Host.Outcome State Fault Refusal :=
  vecBin (fun _ a b => minU a b) g f s

/-- VMAXU. -/
def execVmaxu (g : Grp) (f : RI) (s : State) : Host.Outcome State Fault Refusal :=
  vecBin (fun _ a b => maxU a b) g f s

/-- VAND. -/
def execVand (g : Grp) (f : RI) (s : State) : Host.Outcome State Fault Refusal :=
  vecBin (fun _ a b => a &&& b) g f s

/-- VOR. -/
def execVor (g : Grp) (f : RI) (s : State) : Host.Outcome State Fault Refusal :=
  vecBin (fun _ a b => a ||| b) g f s

/-- VXOR. -/
def execVxor (g : Grp) (f : RI) (s : State) : Host.Outcome State Fault Refusal :=
  vecBin (fun _ a b => a ^^^ b) g f s

/-- VANDN. -/
def execVandn (g : Grp) (f : RI) (s : State) : Host.Outcome State Fault Refusal :=
  vecBin (fun _ a b => a &&& ~~~b) g f s

/-- VSHL: the count modulo the element width (R105). -/
def execVshl (g : Grp) (f : RI) (s : State) : Host.Outcome State Fault Refusal :=
  vecBin (fun n a b => a <<< (b.toNat % n)) g f s

/-- VSHR (R105). -/
def execVshr (g : Grp) (f : RI) (s : State) : Host.Outcome State Fault Refusal :=
  vecBin (fun n a b => a >>> (b.toNat % n)) g f s

/-- VSAR (R105). -/
def execVsar (g : Grp) (f : RI) (s : State) : Host.Outcome State Fault Refusal :=
  vecBin (fun n a b => a.sshiftRight (b.toNat % n)) g f s

/-- VPOPC of each element. -/
def execVpopc (g : Grp) (f : RI) (s : State) : Host.Outcome State Fault Refusal :=
  vecUn (fun n a => BitVec.ofNat n (popCount a)) g f s

/-- VCLZ: the element width for zero. -/
def execVclz (g : Grp) (f : RI) (s : State) : Host.Outcome State Fault Refusal :=
  vecUn (fun n a => BitVec.ofNat n (clz a)) g f s

/-- VBREV. -/
def execVbrev (g : Grp) (f : RI) (s : State) : Host.Outcome State Fault Refusal :=
  vecUn (fun n a => revBits n a) g f s

/-! ## Floating point (R102 to R104) -/

/-- The fields a format-R instruction without a twin uses: kinds of A, B, C and the destination, `n` registers read and
written by each. -/
def rIss (s : State) (g : Grp) (f : RWord) (never : Bool) (as bs cs ds : List Kind) (nr nw : Nat) (modOk : Bool) : Iss :=
  let v := s.vregsOf g
  let x := f.ext.isSome
  { ext := f.ext, gp := f.gp, gn := f.gn, cls := .alu, access := false, alone := false
    reads := regsOf f.a nr ++ regsOf f.b nr ++ regsOf f.c nr ++ [0x140 + f.gp.toNat] ++ fpStatus f.mod
    writes := regsOf f.dst nw ++ (if modFlg f.mod then [0x13F] else [])
    bad := if never && x then some 0x0503 else
      illegalUnless (accepts v x as f.a && accepts v x bs f.b && accepts v x cs f.c && accepts v x ds f.dst && modOk) }

def isFp32 (m : BitVec 9) : Bool := modFpOk m && (modType m == 4 || modType m == 5 || modType m == 6)

/-- A per-lane floating-point operation on up to three operands, element by element; the flags of the active lanes are
recorded together (R104). -/
def fpOp (bs cs : List Kind) (op : Fmt → Rm → Nat → Nat → Nat → Nat × Nat) (g : Grp) (f : RWord) (s : State) :
    Host.Outcome State Fault Refusal :=
  issue (rIss s g f false [.v, .s, .x] bs cs [.v] 1 1 (isFp32 f.mod)) g
    (fun s k act =>
      let ty := modType f.mod
      let r := fun i => packElems ty fun e =>
        op (fmtOf ty) (rmOf k f.mod) (elemOf ty (k.opL f.ext f.a i).toNat e) (elemOf ty (k.opL f.ext f.b i).toNat e)
          (elemOf ty (k.opL f.ext f.c i).toNat e)
      let k1 := k.putV f.dst.toNat act fun i => (r i).1
      .done (s.setGroup g (recordFlags k1 f.mod (orFlags act fun i => (r i).2)))) s

/-- VFADD. -/
def execVfadd (g : Grp) (f : RWord) (s : State) : Host.Outcome State Fault Refusal :=
  fpOp [.v, .s, .x] [.z] (fun f rm a b _ => f.add rm a b) g f s

/-- VFSUB. -/
def execVfsub (g : Grp) (f : RWord) (s : State) : Host.Outcome State Fault Refusal :=
  fpOp [.v, .s, .x] [.z] (fun f rm a b _ => f.sub rm a b) g f s

/-- VFMUL. -/
def execVfmul (g : Grp) (f : RWord) (s : State) : Host.Outcome State Fault Refusal :=
  fpOp [.v, .s, .x] [.z] (fun f rm a b _ => f.mul rm a b) g f s

/-- VFFMA: rounded once. -/
def execVffma (g : Grp) (f : RWord) (s : State) : Host.Outcome State Fault Refusal :=
  fpOp [.v, .s, .x] [.v, .s, .x] (fun f rm a b c => f.fma rm a b c) g f s

/-- VFMIN. -/
def execVfmin (g : Grp) (f : RWord) (s : State) : Host.Outcome State Fault Refusal :=
  fpOp [.v, .s, .x] [.z] (fun f _ a b _ => f.minmax false a b) g f s

/-- VFMAX. -/
def execVfmax (g : Grp) (f : RWord) (s : State) : Host.Outcome State Fault Refusal :=
  fpOp [.v, .s, .x] [.z] (fun f _ a b _ => f.minmax true a b) g f s

/-- VFABS clears the sign. -/
def execVfabs (g : Grp) (f : RWord) (s : State) : Host.Outcome State Fault Refusal :=
  fpOp [.z] [.z] (fun f _ a _ _ => (f.abs a, 0)) g f s

/-- VFNEG flips the sign. -/
def execVfneg (g : Grp) (f : RWord) (s : State) : Host.Outcome State Fault Refusal :=
  fpOp [.z] [.z] (fun f _ a _ _ => (f.flip a, 0)) g f s

/-- VFCPYS: SRC_A with the sign of SRC_B. -/
def execVfcpys (g : Grp) (f : RWord) (s : State) : Host.Outcome State Fault Refusal :=
  fpOp [.v, .s, .x] [.z] (fun f _ a b _ => (f.copySign a b, 0)) g f s

/-! ## Compare, convert, move (R515, R516) -/

/-- An integer compare of one element: .EQ to .GE signed, .LTU and .GEU unsigned. -/
def intCmp (c : Cond) (n : Nat) (a b : BitVec n) : Bool :=
  match c with
  | .eq => decide (a = b)
  | .ne => decide (a ≠ b)
  | .lt => a.slt b
  | .le => a.sle b
  | .gt => b.slt a
  | .ge => b.sle a
  | .ltu => a.ult b
  | .geu => b.ule a
  | .un | .ord => false

/-- The TYPEs a compare condition accepts (R515). An opcode that takes floating-point TYPEs too is no integer opcode of
R102: its RM and FLG need not be 0 at an integer TYPE (log entry 48). -/
def cmpTypeOk (c : Cond) (m : BitVec 9) : Bool :=
  let t := modType m
  let int := decide (t ≤ 2) && modFpOk m
  let fp := isFp32 m
  match c with
  | .ltu | .geu => int
  | .un | .ord => fp
  | _ => int || fp

/-- VCMP: the lane's bit is set when the condition holds for every element (R515). -/
def cmpLane (c : Cond) (ty : Nat) (a b : Nat) : Bool × Nat :=
  let (n, k) := elems ty
  (List.range n).foldl (fun (acc : Bool × Nat) i =>
    let r := if ty ≤ 2 then (intCmp c k (BitVec.ofNat k (elemOf ty a i)) (BitVec.ofNat k (elemOf ty b i)), 0)
      else (fmtOf ty).cmp c (elemOf ty a i) (elemOf ty b i)
    (acc.1 && r.1, acc.2 ||| r.2)) (true, 0)

def execVcmp (g : Grp) (c : Cond) (f : RWord) (s : State) : Host.Outcome State Fault Refusal :=
  issue (rIss s g f false [.v, .s, .x] [.v, .s, .x] [.z] [.p] 1 1 (cmpTypeOk c f.mod)) g
    (fun s k act =>
      let r := fun i => cmpLane c (modType f.mod) (k.opL f.ext f.a i).toNat (k.opL f.ext f.b i).toNat
      let k1 := k.putP f.dst act (maskOf fun i => (r i).1)
      .done (s.setGroup g (recordFlags k1 f.mod (orFlags act fun i => (r i).2)))) s

/-- Is a TYPE an integer one, and is it signed (R516)? -/
def typeInt (ty : Nat) : Bool := ty ≤ 2 || ty == 9 || ty == 10
def typeSigned (ty : Nat) : Bool := ty != 10

/-- Convert one element between TYPEs (R105, R516). -/
def convElem (rm : Rm) (src dst : Nat) (a : Nat) : Nat × Nat :=
  let ks := (elems src).2
  let kd := (elems dst).2
  let v : Int := if typeSigned src then sext ks a else (a : Nat)
  match typeInt src, typeInt dst with
  | true, true => ((BitVec.ofInt kd v).toNat, 0)
  | true, false => (fmtOf dst).ofInt rm v
  | false, true =>
    let lo : Int := if typeSigned dst then -(2 ^ (kd - 1)) else 0
    let hi : Int := if typeSigned dst then 2 ^ (kd - 1) - 1 else 2 ^ kd - 1
    let (r, fl) := (fmtOf src).toInt rm lo hi a
    ((BitVec.ofInt kd r).toNat, fl)
  | false, false => (fmtOf src).convert (fmtOf dst) rm a

/-- Convert the elements of a lane in order; destination elements beyond the source's are 0 (R516). -/
def convLane (rm : Rm) (src dst : Nat) (a : Nat) : Nat × Nat :=
  let (nd, kd) := elems dst
  let r := fun i => if i < (elems src).1 then convElem rm src dst (elemOf src a i) else (0, 0)
  (packFields kd (fun i => (r i).1) nd, (List.range nd).foldl (fun acc i => acc ||| (r i).2) 0)

def type32 (t : Nat) : Bool := t ≤ 2 || t == 4 || t == 5 || t == 6
def type64 (t : Nat) : Bool := t == 8 || t == 9 || t == 10

def execVcvt (g : Grp) (src : BitVec 4) (f : RWord) (s : State) : Host.Outcome State Fault Refusal :=
  let st := src.toNat
  let dt := modType f.mod
  issue (rIss s g f true [.v, .s] [.z] [.z] [.v] 1 1 (type32 st && type32 dt && decide (st ≠ dt) && modFpOk f.mod)) g
    (fun s k act =>
      let r := fun i => convLane (rmOf k f.mod) st dt (k.opL f.ext f.a i).toNat
      let k1 := k.putV f.dst.toNat act fun i => w32 (r i).1
      .done (s.setGroup g (recordFlags k1 f.mod (orFlags act fun i => (r i).2)))) s

/-- A move of 32-bit values without interpretation (opcode 0x15, R515). -/
def moveOp (as bs cs : List Kind) (val : Group → Nat → W32) (g : Grp) (f : RWord) (s : State) :
    Host.Outcome State Fault Refusal :=
  issue (rIss s g f false as bs cs [.v] 1 1 (decide (f.mod = 0))) g
    (fun s k act => .done (s.setGroup g (k.putV f.dst.toNat act (val k)))) s

/-- A cross-lane value written to a scalar destination (R106). -/
def toScalar (as bs : List Kind) (modOk : Bool) (val : Group → W32 → W64) (g : Grp) (f : RWord) (s : State) :
    Host.Outcome State Fault Refusal :=
  issue (rIss s g f false as bs [.z] [.s] 1 1 modOk) g
    (fun s k act => .done (s.setGroup g (k.putS f.dst (val k act)))) s

/-- VMOV. -/
def execVmov (g : Grp) (f : RWord) (s : State) : Host.Outcome State Fault Refusal :=
  moveOp [.v, .s, .x] [.z] [.z] (fun k i => k.opL f.ext f.a i) g f s

/-- VSEL: SRC_A where predicate SRC_C is set, SRC_B elsewhere. -/
def execVsel (g : Grp) (f : RWord) (s : State) : Host.Outcome State Fault Refusal :=
  moveOp [.v, .s, .x] [.v, .s, .x] [.p]
    (fun k i => if k.opL f.ext f.c i = 1 then k.opL f.ext f.a i else k.opL f.ext f.b i) g f s

/-- VLANE. -/
def execVlane (g : Grp) (f : RWord) (s : State) : Host.Outcome State Fault Refusal :=
  moveOp [.z] [.z] [.z] (fun _ i => w32 i) g f s

/-- VGET: lane (SRC_B mod 32) of SRC_A, zero-extended; a scalar SRC_A has its low 32 bits in every lane (R84). -/
def execVget (g : Grp) (f : RWord) (s : State) : Host.Outcome State Fault Refusal :=
  toScalar [.v, .s, .x] [.v, .s, .x] (decide (f.mod = 0))
    (fun k _ => (k.opL f.ext f.a ((k.opS f.ext f.b).toNat % 32)).setWidth 64) g f s

/-- VSHFL reads the source lane whether or not it is active (R106); the operand kinds are the model's (log entry 123). -/
def execVshfl (g : Grp) (f : RWord) (s : State) : Host.Outcome State Fault Refusal :=
  moveOp [.v] [.v, .s, .x] [.z] (fun k i => k.opL f.ext f.a ((k.opL f.ext f.b i).toNat % 32)) g f s

/-- VBCAST; the operand kinds are the model's (log entry 123). -/
def execVbcast (g : Grp) (f : RWord) (s : State) : Host.Outcome State Fault Refusal :=
  moveOp [.v] [.s, .x] [.z] (fun k _ => k.opL f.ext f.a ((k.opS f.ext f.b).toNat % 32)) g f s

/-- The predicate SRC_A names. -/
def predA (k : Group) (f : RWord) : W32 := k.pred (f.a.toNat - 0x140)

/-- VANY. -/
def execVany (g : Grp) (f : RWord) (s : State) : Host.Outcome State Fault Refusal :=
  toScalar [.p] [.z] (decide (f.mod = 0)) (fun k act => flagWord (decide (predA k f &&& act ≠ 0))) g f s

/-- VALL. -/
def execVall (g : Grp) (f : RWord) (s : State) : Host.Outcome State Fault Refusal :=
  toScalar [.p] [.z] (decide (f.mod = 0)) (fun k act => flagWord (decide (predA k f &&& act = act))) g f s

/-- VBALLOT. -/
def execVballot (g : Grp) (f : RWord) (s : State) : Host.Outcome State Fault Refusal :=
  toScalar [.p] [.z] (decide (f.mod = 0)) (fun k act => (predA k f &&& act).setWidth 64) g f s

/-- The 64-bit sum of SRC_A over the active lanes, sign- or zero-extended by TYPE (R106). -/
def redAdd (k : Group) (f : RWord) (act : W32) : W64 :=
  (maskList act).foldl (fun acc i =>
    let v := k.opL f.ext f.a i
    acc + (if modType f.mod = 9 then v.signExtend 64 else v.setWidth 64)) 0

/-- VRED.ADD. -/
def execVredAdd (g : Grp) (f : RWord) (s : State) : Host.Outcome State Fault Refusal :=
  toScalar [.v] [.z] (modIntOk f.mod && (modType f.mod == 9 || modType f.mod == 10)) (fun k act => redAdd k f act) g f s

/-- The FP32 sum in lane order: it starts from the lowest active lane's value (R106). -/
def redFadd (rm : Rm) (vals : List Nat) : Nat × Nat :=
  match vals with
  | [] => (0, 0)
  | v :: t => t.foldl (fun acc x => let r := f32.add rm acc.1 x; (r.1, acc.2 ||| r.2)) (v, 0)

/-- VRED.FADD. -/
def execVredFadd (g : Grp) (f : RWord) (s : State) : Host.Outcome State Fault Refusal :=
  issue (rIss s g f false [.v] [.z] [.z] [.s] 1 1 (modFpOk f.mod && modType f.mod == 4)) g
    (fun s k act =>
      let r := redFadd (rmOf k f.mod) ((maskList act).map fun i => (k.opL f.ext f.a i).toNat)
      .done (s.setGroup g (recordFlags (k.putS f.dst (w64 r.1)) f.mod r.2))) s

/-! ## Class V64: FP64, divide and square root (opcodes 0x20 to 0x22) -/

/-- An FP64 operation on register pairs: TYPE 0x8. -/
def fp64Op (bs cs : List Kind) (op : Rm → Nat → Nat → Nat → Nat × Nat) (g : Grp) (f : RWord) (s : State) :
    Host.Outcome State Fault Refusal :=
  issue (rIss s g f true [.pr] bs cs [.pr] 2 2 (modFpOk f.mod && modType f.mod == 8)) g
    (fun s k act =>
      let r := fun i => op (rmOf k f.mod) (k.opPair f.a i).toNat (k.opPair f.b i).toNat (k.opPair f.c i).toNat
      let k1 := k.putPair f.dst act fun i => w64 (r i).1
      .done (s.setGroup g (recordFlags k1 f.mod (orFlags act fun i => (r i).2)))) s

/-- VDADD. -/
def execVdadd (g : Grp) (f : RWord) (s : State) : Host.Outcome State Fault Refusal :=
  fp64Op [.pr] [.z] (fun rm a b _ => f64.add rm a b) g f s

/-- VDSUB. -/
def execVdsub (g : Grp) (f : RWord) (s : State) : Host.Outcome State Fault Refusal :=
  fp64Op [.pr] [.z] (fun rm a b _ => f64.sub rm a b) g f s

/-- VDMUL. -/
def execVdmul (g : Grp) (f : RWord) (s : State) : Host.Outcome State Fault Refusal :=
  fp64Op [.pr] [.z] (fun rm a b _ => f64.mul rm a b) g f s

/-- VDFMA. -/
def execVdfma (g : Grp) (f : RWord) (s : State) : Host.Outcome State Fault Refusal :=
  fp64Op [.pr] [.pr] (fun rm a b c => f64.fma rm a b c) g f s

/-- VDMIN. -/
def execVdmin (g : Grp) (f : RWord) (s : State) : Host.Outcome State Fault Refusal :=
  fp64Op [.pr] [.z] (fun _ a b _ => f64.minmax false a b) g f s

/-- VDMAX. -/
def execVdmax (g : Grp) (f : RWord) (s : State) : Host.Outcome State Fault Refusal :=
  fp64Op [.pr] [.z] (fun _ a b _ => f64.minmax true a b) g f s

/-- VDABS. -/
def execVdabs (g : Grp) (f : RWord) (s : State) : Host.Outcome State Fault Refusal :=
  fp64Op [.z] [.z] (fun _ a _ _ => (f64.abs a, 0)) g f s

/-- VDNEG. -/
def execVdneg (g : Grp) (f : RWord) (s : State) : Host.Outcome State Fault Refusal :=
  fp64Op [.z] [.z] (fun _ a _ _ => (f64.flip a, 0)) g f s

/-- VDDIV. -/
def execVddiv (g : Grp) (f : RWord) (s : State) : Host.Outcome State Fault Refusal :=
  fp64Op [.pr] [.z] (fun rm a b _ => f64.div rm a b) g f s

/-- VDSQRT. -/
def execVdsqrt (g : Grp) (f : RWord) (s : State) : Host.Outcome State Fault Refusal :=
  fp64Op [.z] [.z] (fun rm a _ _ => f64.sqrt rm a) g f s

/-- VFDIV and VFSQRT: 32-bit lanes, vector operands (opcode 0x21); *Table 4-12* gives no TYPE for them, and the model takes
those of opcode 0x20 (DESIGN CHOICE, log entry 122). -/
def fpDivOp (bs : List Kind) (op : Fmt → Rm → Nat → Nat → Nat × Nat) (g : Grp) (f : RWord) (s : State) :
    Host.Outcome State Fault Refusal :=
  issue (rIss s g f true [.v] bs [.z] [.v] 1 1 (isFp32 f.mod)) g
    (fun s k act =>
      let ty := modType f.mod
      let r := fun i => packElems ty fun e =>
        op (fmtOf ty) (rmOf k f.mod) (elemOf ty (k.opL f.ext f.a i).toNat e) (elemOf ty (k.opL f.ext f.b i).toNat e)
      let k1 := k.putV f.dst.toNat act fun i => (r i).1
      .done (s.setGroup g (recordFlags k1 f.mod (orFlags act fun i => (r i).2)))) s

/-- VFDIV. -/
def execVfdiv (g : Grp) (f : RWord) (s : State) : Host.Outcome State Fault Refusal :=
  fpDivOp [.v] (fun f rm a b => f.div rm a b) g f s

/-- VFSQRT. -/
def execVfsqrt (g : Grp) (f : RWord) (s : State) : Host.Outcome State Fault Refusal :=
  fpDivOp [.z] (fun f rm a _ => f.sqrt rm a) g f s

/-- The 32-bit integer divides under R105: TYPE 0x0. -/
def intDivOp (op : W32 → W32 → W32) (g : Grp) (f : RWord) (s : State) : Host.Outcome State Fault Refusal :=
  issue (rIss s g f true [.v] [.v] [.z] [.v] 1 1 (decide (f.mod = 0))) g
    (fun s k act => .done (s.setGroup g (k.putV f.dst.toNat act fun i => op (k.opL f.ext f.a i) (k.opL f.ext f.b i)))) s

/-- VIDIVU. -/
def execVidivu (g : Grp) (f : RWord) (s : State) : Host.Outcome State Fault Refusal := intDivOp divU g f s
/-- VIDIVS. -/
def execVidivs (g : Grp) (f : RWord) (s : State) : Host.Outcome State Fault Refusal := intDivOp divS g f s
/-- VIREMU. -/
def execViremu (g : Grp) (f : RWord) (s : State) : Host.Outcome State Fault Refusal := intDivOp remU g f s
/-- VIREMS. -/
def execVirems (g : Grp) (f : RWord) (s : State) : Host.Outcome State Fault Refusal := intDivOp remS g f s

/-- VDCVT: a 64-bit side is a pair, a 32-bit side one vector register (R516). -/
def execVdcvt (g : Grp) (src : BitVec 4) (f : RWord) (s : State) : Host.Outcome State Fault Refusal :=
  let st := src.toNat
  let dt := modType f.mod
  let kind := fun t => if type64 t then Kind.pr else Kind.v
  issue (rIss s g f true [kind st] [.z] [.z] [kind dt] (if type64 st then 2 else 1) (if type64 dt then 2 else 1)
      ((type32 st || type64 st) && (type32 dt || type64 dt) && (type64 st || type64 dt) && decide (st ≠ dt) &&
        modFpOk f.mod)) g
    (fun s k act =>
      let val := fun i => if type64 st then (k.opPair f.a i).toNat else (k.opL f.ext f.a i).toNat
      let r := fun i => convLane (rmOf k f.mod) st dt (val i)
      let k1 := if type64 dt then k.putPair f.dst act fun i => w64 (r i).1 else k.putV f.dst.toNat act fun i => w32 (r i).1
      .done (s.setGroup g (recordFlags k1 f.mod (orFlags act fun i => (r i).2)))) s

/-- VDCMP: .LTU and .GEU are integer only, so they are illegal here (*Table 4-12*, R515). -/
def execVdcmp (g : Grp) (c : Cond) (f : RWord) (s : State) : Host.Outcome State Fault Refusal :=
  issue (rIss s g f true [.pr] [.pr] [.z] [.p] 2 1
      (modFpOk f.mod && modType f.mod == 8 && decide (c ≠ .ltu) && decide (c ≠ .geu))) g
    (fun s k act =>
      let r := fun i => f64.cmp c (k.opPair f.a i).toNat (k.opPair f.b i).toNat
      let k1 := k.putP f.dst act (maskOf fun i => (r i).1)
      .done (s.setGroup g (recordFlags k1 f.mod (orFlags act fun i => (r i).2)))) s

end Sys2Proof.Machine
end

