-- ==== Sys2Proof/Machine/Dispatch.lean ====
section
/-! DEFINITION. One arm per command: its meaning, or its mnemonic where it has none yet. -/

namespace Sys2Proof.Machine

def exec (i : Instr) (s : State) : Host.Outcome State Fault Refusal :=
  match i with
  | .sadd g f => Sys2Proof.Machine.execSadd g f s
  | .ssub g f => Sys2Proof.Machine.execSsub g f s
  | .smul g f => Sys2Proof.Machine.execSmul g f s
  | .smulhu g f => Sys2Proof.Machine.execSmulhu g f s
  | .smulhs g f => Sys2Proof.Machine.execSmulhs g f s
  | .sdivu g f => Sys2Proof.Machine.execSdivu g f s
  | .sdivs g f => Sys2Proof.Machine.execSdivs g f s
  | .sremu g f => Sys2Proof.Machine.execSremu g f s
  | .srems g f => Sys2Proof.Machine.execSrems g f s
  | .sand g f => Sys2Proof.Machine.execSand g f s
  | .sor g f => Sys2Proof.Machine.execSor g f s
  | .sxor g f => Sys2Proof.Machine.execSxor g f s
  | .sandn g f => Sys2Proof.Machine.execSandn g f s
  | .sshl g f => Sys2Proof.Machine.execSshl g f s
  | .sshr g f => Sys2Proof.Machine.execSshr g f s
  | .ssar g f => Sys2Proof.Machine.execSsar g f s
  | .sror g f => Sys2Proof.Machine.execSror g f s
  | .smin g f => Sys2Proof.Machine.execSmin g f s
  | .smax g f => Sys2Proof.Machine.execSmax g f s
  | .sminu g f => Sys2Proof.Machine.execSminu g f s
  | .smaxu g f => Sys2Proof.Machine.execSmaxu g f s
  | .sslt g f => Sys2Proof.Machine.execSslt g f s
  | .ssltu g f => Sys2Proof.Machine.execSsltu g f s
  | .sseq g f => Sys2Proof.Machine.execSseq g f s
  | .smov g f => Sys2Proof.Machine.execSmov g f s
  | .spopc g f => Sys2Proof.Machine.execSpopc g f s
  | .sclz g f => Sys2Proof.Machine.execSclz g f s
  | .sctz g f => Sys2Proof.Machine.execSctz g f s
  | .spget g f => Sys2Proof.Machine.execSpget g f s
  | .spset g f => Sys2Proof.Machine.execSpset g f s
  | .srdcr g f => Sys2Proof.Machine.execSrdcr g f s
  | .wrcr g f => Sys2Proof.Machine.execWrcr g f s
  | .vadd g f => Sys2Proof.Machine.execVadd g f s
  | .vsub g f => Sys2Proof.Machine.execVsub g f s
  | .vmul g f => Sys2Proof.Machine.execVmul g f s
  | .vmulhu g f => Sys2Proof.Machine.execVmulhu g f s
  | .vmulhs g f => Sys2Proof.Machine.execVmulhs g f s
  | .vmin g f => Sys2Proof.Machine.execVmin g f s
  | .vmax g f => Sys2Proof.Machine.execVmax g f s
  | .vminu g f => Sys2Proof.Machine.execVminu g f s
  | .vmaxu g f => Sys2Proof.Machine.execVmaxu g f s
  | .vand g f => Sys2Proof.Machine.execVand g f s
  | .vor g f => Sys2Proof.Machine.execVor g f s
  | .vxor g f => Sys2Proof.Machine.execVxor g f s
  | .vandn g f => Sys2Proof.Machine.execVandn g f s
  | .vshl g f => Sys2Proof.Machine.execVshl g f s
  | .vshr g f => Sys2Proof.Machine.execVshr g f s
  | .vsar g f => Sys2Proof.Machine.execVsar g f s
  | .vpopc g f => Sys2Proof.Machine.execVpopc g f s
  | .vclz g f => Sys2Proof.Machine.execVclz g f s
  | .vbrev g f => Sys2Proof.Machine.execVbrev g f s
  | .vfadd g f => Sys2Proof.Machine.execVfadd g f s
  | .vfsub g f => Sys2Proof.Machine.execVfsub g f s
  | .vfmul g f => Sys2Proof.Machine.execVfmul g f s
  | .vffma g f => Sys2Proof.Machine.execVffma g f s
  | .vfmin g f => Sys2Proof.Machine.execVfmin g f s
  | .vfmax g f => Sys2Proof.Machine.execVfmax g f s
  | .vfabs g f => Sys2Proof.Machine.execVfabs g f s
  | .vfneg g f => Sys2Proof.Machine.execVfneg g f s
  | .vfcpys g f => Sys2Proof.Machine.execVfcpys g f s
  | .vcmp g c f => Sys2Proof.Machine.execVcmp g c f s
  | .vcvt g src f => Sys2Proof.Machine.execVcvt g src f s
  | .vmov g f => Sys2Proof.Machine.execVmov g f s
  | .vsel g f => Sys2Proof.Machine.execVsel g f s
  | .vlane g f => Sys2Proof.Machine.execVlane g f s
  | .vget g f => Sys2Proof.Machine.execVget g f s
  | .vshfl g f => Sys2Proof.Machine.execVshfl g f s
  | .vbcast g f => Sys2Proof.Machine.execVbcast g f s
  | .vany g f => Sys2Proof.Machine.execVany g f s
  | .vall g f => Sys2Proof.Machine.execVall g f s
  | .vballot g f => Sys2Proof.Machine.execVballot g f s
  | .vredAdd g f => Sys2Proof.Machine.execVredAdd g f s
  | .vredFadd g f => Sys2Proof.Machine.execVredFadd g f s
  | .vdadd g f => Sys2Proof.Machine.execVdadd g f s
  | .vdsub g f => Sys2Proof.Machine.execVdsub g f s
  | .vdmul g f => Sys2Proof.Machine.execVdmul g f s
  | .vdfma g f => Sys2Proof.Machine.execVdfma g f s
  | .vdmin g f => Sys2Proof.Machine.execVdmin g f s
  | .vdmax g f => Sys2Proof.Machine.execVdmax g f s
  | .vdabs g f => Sys2Proof.Machine.execVdabs g f s
  | .vdneg g f => Sys2Proof.Machine.execVdneg g f s
  | .vfdiv g f => Sys2Proof.Machine.execVfdiv g f s
  | .vfsqrt g f => Sys2Proof.Machine.execVfsqrt g f s
  | .vddiv g f => Sys2Proof.Machine.execVddiv g f s
  | .vdsqrt g f => Sys2Proof.Machine.execVdsqrt g f s
  | .vidivu g f => Sys2Proof.Machine.execVidivu g f s
  | .vidivs g f => Sys2Proof.Machine.execVidivs g f s
  | .viremu g f => Sys2Proof.Machine.execViremu g f s
  | .virems g f => Sys2Proof.Machine.execVirems g f s
  | .vdcvt g src f => Sys2Proof.Machine.execVdcvt g src f s
  | .vdcmp g c f => Sys2Proof.Machine.execVdcmp g c f s
  | .ld g f => Sys2Proof.Machine.execLd g f s
  | .st g f => Sys2Proof.Machine.execSt g f s
  | .sld g f => Sys2Proof.Machine.execSld g f s
  | .sst g f => Sys2Proof.Machine.execSst g f s
  | .atom g f => Sys2Proof.Machine.execAtom g f s
  | .satom g f => Sys2Proof.Machine.execSatom g f s
  | .pf g f => Sys2Proof.Machine.execPf g f s
  | .lld g f => Sys2Proof.Machine.execLld g f s
  | .lst g f => Sys2Proof.Machine.execLst g f s
  | .lldR g f => Sys2Proof.Machine.execLldR g f s
  | .lstR g f => Sys2Proof.Machine.execLstR g f s
  | .mldS g f => Sys2Proof.Machine.execMldS g f s
  | .mmaW g f => Sys2Proof.Machine.execMmaW g f s
  | .mmaA g f => Sys2Proof.Machine.execMmaA g f s
  | .maccRd g f => Sys2Proof.Machine.execMaccRd g f s
  | .maccWr g f => Sys2Proof.Machine.execMaccWr g f s
  | .sivIsect g f => Sys2Proof.Machine.execSivIsect g f s
  | .sivUnion g f => Sys2Proof.Machine.execSivUnion g f s
  | .sivDiff g f => Sys2Proof.Machine.execSivDiff g f s
  | .sivProbe g f => Sys2Proof.Machine.execSivProbe g f s
  | .sivGather g f => Sys2Proof.Machine.execSivGather g f s
  | .sivScatter g f => Sys2Proof.Machine.execSivScatter g f s
  | .tlyAdd g f => Sys2Proof.Machine.execTlyAdd g f s
  | .tlySub g f => Sys2Proof.Machine.execTlySub g f s
  | .tlySetmax g f => Sys2Proof.Machine.execTlySetmax g f s
  | .tlyRead g f => Sys2Proof.Machine.execTlyRead g f s
  | .tlyWatch g f => Sys2Proof.Machine.execTlyWatch g f s
  | .tlyCancel g f => Sys2Proof.Machine.execTlyCancel g f s
  | .bra g f => Sys2Proof.Machine.execBra g f s
  | .call g f => Sys2Proof.Machine.execCall g f s
  | .brx g f => Sys2Proof.Machine.execBrx g f s
  | .callx g f => Sys2Proof.Machine.execCallx g f s
  | .ret g f => Sys2Proof.Machine.execRet g f s
  | .exitOp g f => Sys2Proof.Machine.execExitOp g f s
  | .yield g f => Sys2Proof.Machine.execYield g f s
  | .spin g f => Sys2Proof.Machine.execSpin g f s
  | .barG g f => Sys2Proof.Machine.execBarG g f s
  | .fenceOrd g f => Sys2Proof.Machine.execFenceOrd g f s
  | .fenceSeq g f => Sys2Proof.Machine.execFenceSeq g f s
  | .fenceDone g f => Sys2Proof.Machine.execFenceDone g f s
  | .brk g f => Sys2Proof.Machine.execBrk g f s
  | .pathSwitch g entry => Sys2Proof.Machine.execPathSwitch g entry s
  | .spinTimeout g entry => Sys2Proof.Machine.execSpinTimeout g entry s
  | .barrierStall g bar => Sys2Proof.Machine.execBarrierStall g bar s
  | .missNotice g load => Sys2Proof.Machine.execMissNotice g load s
  | .loadDataArrival g load => Sys2Proof.Machine.execLoadDataArrival g load s
  | .runAheadLimit g => Sys2Proof.Machine.execRunAheadLimit g s
  | .parkComplete g => Sys2Proof.Machine.execParkComplete g s
  | .groupWake watch => Sys2Proof.Machine.execGroupWake watch s
  | .replay station inst index g => Sys2Proof.Machine.execReplay station inst index g s
  | .instanceMigrate station inst core => Sys2Proof.Machine.execInstanceMigrate station inst core s
  | .coreRetire core => Sys2Proof.Machine.execCoreRetire core s
  | .storeDrain core entry => Sys2Proof.Machine.execStoreDrain core entry s
  | .writeAck g req => Sys2Proof.Machine.execWriteAck g req s
  | .fenceEndpointLost g w => Sys2Proof.Machine.execFenceEndpointLost g w s
  | .millOpStart core => Sys2Proof.Machine.execMillOpStart core s
  | .millBlockDrain core => Sys2Proof.Machine.execMillBlockDrain core s
  | .millRescaleRetry core => Sys2Proof.Machine.execMillRescaleRetry core s
  | .millComplete core cycles => Sys2Proof.Machine.execMillComplete core cycles s
  | .millFault core status => Sys2Proof.Machine.execMillFault core status s
  | .sieveComplete core => Sys2Proof.Machine.execSieveComplete core s
  | .sieveFault core status => Sys2Proof.Machine.execSieveFault core status s
  | .dmaTransferComplete queue entry => Sys2Proof.Machine.execDmaTransferComplete queue entry s
  | .nearStoreAtomic core hall => Sys2Proof.Machine.execNearStoreAtomic core hall s
  | .homeRead cls core ctx attr pa ecc => Sys2Proof.Machine.execHomeRead cls core ctx attr pa ecc s
  | .homeWrite cls core ctx attr pa data => Sys2Proof.Machine.execHomeWrite cls core ctx attr pa data s
  | .fillSectorArrival hall line sector ecc => Sys2Proof.Machine.execFillSectorArrival hall line sector ecc s
  | .victimWriteAccepted hall line => Sys2Proof.Machine.execVictimWriteAccepted hall line s
  | .poolWrite ctx epoch pa data => Sys2Proof.Machine.execPoolWrite ctx epoch pa data s
  | .epochOpen part => Sys2Proof.Machine.execEpochOpen part s
  | .epochCommit part => Sys2Proof.Machine.execEpochCommit part s
  | .epochDiscard part => Sys2Proof.Machine.execEpochDiscard part s
  | .epochCommandRefused part => Sys2Proof.Machine.execEpochCommandRefused part s
  | .epochSliceApply part epoch hall => Sys2Proof.Machine.execEpochSliceApply part epoch hall s
  | .epochSliceAck part epoch hall => Sys2Proof.Machine.execEpochSliceAck part epoch hall s
  | .poolFold hall => Sys2Proof.Machine.execPoolFold hall s
  | .unitSeal u => Sys2Proof.Machine.execUnitSeal u s
  | .unitDrainDone u => Sys2Proof.Machine.execUnitDrainDone u s
  | .unitUngate u => Sys2Proof.Machine.execUnitUngate u s
  | .patrolScrub pa pool ecc => Sys2Proof.Machine.execPatrolScrub pa pool ecc s
  | .pageWalk st ctx va => Sys2Proof.Machine.execPageWalk st ctx va s
  | .shootdown id st => Sys2Proof.Machine.execShootdown id st s
  | .shootdownAck id st => Sys2Proof.Machine.execShootdownAck id st s
  | .pageMoveRequest frame group => Sys2Proof.Machine.execPageMoveRequest frame group s
  | .pageCopyDone move => Sys2Proof.Machine.execPageCopyDone move s
  | .moveAbandoned move => Sys2Proof.Machine.execMoveAbandoned move s
  | .tierInterval part => Sys2Proof.Machine.execTierInterval part s
  | .refreshAdjust stack => Sys2Proof.Machine.execRefreshAdjust stack s
  | .regulatorWindow resource part held => Sys2Proof.Machine.execRegulatorWindow resource part held s
  | .gets core line => Sys2Proof.Machine.execGets core line s
  | .getm core line => Sys2Proof.Machine.execGetm core line s
  | .upgrade core line => Sys2Proof.Machine.execUpgrade core line s
  | .pute core line => Sys2Proof.Machine.execPute core line s
  | .putm core line => Sys2Proof.Machine.execPutm core line s
  | .invMsg core line => Sys2Proof.Machine.execInvMsg core line s
  | .fwdgets core line => Sys2Proof.Machine.execFwdgets core line s
  | .fwdgetm core line => Sys2Proof.Machine.execFwdgetm core line s
  | .invack core line => Sys2Proof.Machine.execInvack core line s
  | .dataMsg core line evict => Sys2Proof.Machine.execDataMsg core line evict s
  | .datahome core line => Sys2Proof.Machine.execDatahome core line s
  | .datainflight core line => Sys2Proof.Machine.execDatainflight core line s
  | .doneMsg core line => Sys2Proof.Machine.execDoneMsg core line s
  | .coherenceError part die line => Sys2Proof.Machine.execCoherenceError part die line s
  | .capRead mb => Sys2Proof.Machine.execCapRead mb s
  | .noticeAck mb => Sys2Proof.Machine.execNoticeAck mb s
  | .noticeSend => Sys2Proof.Machine.execNoticeSend s
  | .sessionGrace mb => Sys2Proof.Machine.execSessionGrace mb s
  | .ctxCreate mb => Sys2Proof.Machine.execCtxCreate mb s
  | .ctxDestroy mb => Sys2Proof.Machine.execCtxDestroy mb s
  | .ctxQuery mb => Sys2Proof.Machine.execCtxQuery mb s
  | .ctxSet mb => Sys2Proof.Machine.execCtxSet mb s
  | .bellLogRead mb => Sys2Proof.Machine.execBellLogRead mb s
  | .parkRead mb => Sys2Proof.Machine.execParkRead mb s
  | .memCreate mb => Sys2Proof.Machine.execMemCreate mb s
  | .memMap mb => Sys2Proof.Machine.execMemMap mb s
  | .memUnmap mb => Sys2Proof.Machine.execMemUnmap mb s
  | .memShare mb => Sys2Proof.Machine.execMemShare mb s
  | .memRelease mb => Sys2Proof.Machine.execMemRelease mb s
  | .memQuery mb => Sys2Proof.Machine.execMemQuery mb s
  | .commonsCreate mb => Sys2Proof.Machine.execCommonsCreate mb s
  | .commonsFill mb => Sys2Proof.Machine.execCommonsFill mb s
  | .commonsSeal mb => Sys2Proof.Machine.execCommonsSeal mb s
  | .commonsFree mb => Sys2Proof.Machine.execCommonsFree mb s
  | .queueCreate mb => Sys2Proof.Machine.execQueueCreate mb s
  | .queueDestroy mb => Sys2Proof.Machine.execQueueDestroy mb s
  | .queueDoorbell mb => Sys2Proof.Machine.execQueueDoorbell mb s
  | .queueQuery mb => Sys2Proof.Machine.execQueueQuery mb s
  | .stationDeclare mb => Sys2Proof.Machine.execStationDeclare mb s
  | .stationRemove mb => Sys2Proof.Machine.execStationRemove mb s
  | .tallyAlloc mb => Sys2Proof.Machine.execTallyAlloc mb s
  | .tallyFree mb => Sys2Proof.Machine.execTallyFree mb s
  | .tallySet mb => Sys2Proof.Machine.execTallySet mb s
  | .tallyExport mb => Sys2Proof.Machine.execTallyExport mb s
  | .tallyImport mb => Sys2Proof.Machine.execTallyImport mb s
  | .tallyRelease mb => Sys2Proof.Machine.execTallyRelease mb s
  | .tallyQuery mb => Sys2Proof.Machine.execTallyQuery mb s
  | .epochAllot mb => Sys2Proof.Machine.execEpochAllot mb s
  | .epochReturn mb => Sys2Proof.Machine.execEpochReturn mb s
  | .partPolicy mb => Sys2Proof.Machine.execPartPolicy mb s
  | .partConfig mb => Sys2Proof.Machine.execPartConfig mb s
  | .partQuiesce mb => Sys2Proof.Machine.execPartQuiesce mb s
  | .partResume mb => Sys2Proof.Machine.execPartResume mb s
  | .partReset mb => Sys2Proof.Machine.execPartReset mb s
  | .partMoveHalls mb => Sys2Proof.Machine.execPartMoveHalls mb s
  | .debugDump mb => Sys2Proof.Machine.execDebugDump mb s
  | .debugResume mb => Sys2Proof.Machine.execDebugResume mb s
  | .tableRead mb => Sys2Proof.Machine.execTableRead mb s
  | .doorbellStore queue tail => Sys2Proof.Machine.execDoorbellStore queue tail s
  | .queueCopy queue entry => Sys2Proof.Machine.execQueueCopy queue entry s
  | .queueFill queue entry => Sys2Proof.Machine.execQueueFill queue entry s
  | .queueToLarder queue entry => Sys2Proof.Machine.execQueueToLarder queue entry s
  | .queueFromLarder queue entry => Sys2Proof.Machine.execQueueFromLarder queue entry s
  | .queueWait queue entry => Sys2Proof.Machine.execQueueWait queue entry s
  | .queueRaise queue entry => Sys2Proof.Machine.execQueueRaise queue entry s
  | .queueNop queue entry => Sys2Proof.Machine.execQueueNop queue entry s
  | .queueEntryComplete queue entry => Sys2Proof.Machine.execQueueEntryComplete queue entry s
  | .queueSlotRotate part => Sys2Proof.Machine.execQueueSlotRotate part s
  | .notifyBellWrite watch => Sys2Proof.Machine.execNotifyBellWrite watch s
  | .bellToSteward watch => Sys2Proof.Machine.execBellToSteward watch s
  | .contextEvict ctx => Sys2Proof.Machine.execContextEvict ctx s
  | .residencyReturn ctx => Sys2Proof.Machine.execResidencyReturn ctx s
  | .contextLoss ctx => Sys2Proof.Machine.execContextLoss ctx s
  | .destroyOverrun ctx => Sys2Proof.Machine.execDestroyOverrun ctx s
  | .sessionGraceExpiry => Sys2Proof.Machine.execSessionGraceExpiry s
  | .instancePlaced station inst core => Sys2Proof.Machine.execInstancePlaced station inst core s
  | .linkDown => Sys2Proof.Machine.execLinkDown s
  | .linkUp mode => Sys2Proof.Machine.execLinkUp mode s
  | .foreignFrame => Sys2Proof.Machine.execForeignFrame s
  | .arpRequest partner ip => Sys2Proof.Machine.execArpRequest partner ip s
  | .ndSolicit partner ip => Sys2Proof.Machine.execNdSolicit partner ip s
  | .icmpEcho partner data => Sys2Proof.Machine.execIcmpEcho partner data s
  | .lldpTimer => Sys2Proof.Machine.execLldpTimer s
  | .eapolMka sak => Sys2Proof.Machine.execEapolMka sak s
  | .ptpSync master => Sys2Proof.Machine.execPtpSync master s
  | .ptpFollowUp master => Sys2Proof.Machine.execPtpFollowUp master s
  | .ptpDelayResp delay => Sys2Proof.Machine.execPtpDelayResp delay s
  | .ptpAnnounce interval => Sys2Proof.Machine.execPtpAnnounce interval s
  | .ptpHoldover => Sys2Proof.Machine.execPtpHoldover s
  | .folestOpen f => Sys2Proof.Machine.execFolestOpen f s
  | .folestClose f => Sys2Proof.Machine.execFolestClose f s
  | .folestReset f => Sys2Proof.Machine.execFolestReset f s
  | .folestNop f => Sys2Proof.Machine.execFolestNop f s
  | .mailboxFrame f => Sys2Proof.Machine.execMailboxFrame f s
  | .dmaWrite f => Sys2Proof.Machine.execDmaWrite f s
  | .dmaRead f => Sys2Proof.Machine.execDmaRead f s
  | .ingest f => Sys2Proof.Machine.execIngest f s
  | .ackFrame f => Sys2Proof.Machine.execAckFrame f s
  | .nackFrame f => Sys2Proof.Machine.execNackFrame f s
  | .keepalive f => Sys2Proof.Machine.execKeepalive f s
  | .retransmitTimeout => Sys2Proof.Machine.execRetransmitTimeout s
  | .delayedAck => Sys2Proof.Machine.execDelayedAck s
  | .keepaliveTimer => Sys2Proof.Machine.execKeepaliveTimer s
  | .sessionTimeout => Sys2Proof.Machine.execSessionTimeout s
  | .bindingIdle tally => Sys2Proof.Machine.execBindingIdle tally s
  | .egressPost ctx line data => Sys2Proof.Machine.execEgressPost ctx line data s
  | .eventFrameSend ctx => Sys2Proof.Machine.execEventFrameSend ctx s
  | .identify m => Sys2Proof.Machine.execIdentify m s
  | .stateRead m => Sys2Proof.Machine.execStateRead m s
  | .moduleReset m => Sys2Proof.Machine.execModuleReset m s
  | .sensorRead m => Sys2Proof.Machine.execSensorRead m s
  | .powerCap m => Sys2Proof.Machine.execPowerCap m s
  | .policy m => Sys2Proof.Machine.execPolicy m s
  | .policyState m => Sys2Proof.Machine.execPolicyState m s
  | .counterRead m => Sys2Proof.Machine.execCounterRead m s
  | .lifetimeRead m => Sys2Proof.Machine.execLifetimeRead m s
  | .histogramRead m => Sys2Proof.Machine.execHistogramRead m s
  | .logRead m => Sys2Proof.Machine.execLogRead m s
  | .provision m => Sys2Proof.Machine.execProvision m s
  | .macsecKey m => Sys2Proof.Machine.execMacsecKey m s
  | .timeSet m => Sys2Proof.Machine.execTimeSet m s
  | .fwBegin m => Sys2Proof.Machine.execFwBegin m s
  | .fwWrite m => Sys2Proof.Machine.execFwWrite m s
  | .fwVerify m sig => Sys2Proof.Machine.execFwVerify m sig s
  | .fwActivate m => Sys2Proof.Machine.execFwActivate m s
  | .fwStatus m => Sys2Proof.Machine.execFwStatus m s
  | .attestQuote m => Sys2Proof.Machine.execAttestQuote m s
  | .attestCert m => Sys2Proof.Machine.execAttestCert m s
  | .measureRead m => Sys2Proof.Machine.execMeasureRead m s
  | .mctpControl data => Sys2Proof.Machine.execMctpControl data s
  | .getPdr id => Sys2Proof.Machine.execGetPdr id s
  | .getSensorReading id => Sys2Proof.Machine.execGetSensorReading id s
  | .getStateSensorReadings id => Sys2Proof.Machine.execGetStateSensorReadings id s
  | .sensorSample sensor value => Sys2Proof.Machine.execSensorSample sensor value s
  | .powerCapInterval watts => Sys2Proof.Machine.execPowerCapInterval watts s
  | .thermalThrottle => Sys2Proof.Machine.execThermalThrottle s
  | .runAheadPolicy => Sys2Proof.Machine.execRunAheadPolicy s
  | .placementProposal station inst core => Sys2Proof.Machine.execPlacementProposal station inst core s
  | .gatingInterval u => Sys2Proof.Machine.execGatingInterval u s
  | .reeveRestart => Sys2Proof.Machine.execReeveRestart s
  | .lifetimeFlush => Sys2Proof.Machine.execLifetimeFlush s
  | .histogramTick => Sys2Proof.Machine.execHistogramTick s
  | .commonsRepaired obj block => Sys2Proof.Machine.execCommonsRepaired obj block s
  | .coreStateLost core => Sys2Proof.Machine.execCoreStateLost core s
  | .tallyCorrupt tally => Sys2Proof.Machine.execTallyCorrupt tally s
  | .endpointDead e => Sys2Proof.Machine.execEndpointDead e s
  | .moduleFailed status => Sys2Proof.Machine.execModuleFailed status s
  | .resetOverrun part => Sys2Proof.Machine.execResetOverrun part s
  | .modPwrEnRise => Sys2Proof.Machine.execModPwrEnRise s
  | .modPwrEnFall => Sys2Proof.Machine.execModPwrEnFall s
  | .modResetAssert => Sys2Proof.Machine.execModResetAssert s
  | .modResetRelease => Sys2Proof.Machine.execModResetRelease s
  | .bootVerify sigA sigB => Sys2Proof.Machine.execBootVerify sigA sigB s
  | .railGroupUp group => Sys2Proof.Machine.execRailGroupUp group s
  | .railFault rail => Sys2Proof.Machine.execRailFault rail s
  | .linkTrain link ok => Sys2Proof.Machine.execLinkTrain link ok s
  | .linkRetry link => Sys2Proof.Machine.execLinkRetry link s
  | .memoryTrainingDone badGroups badDies => Sys2Proof.Machine.execMemoryTrainingDone badGroups badDies s
  | .coreTestDone bad => Sys2Proof.Machine.execCoreTestDone bad s
  | .partitionRestore => Sys2Proof.Machine.execPartitionRestore s
  | .bootTrialTimeout => Sys2Proof.Machine.execBootTrialTimeout s
  | .refclkLost => Sys2Proof.Machine.execRefclkLost s
  | .ethrefLost => Sys2Proof.Machine.execEthrefLost s
  | .ethrefReturn => Sys2Proof.Machine.execEthrefReturn s
  | .inputFault => Sys2Proof.Machine.execInputFault s
  | .inputRecovered => Sys2Proof.Machine.execInputRecovered s
  | .bladeLost blade => Sys2Proof.Machine.execBladeLost blade s
  | .bladeReturn blade => Sys2Proof.Machine.execBladeReturn blade s
  | .thermalTrip sensor => Sys2Proof.Machine.execThermalTrip sensor s
  | .ppsInEdge => Sys2Proof.Machine.execPpsInEdge s
  | .ppsOutPulse => Sys2Proof.Machine.execPpsOutPulse s
  | .jtagBypass => Sys2Proof.Machine.execJtagBypass s
  | .jtagIdcode => Sys2Proof.Machine.execJtagIdcode s
  | .jtagSamplePreload => Sys2Proof.Machine.execJtagSamplePreload s
  | .jtagExtest pins => Sys2Proof.Machine.execJtagExtest pins s
  | .illegalOpcode g w x => Sys2Proof.Machine.execIllegalOpcode g w x s
  | .queueWaitRetry queue => Sys2Proof.Machine.execQueueWaitRetry queue s
  | .delayReqTimer => Sys2Proof.Machine.execDelayReqTimer s
  | .mkaPeerLost => Sys2Proof.Machine.execMkaPeerLost s
  | .inputPowerApplied => Sys2Proof.Machine.execInputPowerApplied s
  | .dynamicAddressAssignment addr => Sys2Proof.Machine.execDynamicAddressAssignment addr s
  | .rxFrameDropped cause => Sys2Proof.Machine.execRxFrameDropped cause s
  | .jtagTrst => Sys2Proof.Machine.execJtagTrst s

end Sys2Proof.Machine
end

