-- ==== Sys2Proof/Safety.lean ====
section
/-! DEFINITION. What counts as a sound state of the module, and when an instruction issues and completes, in the terms the
claims use. -/

namespace Sys2Proof.Machine

/-- Memory is in its canonical form: addresses strictly rising, no byte listed that reads as an unlisted one. -/
def Memory.wf : List Host.Cell → Bool
  | [] => true
  | [c] => decide (c.2 ≠ 0)
  | a :: b :: t => decide (a.2 ≠ 0) && decide (a.1 < b.1) && Memory.wf (b :: t)

/-- The instruction with the issue record `x` issues in the group `k` of slot `g` (R49, R82, R85, R93, R109): the group
may issue and is not in run-ahead, the fetch succeeds and leaves `s1`, there is no decode fault, nothing it reads or
writes is on its way, and at least one lane is active. -/
structure Issues (x : Iss) (g : Grp) (s : State) (k : Group) (s1 : State) (act : W32) : Prop where
  slot : s.group? g = some k
  can : canIssue s k = true
  noRunAhead : k.ra = none
  fetched : fetch s g k (instrLen x.ext) = (s1, none)
  legal : x.bad = none
  free : mustWait x s g k = false
  lanes : k.lanesOn x.gp x.gn = act
  active : act ≠ 0

/-- The state in which the instruction has completed: the group is `k'` with its path at the next instruction. -/
def completed (x : Iss) (g : Grp) (s1 : State) (k' : Group) : State := s1.setGroup g (goOn k' (nextPc k' x.ext))

/-- Mailbox `mb` holds the request `m` for the command `cmd`; it has not been started and its turn has come (R352, R353). -/
structure Asked (s : State) (mb cmd : Nat) (m : Mailbox) : Prop where
  box : tfind s.mailboxes mb = some m
  command : msgCmd m.msg = cmd
  idle : m.waiting = false
  unanswered : m.response = none
  turn : s.blocked m = false

/-- A request with payload `pl` for a command that names no context passes the checks of R354. -/
structure Asks (s : State) (mb cmd : Nat) (pl : List Byte) : Prop where
  asked : ∃ m, Asked s mb cmd m ∧ msgPayload m.msg = pl
  module : s.power.st ≠ .failed ∨ cmd = 1

/-- A request with payload `pl` in the name of the context `x`, number `c`, passes the checks of R354. -/
structure AsksFor (s : State) (mb cmd : Nat) (pl : List Byte) (c : Nat) (x : Context) : Prop where
  asked : ∃ m, Asked s mb cmd m ∧ msgPayload m.msg = pl ∧ msgCtx m.msg = c ∧ msgGen m.msg = x.gen
  module : s.power.st ≠ .failed
  named : s.ctx? c = some x
  state : x.state = .active ∨ (x.state = .lost ∧ (cmdSpec cmd).map (·.1) = some .live)
  up : (s.part x.part).state ≠ .down

/-- Two tables of slices differ at most in the cache lines and the fills of their slices. -/
def SameSlices (a b : Table Slice) : Prop :=
  ∀ h, ∃ lines fills, tget Slice.reset b h = { tget Slice.reset a h with lines := lines, fills := fills }

/-- `t` is `s` but for what a translation may change: TLB and walk cache entries, the draw of a victim, what reading a table
entry leaves in its home slice (its lines and fills, the heat table, the counters and the regulators), and the event log
(R278, R280, R282, R453). -/
def OnlyTranslated (s t : State) : Prop :=
  ∃ spare tlb walks slices heat counters regs events severe life lost, t = { s with
    spare := spare, tlb := tlb, walkCache := walks, slices := slices, heat := heat, counters := counters, regs := regs
    flash := { s.flash with events := events, severe := severe }
    reeve := { s.reeve with life := life, eventsLost := lost } } ∧ SameSlices s.slices slices

end Sys2Proof.Machine
end

