-- ==== Sys2Proof/Certificates/Slice0/Obligations.lean ====
section
/-! DEFINITION. The statements for the provers. A statement of an instruction's result is an equation for the whole next
state under hypotheses on the state and the operands alone, so it says what changes, that nothing else does, and that the
instruction completes; `Issues` and `completed` stand in Safety.lean. -/

namespace Sys2Proof.Claims

open Sys2Proof.Machine

/-! ## Class S -/

/-- The scalar operations of two sources, with the value the manual gives each (*Table 4-12*, R105). -/
def scalarRows : List ((Grp → RI → Instr) × (W64 → W64 → W64)) := [
  (.sadd, fun a b => a + b), (.ssub, fun a b => a - b), (.smul, fun a b => a * b),
  (.smulhu, fun a b => BitVec.ofNat 64 (a.toNat * b.toNat / 2 ^ 64)),
  (.smulhs, fun a b => BitVec.ofInt 64 (a.toInt * b.toInt / 2 ^ 64)),
  (.sdivu, fun a b => if b = 0 then BitVec.allOnes 64 else a / b),
  (.sdivs, fun a b => if b = 0 then BitVec.allOnes 64 else a.sdiv b),
  (.sremu, fun a b => if b = 0 then a else a % b),
  (.srems, fun a b => if b = 0 then a else a.srem b),
  (.sand, fun a b => a &&& b), (.sor, fun a b => a ||| b), (.sxor, fun a b => a ^^^ b), (.sandn, fun a b => a &&& ~~~b),
  (.sshl, fun a b => a <<< (b.toNat % 64)), (.sshr, fun a b => a >>> (b.toNat % 64)),
  (.ssar, fun a b => a.sshiftRight (b.toNat % 64)), (.sror, fun a b => a.rotateRight (b.toNat % 64)),
  (.smin, fun a b => if a.slt b then a else b), (.smax, fun a b => if a.slt b then b else a),
  (.sminu, fun a b => if a.ult b then a else b), (.smaxu, fun a b => if a.ult b then b else a),
  (.sslt, fun a b => if a.slt b then 1 else 0), (.ssltu, fun a b => if a.ult b then 1 else 0),
  (.sseq, fun a b => if decide (a = b) then 1 else 0)]

/-- The scalar operations of one source that write a scalar register or a predicate: operand kinds and value. -/
def scalarUnRows : List ((Grp → RI → Instr) × List Kind × List Kind × (W64 → W64)) := [
  (.smov, [.s, .p, .x, .z], [.s, .p, .z], fun a => a),
  (.spopc, [.s, .p, .x, .z], [.s, .p, .z], fun a => w64 (popCount a)),
  (.sclz, [.s, .p, .x, .z], [.s, .p, .z], fun a => w64 (clz a)),
  (.sctz, [.s, .p, .x, .z], [.s, .p, .z], fun a => w64 (ctz a)),
  (.spget, [.p], [.s, .z], fun a => a)]

/-- The control registers that SRDCR reads (*Table 4-15*): number and value. -/
def crRows : List (Nat × (State → Grp → Group → W64)) := [
  (0x000, fun _ _ k => k.live.setWidth 64), (0x001, fun _ _ k => w64 k.barWdog),
  (0x002, fun _ _ k => k.runAheadMax.setWidth 64), (0x004, fun _ g k => groupId g k), (0x005, fun _ _ k => w64 k.gen),
  (0x006, fun _ _ k => w64 k.station), (0x008, fun s _ _ => w64 s.now), (0x009, fun s g _ => w64 (islandCycles s g.core)),
  (0x00A, fun _ _ k => if k.debug then 1 else 0)]

/-- What issue needs of SRDCR and WRCR. -/
def srdcrIss (s : State) (g : Grp) (f : IWord) : Iss :=
  { ext := f.ext, gp := f.gp, gn := f.gn, cls := .alu, access := false, alone := false,
    reads := [0x140 + f.gp.toNat], writes := regsOf f.dst 1
    bad := illegalUnless (decide (f.a = opZero) && accepts (s.vregsOf g) false [.s] f.dst && decide (f.mod = 0) &&
      immOk (.i f) && crListed (crNumber f)) }

def wrcrIss (s : State) (g : Grp) (f : IWord) : Iss :=
  { ext := f.ext, gp := f.gp, gn := f.gn, cls := .ender, access := false, alone := false,
    reads := regsOf f.a 1 ++ [0x140 + f.gp.toNat], writes := []
    bad := illegalUnless (accepts (s.vregsOf g) f.ext.isSome [.s, .x] f.a && decide (f.dst = opZero) && decide (f.mod = 0) &&
      (f.imm == 1 || f.imm == 2)) }

end Sys2Proof.Claims

open Sys2Proof Sys2Proof.Machine Sys2Proof.Claims

/-- Every scalar operation of two sources that issues writes its value to DST, in both forms, and completes (R105, *Table
4-12*): nothing but the group's destination register and its path changes after the fetch. -/
def Sys2Proof.Claims.ScalarTwoSourceResult : Prop :=
  ∀ row ∈ scalarRows, ∀ (g : Grp) (f : RI) (s s1 : State) (k : Group) (act : W32),
    Issues (scalarIss s g f [.s, .x, .z] [.s, .x, .z] [.s, .z]) g s k s1 act →
    exec (row.1 g f) s = .next (completed (scalarIss s g f [.s, .x, .z] [.s, .x, .z] [.s, .z]) g s1
      (k.putS (Ops3.of f).dst (row.2 (k.opS (Ops3.of f).ext (Ops3.of f).a) ((Ops3.of f).bS k))))

/-- SMOV, SPOPC, SCLZ, SCTZ, SPGET and SPSET: the value goes to the scalar destination, or to the active lanes of a predicate;
SPSET writes all 32 bits of its predicate (R86). SRDCR writes the value of its control register, WRCR stores CR_BAR_WDOG
clamped to 12 to 32 and CR_RUNAHEAD (R66, R71, R107). -/
def Sys2Proof.Claims.ScalarOneSourceAndControlResult : Prop :=
  (∀ row ∈ scalarUnRows, ∀ (g : Grp) (f : RI) (s s1 : State) (k : Group) (act : W32),
    Issues (scalarIss s g f row.2.1 [.z] row.2.2.1) g s k s1 act →
    exec (row.1 g f) s = .next (completed (scalarIss s g f row.2.1 [.z] row.2.2.1) g s1
      (k.putD (Ops3.of f).dst act (row.2.2.2 (k.opS (Ops3.of f).ext (Ops3.of f).a))))) ∧
  (∀ (g : Grp) (f : RI) (s s1 : State) (k : Group) (act : W32),
    Issues (scalarIss s g f [.s, .p, .x, .z] [.z] [.p]) g s k s1 act →
    exec (.spset g f) s = .next (completed (scalarIss s g f [.s, .p, .x, .z] [.z] [.p]) g s1
      (k.setPred ((Ops3.of f).dst.toNat - 0x140) ((k.opS (Ops3.of f).ext (Ops3.of f).a).setWidth 32)))) ∧
  (∀ row ∈ crRows, ∀ (g : Grp) (f : IWord) (s s1 : State) (k : Group) (act : W32),
    Issues (srdcrIss s g f) g s k s1 act → crNumber f = row.1 →
    exec (.srdcr g f) s = .next (completed (srdcrIss s g f) g s1 (k.putS f.dst (row.2 s1 g k)))) ∧
  (∀ (g : Grp) (f : IWord) (s s1 : State) (k : Group) (act : W32), Issues (wrcrIss s g f) g s k s1 act →
    (f.imm = 1 → (k.opS f.ext f.a).toNat < 64 →
      exec (.wrcr g f) s = .next (completed (wrcrIss s g f) g s1
        { k with barWdog := max 12 (min 32 (k.opS f.ext f.a).toNat) })) ∧
    (f.imm = 2 → (k.opS f.ext f.a).toNat < 4096 →
      exec (.wrcr g f) s = .next (completed (wrcrIss s g f) g s1
        { k with runAheadMax := (k.opS f.ext f.a).setWidth 12 })))


namespace Sys2Proof.Claims

open Sys2Proof.Machine

/-! ## Classes V and V64 -/

/-- In every state in which instruction `c` with the issue record `x` issues in slot `g`, it completes, and after the fetch
nothing changes but the group, which becomes `out` with its path at the next instruction. -/
def Gives (c : Instr) (g : Grp) (x : State → Iss) (out : Group → W32 → Group) : Prop :=
  ∀ (s s1 : State) (k : Group) (act : W32), Issues (x s) g s k s1 act →
    exec c s = .next (completed (x s) g s1 (out k act))

/-- The integer operations of two sources on an element of any width (*Table 4-12* opcodes 0x10 and 0x11, R105). -/
def vecRows : List ((Grp → RI → Instr) × ((n : Nat) → BitVec n → BitVec n → BitVec n)) := [
  (.vadd, fun _ a b => a + b), (.vsub, fun _ a b => a - b), (.vmul, fun _ a b => a * b),
  (.vmulhu, fun n a b => BitVec.ofNat n (a.toNat * b.toNat / 2 ^ n)),
  (.vmulhs, fun n a b => BitVec.ofInt n (a.toInt * b.toInt / 2 ^ n)),
  (.vmin, fun _ a b => if a.slt b then a else b), (.vmax, fun _ a b => if a.slt b then b else a),
  (.vminu, fun _ a b => if a.ult b then a else b), (.vmaxu, fun _ a b => if a.ult b then b else a),
  (.vand, fun _ a b => a &&& b), (.vor, fun _ a b => a ||| b), (.vxor, fun _ a b => a ^^^ b), (.vandn, fun _ a b => a &&& ~~~b),
  (.vshl, fun n a b => a <<< (b.toNat % n)), (.vshr, fun n a b => a >>> (b.toNat % n)),
  (.vsar, fun n a b => a.sshiftRight (b.toNat % n))]

/-- The integer operations of one source. -/
def vecUnRows : List ((Grp → RI → Instr) × ((n : Nat) → BitVec n → BitVec n)) := [
  (.vpopc, fun n a => BitVec.ofNat n (popCount a)), (.vclz, fun n a => BitVec.ofNat n (clz a)), (.vbrev, fun n a => revBits n a)]

/-- The floating-point operations on the elements of 32-bit lanes: what SRC_B and SRC_C may hold, and the value with its
exception flags (R102 to R104). -/
def fpRows : List ((Grp → RWord → Instr) × List Kind × List Kind × (Fmt → Rm → Nat → Nat → Nat → Nat × Nat)) := [
  (.vfadd, [.v, .s, .x], [.z], fun t rm a b _ => t.add rm a b),
  (.vfsub, [.v, .s, .x], [.z], fun t rm a b _ => t.sub rm a b),
  (.vfmul, [.v, .s, .x], [.z], fun t rm a b _ => t.mul rm a b),
  (.vffma, [.v, .s, .x], [.v, .s, .x], fun t rm a b c => t.fma rm a b c),
  (.vfmin, [.v, .s, .x], [.z], fun t _ a b _ => t.minmax false a b),
  (.vfmax, [.v, .s, .x], [.z], fun t _ a b _ => t.minmax true a b),
  (.vfabs, [.z], [.z], fun t _ a _ _ => (t.abs a, 0)),
  (.vfneg, [.z], [.z], fun t _ a _ _ => (t.flip a, 0)),
  (.vfcpys, [.v, .s, .x], [.z], fun t _ a b _ => (t.copySign a b, 0))]

/-- The elements of a lane under a floating-point operation, with the flags of all of them. -/
def fpLane (op : Fmt → Rm → Nat → Nat → Nat → Nat × Nat) (f : RWord) (k : Group) (i : Nat) : W32 × Nat :=
  packElems (modType f.mod) fun e => op (fmtOf (modType f.mod)) (rmOf k f.mod)
    (elemOf (modType f.mod) (k.opL f.ext f.a i).toNat e) (elemOf (modType f.mod) (k.opL f.ext f.b i).toNat e)
    (elemOf (modType f.mod) (k.opL f.ext f.c i).toNat e)

/-- The FP64 operations on register pairs (*Table 4-12* opcodes 0x20 and 0x22). -/
def fp64Rows : List ((Grp → RWord → Instr) × List Kind × List Kind × (Rm → Nat → Nat → Nat → Nat × Nat)) := [
  (.vdadd, [.pr], [.z], fun rm a b _ => f64.add rm a b), (.vdsub, [.pr], [.z], fun rm a b _ => f64.sub rm a b),
  (.vdmul, [.pr], [.z], fun rm a b _ => f64.mul rm a b), (.vdfma, [.pr], [.pr], fun rm a b c => f64.fma rm a b c),
  (.vdmin, [.pr], [.z], fun _ a b _ => f64.minmax false a b), (.vdmax, [.pr], [.z], fun _ a b _ => f64.minmax true a b),
  (.vdabs, [.z], [.z], fun _ a _ _ => (f64.abs a, 0)), (.vdneg, [.z], [.z], fun _ a _ _ => (f64.flip a, 0)),
  (.vddiv, [.pr], [.z], fun rm a b _ => f64.div rm a b), (.vdsqrt, [.z], [.z], fun rm a _ _ => f64.sqrt rm a)]

/-- An FP64 operation in one lane. -/
def fp64Lane (op : Rm → Nat → Nat → Nat → Nat × Nat) (f : RWord) (k : Group) (i : Nat) : Nat × Nat :=
  op (rmOf k f.mod) (k.opPair f.a i).toNat (k.opPair f.b i).toNat (k.opPair f.c i).toNat

/-- The divide and square root of 32-bit lanes (opcode 0x21). -/
def fpDivRows : List ((Grp → RWord → Instr) × List Kind × (Fmt → Rm → Nat → Nat → Nat × Nat)) := [
  (.vfdiv, [.v], fun t rm a b => t.div rm a b), (.vfsqrt, [.z], fun t rm a _ => t.sqrt rm a)]

/-- The 32-bit integer divides: division by zero gives all ones, the remainder then the dividend (R105). -/
def intDivRows : List ((Grp → RWord → Instr) × (W32 → W32 → W32)) := [
  (.vidivu, fun a b => if b = 0 then BitVec.allOnes 32 else a / b),
  (.vidivs, fun a b => if b = 0 then BitVec.allOnes 32 else a.sdiv b),
  (.viremu, fun a b => if b = 0 then a else a % b), (.virems, fun a b => if b = 0 then a else a.srem b)]

/-- The moves of 32-bit values (opcode 0x15) and the shuffles of 0x16 that write a vector register: the kinds of SRC_A, SRC_B
and SRC_C and the value of lane `i` (R106). -/
def moveRows : List ((Grp → RWord → Instr) × List Kind × List Kind × List Kind × (RWord → Group → Nat → W32)) := [
  (.vmov, [.v, .s, .x], [.z], [.z], fun f k i => k.opL f.ext f.a i),
  (.vsel, [.v, .s, .x], [.v, .s, .x], [.p], fun f k i =>
    if k.opL f.ext f.c i = 1 then k.opL f.ext f.a i else k.opL f.ext f.b i),
  (.vlane, [.z], [.z], [.z], fun _ _ i => w32 i),
  (.vshfl, [.v], [.v, .s, .x], [.z], fun f k i => k.opL f.ext f.a ((k.opL f.ext f.b i).toNat % 32)),
  (.vbcast, [.v], [.s, .x], [.z], fun f k _ => k.opL f.ext f.a ((k.opS f.ext f.b).toNat % 32))]

/-- The cross-lane operations that write a scalar register: kinds, whether MOD is legal, and the value (R106). -/
def crossRows : List ((Grp → RWord → Instr) × List Kind × List Kind × (BitVec 9 → Bool) × (RWord → Group → W32 → W64)) := [
  (.vget, [.v], [.s, .x], fun m => decide (m = 0), fun f k _ =>
    (k.opL f.ext f.a ((k.opS f.ext f.b).toNat % 32)).setWidth 64),
  (.vany, [.p], [.z], fun m => decide (m = 0), fun f k act => if k.pred (f.a.toNat - 0x140) &&& act ≠ 0 then 1 else 0),
  (.vall, [.p], [.z], fun m => decide (m = 0), fun f k act => if k.pred (f.a.toNat - 0x140) &&& act = act then 1 else 0),
  (.vballot, [.p], [.z], fun m => decide (m = 0), fun f k act => (k.pred (f.a.toNat - 0x140) &&& act).setWidth 64),
  (.vredAdd, [.v], [.z], fun m => modIntOk m && (modType m == 9 || modType m == 10), fun f k act =>
    (maskList act).foldl (fun acc i =>
      acc + (if modType f.mod = 9 then (k.opL f.ext f.a i).signExtend 64 else (k.opL f.ext f.a i).setWidth 64)) 0)]

end Sys2Proof.Claims

/-- Every integer operation of class V works on each element of each active lane and leaves the other lanes of DST (R94, R105,
*Table 4-12*), in both forms. -/
def Sys2Proof.Claims.VectorIntegerResult : Prop :=
  (∀ row ∈ vecRows, ∀ (g : Grp) (f : RI),
    Gives (row.1 g f) g (fun s => vecIss s g f [.v, .s, .x, .z]) fun k act =>
      k.putV (Ops3.of f).dst.toNat act fun i => onElems (modType (Ops3.of f).mod) row.2
        (k.opL (Ops3.of f).ext (Ops3.of f).a i) ((Ops3.of f).bL k i)) ∧
  (∀ row ∈ vecUnRows, ∀ (g : Grp) (f : RI),
    Gives (row.1 g f) g (fun s => vecIss s g f [.z]) fun k act =>
      k.putV (Ops3.of f).dst.toNat act fun i => onElems (modType (Ops3.of f).mod) (fun n a _ => row.2 n a)
        (k.opL (Ops3.of f).ext (Ops3.of f).a i) 0) ∧
  (∀ row ∈ intDivRows, ∀ (g : Grp) (f : RWord),
    Gives (row.1 g f) g (fun s => rIss s g f true [.v] [.v] [.z] [.v] 1 1 (decide (f.mod = 0))) fun k act =>
      k.putV f.dst.toNat act fun i => row.2 (k.opL f.ext f.a i) (k.opL f.ext f.b i))

/-- Every floating-point operation of classes V and V64 writes its rounded value to the active lanes of DST and, with FLG set,
ORs the exception flags of the active lanes into s63 (R94, R102 to R104). -/
def Sys2Proof.Claims.VectorFloatResult : Prop :=
  (∀ row ∈ fpRows, ∀ (g : Grp) (f : RWord),
    Gives (row.1 g f) g (fun s => rIss s g f false [.v, .s, .x] row.2.1 row.2.2.1 [.v] 1 1 (isFp32 f.mod)) fun k act =>
      recordFlags (k.putV f.dst.toNat act fun i => (fpLane row.2.2.2 f k i).1) f.mod
        (orFlags act fun i => (fpLane row.2.2.2 f k i).2)) ∧
  (∀ row ∈ fpDivRows, ∀ (g : Grp) (f : RWord),
    Gives (row.1 g f) g (fun s => rIss s g f true [.v] row.2.1 [.z] [.v] 1 1 (isFp32 f.mod)) fun k act =>
      recordFlags (k.putV f.dst.toNat act fun i => (fpLane (fun t rm a b _ => row.2.2 t rm a b) f k i).1) f.mod
        (orFlags act fun i => (fpLane (fun t rm a b _ => row.2.2 t rm a b) f k i).2)) ∧
  (∀ row ∈ fp64Rows, ∀ (g : Grp) (f : RWord),
    Gives (row.1 g f) g (fun s => rIss s g f true [.pr] row.2.1 row.2.2.1 [.pr] 2 2 (modFpOk f.mod && modType f.mod == 8))
      fun k act =>
        recordFlags (k.putPair f.dst act fun i => w64 (fp64Lane row.2.2.2 f k i).1) f.mod
          (orFlags act fun i => (fp64Lane row.2.2.2 f k i).2))

/-- The moves and shuffles write the active lanes of DST, whatever lane they read (R106); VSEL selects by a predicate; the
cross-lane operations write one scalar register, from the active lanes alone. -/
def Sys2Proof.Claims.MoveAndCrossLaneResult : Prop :=
  (∀ row ∈ moveRows, ∀ (g : Grp) (f : RWord),
    Gives (row.1 g f) g (fun s => rIss s g f false row.2.1 row.2.2.1 row.2.2.2.1 [.v] 1 1 (decide (f.mod = 0))) fun k act =>
      k.putV f.dst.toNat act (row.2.2.2.2 f k)) ∧
  (∀ row ∈ crossRows, ∀ (g : Grp) (f : RWord),
    Gives (row.1 g f) g (fun s => rIss s g f false row.2.1 row.2.2.1 [.z] [.s] 1 1 (row.2.2.2.1 f.mod)) fun k act =>
      k.putS f.dst (row.2.2.2.2 f k act)) ∧
  (∀ (g : Grp) (f : RWord),
    Gives (.vredFadd g f) g (fun s => rIss s g f false [.v] [.z] [.z] [.s] 1 1 (modFpOk f.mod && modType f.mod == 4))
      fun k act =>
        let sum := redFadd (rmOf k f.mod) ((maskList act).map fun i => (k.opL f.ext f.a i).toNat)
        recordFlags (k.putS f.dst (w64 sum.1)) f.mod sum.2)

/-- A compare sets the predicate's bit of an active lane when the condition holds for every element of the lane, and a
conversion writes the converted elements, destination elements beyond the source's being 0 (R515, R516). -/
def Sys2Proof.Claims.CompareAndConvertResult : Prop :=
  (∀ (g : Grp) (c : Cond) (f : RWord),
    Gives (.vcmp g c f) g (fun s => rIss s g f false [.v, .s, .x] [.v, .s, .x] [.z] [.p] 1 1 (cmpTypeOk c f.mod)) fun k act =>
      recordFlags (k.putP f.dst act (maskOf fun i =>
          (cmpLane c (modType f.mod) (k.opL f.ext f.a i).toNat (k.opL f.ext f.b i).toNat).1)) f.mod
        (orFlags act fun i => (cmpLane c (modType f.mod) (k.opL f.ext f.a i).toNat (k.opL f.ext f.b i).toNat).2)) ∧
  (∀ (g : Grp) (c : Cond) (f : RWord),
    Gives (.vdcmp g c f) g (fun s => rIss s g f true [.pr] [.pr] [.z] [.p] 2 1
        (modFpOk f.mod && modType f.mod == 8 && decide (c ≠ .ltu) && decide (c ≠ .geu))) fun k act =>
      recordFlags (k.putP f.dst act (maskOf fun i => (f64.cmp c (k.opPair f.a i).toNat (k.opPair f.b i).toNat).1)) f.mod
        (orFlags act fun i => (f64.cmp c (k.opPair f.a i).toNat (k.opPair f.b i).toNat).2)) ∧
  (∀ (g : Grp) (src : BitVec 4) (f : RWord),
    Gives (.vcvt g src f) g (fun s => rIss s g f true [.v, .s] [.z] [.z] [.v] 1 1
        (type32 src.toNat && type32 (modType f.mod) && decide (src.toNat ≠ modType f.mod) && modFpOk f.mod)) fun k act =>
      recordFlags (k.putV f.dst.toNat act fun i =>
          w32 (convLane (rmOf k f.mod) src.toNat (modType f.mod) (k.opL f.ext f.a i).toNat).1) f.mod
        (orFlags act fun i => (convLane (rmOf k f.mod) src.toNat (modType f.mod) (k.opL f.ext f.a i).toNat).2)) ∧
  (∀ (g : Grp) (src : BitVec 4) (f : RWord),
    Gives (.vdcvt g src f) g (fun s => rIss s g f true [if type64 src.toNat then .pr else .v] [.z] [.z]
        [if type64 (modType f.mod) then .pr else .v] (if type64 src.toNat then 2 else 1)
        (if type64 (modType f.mod) then 2 else 1)
        ((type32 src.toNat || type64 src.toNat) && (type32 (modType f.mod) || type64 (modType f.mod)) &&
          (type64 src.toNat || type64 (modType f.mod)) && decide (src.toNat ≠ modType f.mod) && modFpOk f.mod)) fun k act =>
      let r := fun i => convLane (rmOf k f.mod) src.toNat (modType f.mod)
        (if type64 src.toNat then (k.opPair f.a i).toNat else (k.opL f.ext f.a i).toNat)
      recordFlags (if type64 (modType f.mod) then k.putPair f.dst act fun i => w64 (r i).1
          else k.putV f.dst.toNat act fun i => w32 (r i).1) f.mod (orFlags act fun i => (r i).2))

namespace Sys2Proof.Claims

open Sys2Proof.Machine

/-! ## Class M -/

/-- The active lanes of an access that needs `need` of its pages pass every check of the memory pipeline (R89, R116): the
checks leave `s2`, and `as` lists lane, virtual address, physical address and leaf. -/
structure Aims (g : Grp) (f : MWord) (atom scalar : Bool) (need : Need) (attr : W64 → Nat → Bool) (s1 : State) (k : Group)
    (act : W32) (s2 : State) (as : List (Nat × Nat × Nat × W64)) : Prop where
  state : (lanesAccess s1 g k need (szBytes f.sz) attr (memAddrs k act atom scalar f)).1 = s2
  clean : lanesRes (lanesAccess s1 g k need (szBytes f.sz) attr (memAddrs k act atom scalar f)).2 = none
  lanes : lanesOk (lanesAccess s1 g k need (szBytes f.sz) attr (memAddrs k act atom scalar f)).2 = as

/-- What issue needs of LD and SLD, of ST and SST. -/
def loadIss (f : MWord) (g : Grp) (scalar : Bool) (s : State) : Iss :=
  memIss s g f .load false scalar (if scalar then [0, 1, 2, 3, 4, 5] else [0, 1, 2, 3, 4, 5, 6]) (dataKinds scalar f.sz)
    true false false (dispOk f)

def storeIss (f : MWord) (g : Grp) (scalar : Bool) (s : State) : Iss :=
  memIss s g f .store false scalar (if scalar then [0, 2, 4, 5] else [0, 2, 4, 5, 6]) (dataKinds scalar f.sz)
    false true true (dispOk f)

def pfIss (f : MWord) (g : Grp) (s : State) : Iss :=
  memIss s g f .load false false [0, 1, 2, 3, 4, 5, 6] [.z] false false true (dispOk f)

def loadRows : List ((Grp → MWord → Instr) × Bool) := [(.ld, false), (.sld, true)]
def storeRows : List ((Grp → MWord → Instr) × Bool) := [(.st, false), (.sst, true)]
def atomRows : List ((Grp → MWord → Instr) × Bool) := [(.atom, false), (.satom, true)]

/-- The path of slot `g` moves past the instruction in a state. -/
def passed (s : State) (g : Grp) (ext : Option W64) : State := s.modGroup g fun k => goOn k (nextPc k ext)

end Sys2Proof.Claims

/-- LD and SLD: with every byte at hand the home slices are read and the values go to DATA, extended by SZ, with forwarded
bytes from the group's own entries (R89, R94, R95, R237, R244, R305); while a home still takes a line back, the load waits
(R323); with lines missing the load waits for them and the path goes on; a device page is read only when the group's older
loads and atomics have completed and its stores have drained (R72, R307). PF changes nothing but what its prefetches bring. -/
def Sys2Proof.Claims.LoadResult : Prop :=
  (∀ row ∈ loadRows, ∀ (g : Grp) (f : MWord) (s s1 s2 : State) (k : Group) (act : W32) (as : List (Nat × Nat × Nat × W64)),
    Issues (loadIss f g row.2 s) g s k s1 act → Aims g f false row.2 .r (attrPlain (szBytes f.sz)) s1 k act s2 as →
    (as.any (fun a => s2.onDevice a.2.2.1) = true → k.memBusy = false → s2.sbOf g = [] →
      exec (row.1 g f) s = .next (completed (loadIss f g row.2 s) g s2 (putLoaded k f.data f.sz row.2
        (as.map fun a => (a.1, (deviceLoad s2 k.ctx a.2.2.1 (szBytes f.sz)).toNat))))) ∧
    (as.any (fun a => s2.onDevice a.2.2.1) = false → sameLine k as = false →
      (k.loads.any fun l => readsSame l as (szBytes f.sz)) = false →
      ∀ s3, demandRead s2 g.core (as.map fun a => lineNo a.2.2.1) = s3 →
      (loadMissing s3 g k as (szBytes f.sz) = [] → loadPoison s3 g k as (szBytes f.sz) = none →
        ∀ s4 ready, readHomes s3 g.core (homeLanes s3 (fun a pa => (forwarded s3 g k a pa).isSome) as (szBytes f.sz))
          (szBytes f.sz) = (s4, ready) →
        (ready = true →
          exec (row.1 g f) s = .next (completed (loadIss f g row.2 s) g s4 (putLoaded { k with seq := k.seq + 1 } f.data f.sz row.2
            (loadValues s3 g.core k.ctx as (forwardByte (s3.sbOf g)) (szBytes f.sz))))) ∧
        (ready = false → exec (row.1 g f) s = .next (stallAt s4 g []))) ∧
      (loadMissing s3 g k as (szBytes f.sz) ≠ [] →
        exec (row.1 g f) s = .next (passed (pendLoad s3 g k f row.2 as (loadCells s3 g k as (szBytes f.sz))
          (loadMissing s3 g k as (szBytes f.sz))) g f.ext)))) ∧
  (∀ (g : Grp) (f : MWord) (s s1 : State) (k : Group) (act : W32), Issues (pfIss f g s) g s k s1 act →
    exec (.pf g f) s = .next (passed ((memAddrs k act false false f).foldl
      (fun s a => (prefetchAddr s g k.ctx a.2 1).1) s1) g f.ext))

/-- ST and SST put one entry for each distinct line into the core's store buffer, in increasing line order, and change no
byte of memory: the store is performed when its entry drains (R304). -/
def Sys2Proof.Claims.StoreResult : Prop :=
  ∀ row ∈ storeRows, ∀ (g : Grp) (f : MWord) (s s1 s2 : State) (k : Group) (act : W32) (as : List (Nat × Nat × Nat × W64)),
    Issues (storeIss f g row.2 s) g s k s1 act → Aims g f false row.2 .w (attrPlain (szBytes f.sz)) s1 k act s2 as →
    (as.any (fun a => s2.onDevice a.2.2.1) = true → k.memBusy = false ∧ s2.sbOf g = []) →
    sameLine k as = false → (isRel f.mark f.scope = true → k.reqs = []) →
    (s2.core g.core).sb.length + (storeLines as).length ≤ Config.sbEntries →
    exec (row.1 g f) s = .next (completed (storeIss f g row.2 s) g
      (s2.modCore g.core fun c => { c with sb := c.sb ++ storeEntries s2 g k f row.2 as }) { k with seq := k.seq + 1 })

/-- A store-buffer entry of a store covers exactly the bytes of its line that a lane of the store covers, and the lines are
increasing, one for each line the lanes touch (R90, R304). -/
def Obligations.StoreEntriesCoverTheStore : Prop :=
  ∀ (s : State) (g : Grp) (k : Group) (f : MWord) (scalar : Bool) (as : List (Nat × Nat × Nat × W64)),
    ((storeEntries s g k f scalar as).map (·.line)).Pairwise (· < ·) ∧
    (∀ l, l ∈ (storeEntries s g k f scalar as).map (·.line) ↔ ∃ a ∈ as, lineNo a.2.2.1 = l) ∧
    (∀ e ∈ storeEntries s g k f scalar as, e.slot = g.slot ∧ e.ctx = k.ctx ∧ e.seq = k.seq ∧
      ∀ i < 128, e.mask.getLsbD i = true ↔
        ∃ a ∈ as, lineNo a.2.2.1 = e.line ∧ ∃ j < szBytes f.sz, a.2.2.1 + j = 128 * e.line + i)

/-- ATOM and SATOM: at LOC 10 the lanes act in order on the larder, at LOC 00 on owned L1 lines, the old values going to
DATA, or the requests for ownership go out; at LOC 01 one request for each lane goes to the home slices, after the group's
outstanding scatters (R90 to R92, R187, R223, R225). -/
def Sys2Proof.Claims.AtomicResult : Prop :=
  ∀ row ∈ atomRows, ∀ (g : Grp) (f : MWord) (x : W64) (s s1 : State) (k : Group) (act : W32), f.ext = some x →
    Issues (atomIss s g f row.2) g s k s1 act →
    (isRel f.mark f.scope = true → k.reqs = [] ∧ s1.sbOf g = []) →
    (locOf x = 2 →
      lanesRes ((memAddrs k act true row.2 f).map fun a => larderLane (szBytes f.sz) a.1 a.2) = none →
      (∀ a ∈ lanesOk ((memAddrs k act true row.2 f).map fun a => larderLane (szBytes f.sz) a.1 a.2),
        scoreHolds (s1.core g.core) a.2.1 (szBytes f.sz) true = false ∧
        larderPoisoned (s1.core g.core) a.2.1 (szBytes f.sz) = false) →
      let r := atomLarderLanes f x k (lanesOk ((memAddrs k act true row.2 f).map fun a =>
        larderLane (szBytes f.sz) a.1 a.2)) (s1.core g.core)
      exec (row.1 g f) s = .next (completed (atomIss s g f row.2) g (s1.setCore g.core r.1) (putOld k f row.2 r.2))) ∧
    (∀ (s2 : State) (as : List (Nat × Nat × Nat × W64)), locOf x ≠ 2 →
      Aims g f true row.2 .rw (attrAtom (locOf x)) s1 k act s2 as →
      (∀ a ∈ as, ∀ e ∈ s2.sbOf g, e.line ≠ lineNo a.2.2.1) →
      (locOf x = 0 → (∀ a ∈ as, ownsLine s2 g.core (lineNo a.2.2.1) = true ∧ s2.poisoned none a.2.2.1 (szBytes f.sz) = false) →
        let r := atomL1Lanes g f x k as s2
        let ls := distinct (as.map fun a => lineNo a.2.2.1)
        exec (row.1 g f) s = .next (passed ((demandRead (ls.foldl (fun s l => wakeSpins s g.core l) r.1) g.core ls).modGroup g
          fun k => putOld k f row.2 r.2) g f.ext)) ∧
      (locOf x = 0 → (∃ a ∈ as, ownsLine s2 g.core (lineNo a.2.2.1) = false) →
        exec (row.1 g f) s = .next (stallAt ((distinct (as.map fun a => lineNo a.2.2.1)).foldl
          (fun s l => if ownsLine s g.core l then s else requestLine s g.core l true false) s2) g [])) ∧
      (locOf x = 1 → scatterAhead s2 g k = false →
        exec (row.1 g f) s = .next (completed (atomIss s g f row.2) g
          (s2.modCore g.core fun c => { c with nsa := c.nsa ++ nearSends s2 g f x k as })
          { k with reqs := k.reqs ++ nearReqs f k as, nextId := k.nextId + as.length, seq := k.seq + 1 })))

/-- The larder's narrow view moves 32-bit words lane by lane, its row view one 512-byte row of the quad, whatever lanes are
active; a store clears the poison of the sectors it covers whole, and a narrow access counts its conflicts of lanes (R184,
R185, R188, R439). -/
def Sys2Proof.Claims.LarderViewResult : Prop :=
  ∀ (g : Grp) (f : MWord) (s s1 : State) (k : Group) (act : W32) (as : List (Nat × Nat × Nat × W64)) (o : Nat),
    (lanesRes ((memAddrs k act false false f).map fun a => larderLane 4 a.1 a.2) = none →
      lanesOk ((memAddrs k act false false f).map fun a => larderLane 4 a.1 a.2) = as →
      (Issues (larderIss s g f .load false false) g s k s1 act →
        (∀ a ∈ as, scoreHolds (s1.core g.core) a.2.1 4 false = false ∧ larderPoisoned (s1.core g.core) a.2.1 4 = false) →
        exec (.lld g f) s = .next (passed (countConflicts (s1.setGroup g
          (putLoaded k f.data 4 false (as.map fun a => (a.1, larderRead (s1.core g.core) a.2.1 4)))) g.core as) g f.ext)) ∧
      (Issues (larderIss s g f .store false true) g s k s1 act → larderRel s1 g k f = false →
        (∀ a ∈ as, scoreHolds (s1.core g.core) a.2.1 4 true = false) →
        exec (.lst g f) s = .next (passed (countConflicts (s1.setCore g.core (lstLanes f k as (s1.core g.core))) g.core as) g
          f.ext))) ∧
    (effAddr k false f 0 = o → o % 512 = 0 → o + 512 ≤ 2 ^ 20 →
      (Issues (larderIss s g f .load true false) g s k s1 act → scoreHolds (s1.core g.core) o 512 false = false →
        larderPoisoned (s1.core g.core) o 512 = false →
        exec (.lldR g f) s = .next (completed (larderIss s g f .load true false) g s1 (putRow (s1.core g.core) k f o))) ∧
      (Issues (larderIss s g f .store true true) g s k s1 act → larderRel s1 g k f = false →
        scoreHolds (s1.core g.core) o 512 true = false →
        exec (.lstR g f) s = .next (completed (larderIss s g f .store true true) g
          (s1.setCore g.core (larderWrite (s1.core g.core) o (rowBytes k f))) k)))

namespace Sys2Proof.Claims

open Sys2Proof.Machine

/-! ## Classes T, C and Y -/

def tlyArithRows : List ((Grp → RWord → Instr) × TallyOp) := [(.tlyAdd, .add), (.tlySub, .sub), (.tlySetmax, .setmax)]

/-- SRC_A names tally `n` for the group's context, its slice answers, and nothing the mark orders before is left. -/
structure Names (g : Grp) (f : RWord) (s1 : State) (k : Group) (n : Nat) : Prop where
  tally : s1.tallyOf k.ctx (k.opS f.ext f.a).toNat = some n
  alive : s1.deadEps.contains (.tallySlice (hallOfTally n)) = false
  settled : isRel (tlyMark f.mod) (tlyScope f.mod) = true → k.reqs = [] ∧ s1.sbOf g = []

def tlyReadIss (s : State) (g : Grp) (f : RWord) : Iss :=
  { tlyIss s g f [.z] [.z] [.s] true false false 2 with
    bad := if f.dst = 0x13F then some 0x0504 else (tlyIss s g f [.z] [.z] [.s] true false false 2).bad }

def tlyWatchIss (s : State) (g : Grp) (f : RWord) : Iss :=
  tlyIss s g f [.s, .x] (if tlyRcv f.mod = 1 ∨ tlyRcv f.mod = 3 then [.s] else [.z]) [.s, .z] true false true 1

/-- Write DST of slot `g`'s group and move its path past the instruction. -/
def gaveS (s : State) (g : Grp) (f : RWord) (w : W64) : State := passed (s.modGroup g fun k => k.putS f.dst w) g f.ext

/-- DST of TLY.WATCH after a registration: WATCH_FULL, or the handle of the watch (R341, R342). -/
def watchAnswer (r : State × Option Nat) : W64 :=
  match r.2 with
  | none => watchWord 0x0602 0
  | some w => watchWord 0 (watchHandle w (r.1.watch w).tag)

def xRows : List ((Grp → RWord → Instr) × List Kind × List Kind × Bool × Bool) :=
  [(.brx, [.s, .pr], [.z], true, false), (.callx, [.s, .pr], [.pr], false, true), (.ret, [.pr], [.z], true, false)]

end Sys2Proof.Claims

/-- A tally operation leaves in its tally what *Table 12-4* gives, nothing at all when the tally is stuck or abandoned, and
never touches another tally (R337, R338). -/
def Sys2Proof.Claims.TallyOperationValue : Prop :=
  ∀ (s : State) (n : Nat) (op : TallyOp) (v : Nat),
    (tallyApply s n op v).tally n = (if (s.tally n).frozen then s.tally n else (s.tally n).apply op v) ∧
    ∀ m, m ≠ n → (tallyApply s n op v).tally m = s.tally m

/-- TLY.ADD, TLY.SUB and TLY.SETMAX apply their operation at the tally slice and give DST the value before; TLY.READ gives
the value and, in the next scalar register, the flags; TLY.WATCH registers and gives the handle, gives the bell status at once
when the watch is met, or makes the path wait; TLY.CANCEL fires the watch with 0x0605 (R101, R112, R337 to R344). -/
def Sys2Proof.Claims.TallyInstructionDone : Prop :=
  (∀ row ∈ tlyArithRows, ∀ (g : Grp) (f : RWord) (s s1 : State) (k : Group) (act : W32) (n : Nat),
    Issues (tlyIss s g f [.s, .x] [.z] [.s, .z] true true false 1) g s k s1 act → Names g f s1 k n →
    exec (row.1 g f) s = .next (gaveS (tallyApply s1 n row.2 (k.opS f.ext f.b).toNat) g f (w64 (s1.tally n).value))) ∧
  (∀ (g : Grp) (f : RWord) (s s1 : State) (k : Group) (act : W32) (n : Nat),
    Issues (tlyReadIss s g f) g s k s1 act → Names g f s1 k n →
    exec (.tlyRead g f) s = .next (completed (tlyReadIss s g f) g s1
      ((k.putS f.dst (w64 (s1.tally n).value)).putS (f.dst + 1) (w64 (s1.tallyFlags n k.ctx))))) ∧
  (∀ (g : Grp) (f : RWord) (s s1 : State) (k : Group) (act : W32) (n : Nat),
    Issues (tlyWatchIss s g f) g s k s1 act → Names g f s1 k n →
    let t := (k.opS f.ext f.b).toNat
    let arg := k.opS none f.c
    (tlyRcv f.mod = 1 → s1.notifyQueue k.ctx arg.toNat = none →
      exec (.tlyWatch g f) s = .next (gaveS s1 g f (watchWord 0x0608 0))) ∧
    (∀ q, tlyRcv f.mod = 1 → s1.notifyQueue k.ctx arg.toNat = some q →
      let r := register s1 n k.ctx t (tlyCmp f.mod) (.queue q) (arg.setWidth 32)
      exec (.tlyWatch g f) s = .next (gaveS r.1 g f (watchAnswer r))) ∧
    (tlyRcv f.mod = 2 →
      let r := register s1 n k.ctx t (tlyCmp f.mod) .steward 0
      exec (.tlyWatch g f) s = .next (gaveS r.1 g f (watchAnswer r))) ∧
    (tlyRcv f.mod = 3 →
      let r := register s1 n k.ctx t (tlyCmp f.mod) .partner (arg.setWidth 32)
      exec (.tlyWatch g f) s = .next (gaveS r.1 g f (watchAnswer r))) ∧
    (tlyRcv f.mod = 0 →
      let r := register s1 n k.ctx t (tlyCmp f.mod) (.path k.station k.inst k.index) 0
      (r.2 = none → exec (.tlyWatch g f) s = .next (gaveS r.1 g f (watchWord 0x0602 0))) ∧
      (∀ w b, r.2 = some w → (r.1.watch w).bell = some b →
        exec (.tlyWatch g f) s = .next (gaveS (freeWatch r.1 w) g f (watchWord b.status 0))) ∧
      (∀ w, r.2 = some w → (r.1.watch w).bell = none →
        exec (.tlyWatch g f) s = .next (r.1.modGroup g fun k => branchTo k ((k.activePath.map (·.mask)).getD 0)
          (fun _ => (nextPc k f.ext, .watch w f.dst)) (nextPc k f.ext) (nextPc k f.ext))))) ∧
  (∀ (g : Grp) (f : RWord) (s s1 : State) (k : Group) (act : W32),
    Issues (tlyIss s g f [.z] [.z] [.s, .z] false false false 1) g s k s1 act →
    let h := (k.opS f.ext f.a).toNat
    (cancellable s1 k.ctx h = true → exec (.tlyCancel g f) s = .next (gaveS (fire s1 (h / 65536) 0x0605) g f 0)) ∧
    (cancellable s1 k.ctx h = false → exec (.tlyCancel g f) s = .next (gaveS s1 g f (watchWord 0x0606 0))))

/-- BRA, CALL, BRX, CALLX and RET send the active lanes to their targets and the other lanes of the path to the next
instruction; CALL and CALLX first write the address of the next instruction to the link pair of the active lanes (R113, R114).
A divergent BRA whose RCV is 0 is illegal. A backward branch of a path that has had 96 opportunities does not issue while
another path is runnable (R59). -/
def Sys2Proof.Claims.BranchResult : Prop :=
  (∀ (g : Grp) (f : BWord) (s s1 : State) (k : Group) (act : W32), Issues (bIss f [] true) g s k s1 act →
    (backTurn k [bTarget k f] = true → exec (.bra g f) s = .next (s1.setGroup g (loseTurn .backward k))) ∧
    (backTurn k [bTarget k f] = false → (diverges k act (fun _ => bTarget k f) (nextPc k f.ext) = true → f.rcv ≠ 0) →
      exec (.bra g f) s = .next (s1.setGroup g
        (branchTo k act (fun _ => (bTarget k f, .run)) (nextPc k f.ext) (braReconv k f)))) ∧
    (backTurn k [bTarget k f] = false → diverges k act (fun _ => bTarget k f) (nextPc k f.ext) = true → f.rcv = 0 →
      exec (.bra g f) s = .next (s1.modGroup g fun k' => beginPark k' 6 0x0504 k.pc.toNat 0))) ∧
  (∀ (g : Grp) (f : BWord) (s s1 : State) (k : Group) (act : W32),
    Issues (bIss f (regsOf (f.rcv.extractLsb' 13 9) 2)
      (accepts (s.vregsOf g) false [.pr] (f.rcv.extractLsb' 13 9) && decide (bits f.rcv 12 0 = 0))) g s k s1 act →
    (backTurn k [bTarget k f] = true → exec (.call g f) s = .next (s1.setGroup g (loseTurn .backward k))) ∧
    (backTurn k [bTarget k f] = false → exec (.call g f) s = .next (s1.setGroup g
      (branchTo (k.putPair (f.rcv.extractLsb' 13 9) act fun _ => linkPair (nextPc k f.ext)) act
        (fun _ => (bTarget k f, .run)) (nextPc k f.ext) (nextPc k f.ext))))) ∧
  (∀ row ∈ xRows, ∀ (g : Grp) (f : RWord) (s s1 : State) (k : Group) (act : W32),
    Issues (xIss s g f row.2.1 row.2.2.1 row.2.2.2.1) g s k s1 act →
    (∀ i ∈ maskList act, targetFault k f i = none) →
    (backTurn k ((maskList act).map fun i => va (xTarget k f i)) = true →
      exec (row.1 g f) s = .next (s1.setGroup g (loseTurn .backward k))) ∧
    (backTurn k ((maskList act).map fun i => va (xTarget k f i)) = false →
      exec (row.1 g f) s = .next (s1.setGroup g
        (branchTo (if row.2.2.2.2 then k.putPair f.dst act fun _ => linkPair (nextPc k f.ext) else k) act
          (fun i => (va (xTarget k f i), .run)) (nextPc k f.ext)
          (if row.2.2.2.2 then nextPc k f.ext else (f.ext.getD 0).setWidth 56)))))

/-- A branch that takes every thread of the active path to one address moves the path there and splits nothing: the path keeps
its lanes and its parent, and its wait count starts again (R55, R58, R96). -/
def Obligations.UniformBranchMovesThePath : Prop :=
  ∀ (k : Group) (i : Nat) (p : Path) (act : W32) (t next reconv : VAddr), k.active = some i → k.path? i = some p →
    p.parent = none → p.kind = .run → p.mask ≠ 0 → p.mask &&& ~~~act = 0 →
    let k' := branchTo k act (fun _ => (t, .run)) next reconv
    k'.active = some i ∧ k'.path? i = some { p with pc := t, wait := 0, turn := .go } ∧
    k'.live = k.live ∧ k'.sregs = k.sregs ∧ k'.vfile = k.vfile ∧ k'.preds = k.preds

/-- EXIT ends the active lanes, and with the last of them the group leaves its slot; YIELD ends its path's turn when another
path is runnable; BAR.G makes the active lanes arrive and wait; SPIN asks for its word's line when the core does not have it,
then waits while the word equals the comparand and otherwise goes on (R54, R61, R62, R64, R115). -/
def Sys2Proof.Claims.WaitAndExitResult : Prop :=
  (∀ (g : Grp) (f : RWord) (s s1 : State) (k : Group) (act : W32),
    Issues (sysIss s g f [.z] [.z] .ender false (decide (f.mod = 0))) g s k s1 act →
    let k1 := endThreads (useTurn k) act
    (k1.live = 0 → s1.quiet g k = true → exec (.exitOp g f) s = .next (s1.dropGroup g)) ∧
    (∀ p, k1.live ≠ 0 → k.active.bind k1.path? = some p →
      exec (.exitOp g f) s = .next (s1.setGroup g (setPc k1 (k.active.getD 0) (p.pc + va (instrLen f.ext))))) ∧
    (k1.live ≠ 0 → k.active.bind k1.path? = none →
      exec (.exitOp g f) s = .next (s1.setGroup g (if k1.active.isSome then k1 else switchPath k1)))) ∧
  (∀ (g : Grp) (f : RWord) (s s1 : State) (k : Group) (act : W32),
    Issues (sysIss s g f [.z] [.z] .alu false (decide (f.mod = 0))) g s k s1 act →
    let k1 := goOn k (nextPc k f.ext)
    exec (.yield g f) s = .next (s1.setGroup g
      (if otherRunnable k1 = true ∧ k1.active = k.active then
        switchPath { k1 with active := none } else k1))) ∧
  (∀ (g : Grp) (f : RWord) (s s1 : State) (k : Group) (act : W32),
    Issues (sysIss s g f [.z] [.z] .ender false (decide (bits f.mod 8 3 = 0))) g s k s1 act →
    exec (.barG g f) s = .next (s1.setGroup g (releaseBar (branchTo (arrive k (islandCycles s1 g.core) (bits f.mod 2 0) act) act
      (fun _ => (nextPc k f.ext, .barrier (bits f.mod 2 0))) (nextPc k f.ext) (nextPc k f.ext)) (bits f.mod 2 0)))) ∧
  (∀ (g : Grp) (f : RWord) (s s1 s2 : State) (k : Group) (act : W32) (v pa : Nat) (leaf : W64),
    Issues (sysIss s g f [.s] [.s] .ender true (decide (f.mod = 0))) g s k s1 act → (k.opS none f.a).toNat = v →
    laneAccess s1 g k .r 4 attrSpin 0 v = (s2, .ok 0 v pa leaf) → sameLine k [(0, v, pa, leaf)] = false →
    (k.loads.any fun l => readsSame l [(0, v, pa, leaf)] 4) = false → k.incomplete k.ordSeq = false →
    loadPoison s2 g k [(0, v, pa, leaf)] 4 = none →
    (∀ l wt, loadMissing s2 g k [(0, v, pa, leaf)] 4 = [(l, wt)] →
      exec (.spin g f) s = .next (stallAt (requestLine s2 g.core l false wt) g [])) ∧
    (∀ s3, loadMissing s2 g k [(0, v, pa, leaf)] 4 = [] →
      readHomes s2 g.core (homeLanes s2 (fun a pa => (forwarded s2 g k a pa).isSome) [(0, v, pa, leaf)] 4) 4 = (s3, true) →
      (spinWord s2 g k v pa leaf = bits (k.opS none f.b) 31 0 →
        exec (.spin g f) s = .next (s3.setGroup g (spinWait k pa))) ∧
      (spinWord s2 g k v pa leaf ≠ bits (k.opS none f.b) 31 0 → exec (.spin g f) s = .next (passed s3 g f.ext))))

/-- The fences wait for the group's unit operations; at scope 0 they do nothing further; else FENCE.ORD passes at once,
FENCE.SEQ when the group's stores and atomics have been performed, FENCE.DONE when they have been acknowledged too, and later
accesses are ordered after earlier ones (R101, R308, R310). BRK completes and parks the group with reason DEBUG; a word that
no instruction has parks it with status 0x0503 at the word's address (R83, R116). -/
def Obligations.FenceAndTrapResult : Prop :=
  (∀ (g : Grp) (f : RWord) (s s1 : State) (k : Group) (act : W32),
    Issues (sysIss s g f [.z] [.z] .ender true (fenceModOk f)) g s k s1 act → s1.unitOps g = false →
    (fenceScope f = 0 → ∀ c ∈ [Instr.fenceOrd g f, .fenceSeq g f, .fenceDone g f], exec c s = .next (passed s1 g f.ext)) ∧
    (fenceScope f ≠ 0 →
      exec (.fenceOrd g f) s = .next (completed (sysIss s g f [.z] [.z] .ender true (fenceModOk f)) g s1 { k with ordSeq := k.seq }) ∧
      (s1.sbOf g = [] → ((s1.core g.core).nsa.any fun r => decide (r.slot = g.slot)) = false →
        exec (.fenceSeq g f) s = .next
          (completed (sysIss s g f [.z] [.z] .ender true (fenceModOk f)) g s1 { k with ordSeq := k.seq })) ∧
      (s1.sbOf g = [] → k.reqs = [] →
        exec (.fenceDone g f) s = .next
          (completed (sysIss s g f [.z] [.z] .ender true (fenceModOk f)) g s1 { k with ordSeq := k.seq })))) ∧
  (∀ (g : Grp) (f : RWord) (s s1 : State) (k : Group) (act : W32),
    Issues (sysIss s g f [.z] [.z] .ender false (decide (f.mod = 0))) g s k s1 act →
    exec (.brk g f) s = .next (s1.setGroup g (beginPark { goOn k (nextPc k f.ext) with debug := true } 7 0 0 0))) ∧
  (∀ (g : Grp) (w : W64) (x : Option W64) (s s1 : State) (k : Group), s.group? g = some k → canIssue s k = true → k.ra = none →
    decodeCore g w x = none → fetch s g k (instrLen x) = (s1, none) →
    exec (.illegalOpcode g w x) s = .next (s1.modGroup g fun k' => beginPark k' 6 0x0503 k.pc.toNat 0))

namespace Sys2Proof.Claims

open Sys2Proof.Machine

/-! ## Events at a core -/

/-- A store-buffer entry that goes to plain memory or the bin outside any epoch, at a home that answers, on a line that is not
held, that no cache holds, and that the L1 cache need not own first. -/
structure WritesThrough (s : State) (e : SbEntry) : Prop where
  home : s.homeStatus (entryAddr e) = 0
  storage : (∃ g q, s.placeOf (entryAddr e) = .hbm g q) ∨ (∃ g d v, s.placeOf (entryAddr e) = .cellar g d v) ∨
    (∃ h o, s.placeOf (entryAddr e) = .bin h o)
  plain : e.epoch = none
  free : s.isHeld (128 * e.line) = false
  idle : s.homeIdle e.line true = true
  unowned : (∃ h o, s.placeOf (entryAddr e) = .bin h o) ∨ e.attr ≠ 0

/-- A line after the covered bytes of an entry have been written over it. -/
def merged (e : SbEntry) (d : Line) : Line := lineOf fun j => if e.mask.getLsbD j then lineByte e.data j else lineByte d j

/-- The active path of a running group cannot issue for want of the result of load `l`, no other path is ready, no group of
the core runs ahead and the cap is not 0 (R67). -/
structure Starved (s : State) (g : Grp) (k : Group) (l : PendingLoad) : Prop where
  running : k.mode = .running
  noRunAhead : k.ra = none
  missed : missedLoad k = some l
  alone : otherReady k = false
  unit : raBusy s g.core = false
  cap : raLimit s g k ≠ 0

end Sys2Proof.Claims

/-- PATH_SWITCH makes the runnable path with the largest wait count active when the active one has used up its turn, stands at
a backward branch, or could not issue while another can; SPIN_TIMEOUT wakes a spin-waiting path; BARRIER_STALL, at the count of
the watchdog, parks the group with 0x0680, the live threads and the arrived ones in AUXILIARY; RUN_AHEAD_LIMIT ends run-ahead and leaves the architectural registers as they are (R59, R62, R66, R69). -/
def Sys2Proof.Claims.PathEventsResult : Prop :=
  (∀ (g : Grp) (s : State) (k : Group) (i : Nat) (p : Path), s.group? g = some k → k.mode = .running →
    longestWait (k.stack.filter fun e => decide (k.active ≠ some e.1)) runnable = some (i, p) →
    (128 ≤ k.opp ∨ k.activePath.map (·.turn) = some .backward ∨
      ((∃ rs, k.activePath.map (·.turn) = some (.stalled rs)) ∧ otherReady k = true)) →
    exec (.pathSwitch g i) s = .next (s.setGroup g (countWaits (activate k i p)))) ∧
  (∀ (g : Grp) (i : Nat) (s : State) (k : Group) (p : Path) (l : Nat), s.group? g = some k → k.mode = .running →
    k.path? i = some p → p.kind = .spin (some l) →
    exec (.spinTimeout g i) s = .next (s.setGroup g
      (pickIfIdle { endRunAhead k with stack := tput k.stack i { p with kind := .spin none, wait := 0 } }))) ∧
  (∀ (g : Grp) (i : Nat) (s : State) (k : Group) (b : Barrier), s.group? g = some k → k.mode = .running →
    tfind k.bars i = some b →
    (2 ^ k.barWdog ≤ b.at (islandCycles s g.core) →
      exec (.barrierStall g i) s = .next (s.setGroup g { k with
        mode := .parking { reason := 6, status := 0x0680, addr := va 0, aux := k.live ++ b.arrived }, ra := none,
        raEnded := k.raEnded || k.ra.isSome })) ∧
    (b.at (islandCycles s g.core) < 2 ^ k.barWdog → exec (.barrierStall g i) s = .next s)) ∧
  (∀ (g : Grp) (s : State) (k : Group) (r : RunAhead), s.group? g = some k → k.ra = some r →
    raSpent r (raLimit s g k) = true →
    exec (.runAheadLimit g) s = .next (s.setGroup g { k with ra := none }))

/-- MISS_NOTICE marks the load, and the group enters run-ahead when its active path cannot issue for want of that load, no other
path is ready, no group of its core uses the unit and the cap is not 0, the shadow registers taking the architectural values.
LOAD_DATA_ARRIVAL ends run-ahead and writes the loaded values when every line has come, after older loads of the same bytes, else
asks for what is missing; poison makes the group park or fault (R67, R69, R241, R302, R440). -/
def Sys2Proof.Claims.LoadEventsResult : Prop :=
  (∀ (g : Grp) (ld : Nat) (s : State) (k : Group) (l : PendingLoad), s.group? g = some k →
    (k.loads.find? fun x => decide (x.id = ld)) = some l →
    (l.addrs.any fun a => (s.core g.core).notes.contains (lineNo a.2.2.toNat)) = true →
    let k1 := { k with loads := k.loads.map fun x => if x.id = ld then { x with noticed := true } else x }
    let s1 := s.setGroup g k1
    (∀ l', Starved s1 g k1 l' →
      ∃ t k' r, exec (.missNotice g ld) s = .next t ∧ t.group? g = some k' ∧ k' = { k1 with ra := some r } ∧
        r.load = l'.id ∧ r.resume = k.pc ∧ r.sregs = k.sregs ∧ r.vregs = k.vfile ∧ r.preds = k.preds ∧ r.issued = 0 ∧
        t.mem = s.mem ∧ t.cores = s.cores) ∧
    ((∀ l', ¬Starved s1 g k1 l') → exec (.missNotice g ld) s = .next s1)) ∧
  (∀ (g : Grp) (s : State) (k : Group) (l : PendingLoad), s.group? g = some k →
    (k.loads.find? fun x => decide (x.id = l.id)) = some l →
    (arrivalMissing s g k l ≠ [] →
      exec (.loadDataArrival g l.id) s = .next
        ((arrivalMissing s g k l).foldl (fun s x => requestLine s g.core x.1 false x.2) s)) ∧
    (arrivalMissing s g k l = [] → olderSame k l = true → exec (.loadDataArrival g l.id) s = .next s) ∧
    (arrivalMissing s g k l = [] → olderSame k l = false →
      (arrivalPoison s g k l = none → ∀ s1 ready,
        readHomes s g.core (homeLanes s (fun _ pa => (l.knownByte pa).isSome) (arrivalLanes s g k l) (szBytes l.sz))
          (szBytes l.sz) = (s1, ready) →
        exec (.loadDataArrival g l.id) s = .next (if ready then s1.modGroup g fun _ => arrivalDone s g k l else s1)) ∧
      (∀ a, arrivalPoison s g k l = some a → leafCommons a.2.2.2 = false →
        exec (.loadDataArrival g l.id) s = .next (s.setGroup g (beginPark k 6 0x0701 a.2.1 0))) ∧
      (∀ a, arrivalPoison s g k l = some a → leafCommons a.2.2.2 = true →
        exec (.loadDataArrival g l.id) s = .next (s.setGroup g
          (if s.failedCommons a.2.2.1 then beginPark k 6 0x0703 a.2.1 0 else beginPark k 4 0 a.2.1 0)))))

/-- PARK_COMPLETE: when the group's own stores have drained and, but for a fault, its requests and unit operations are
answered, the group leaves its slot, its remaining entries are cancelled and its record is kept; with reason FAULT the loss of
its context is queued (R72, R73, R75, R374). -/
def Sys2Proof.Claims.ParkCompleteResult : Prop :=
  ∀ (g : Grp) (s : State) (k : Group) (p : ParkReq), s.group? g = some k → k.mode = .parking p →
    (s.sbOf g).all (tentative k) = true → (p.reason = 6 ∨ (k.reqs = [] ∧ s.unitOps g = false)) →
    ∃ t, exec (.parkComplete g) s = .next t ∧ t.group? g = none ∧ t.sbOf g = [] ∧
      t.parked = s.parked ++ [parkRecord s g k p] ∧ t.mem = s.mem ∧ (∀ g', gkey g' ≠ gkey g → t.group? g' = s.group? g') ∧
      (∀ c, p.reason = 6 → s.ctx? k.ctx = some c → t.lossQ = s.lossQ ++
        [{ ctx := k.ctx, gen := c.gen, status := p.status, core := g.core, station := w32 k.station,
           addr := if p.status = 0x0410 ∨ p.status = 0x0680 then p.aux else p.addr.setWidth 64, logged := false }]) ∧
      (p.reason ≠ 6 → t.lossQ = s.lossQ)

/-- GROUP_WAKE delivers the bell of a fired watch to its waiting path and frees the watch; WRITE_ACK removes the request and
writes an atomic's old value, once the group's earlier writes to the same end point have been acknowledged;
FENCE_ENDPOINT_LOST discards the request, the load or the buffered store and parks the group with 0x0410 and the target's
physical address in AUXILIARY (R74, R226, R306, R310, R312, R342, R343). -/
def Sys2Proof.Claims.GroupAnswersResult : Prop :=
  (∀ (w : Nat) (s : State) (b : BellRec) (st i ix : Nat), (s.watch w).bell = some b → (s.watch w).rcv = .path st i ix →
    s.firstBell w = true →
    exec (.groupWake w) s = .next (freeWatch (deliverBell s st i ix w b.status) w)) ∧
  (∀ (g : Grp) (s : State) (k : Group) (r : Req) (v : W64), s.group? g = some k →
    (k.reqs.find? fun x => decide (x.id = r.id)) = some r → r.answer = some v → ackWaits s k r = false →
    ∃ k', exec (.writeAck g r.id) s = .next (s.setGroup g k') ∧ k'.reqs = k.reqs.filter (fun x => decide (x.id ≠ r.id)) ∧
      (r.dst = none → k'.sregs = k.sregs ∧ k'.vfile = k.vfile) ∧
      (∀ d, r.dst = some d → 0x100 ≤ d.toNat → d.toNat < 0x140 → r.sz ≠ 1 → r.sz ≠ 3 →
        k'.s (d.toNat - 0x100) = v ∧ k'.vfile = k.vfile)) ∧
  (∀ (g : Grp) (w : Awaited) (s : State) (k : Group) (pa : PAddr), s.group? g = some k → k.mode = .running →
    reqTarget s g k w = some pa →
    ∃ t k', exec (.fenceEndpointLost g w) s = .next t ∧ t.group? g = some k' ∧
      k'.mode = .parking { reason := 6, status := 0x0410, addr := va 0, aux := pa.setWidth 64 } ∧
      (∀ id, w = .request id → ∀ r ∈ k'.reqs, r.id ≠ id) ∧
      (∀ n e, w = .store n → (s.sbOf g)[n]? = some e → (t.core g.core).sb = (s.core g.core).sb.erase e) ∧
      (∀ id, w = .load id → k'.loads = k.loads ∧ (t.core g.core).sb = (s.core g.core).sb) ∧ t.mem = s.mem)

/-- STORE_DRAIN: an entry that may drain is performed: on a line its core owns the covered bytes change in the L1 cache, which
then holds the line in M; a line that is not owned is asked for and the entry stays; a doorbell announces its queue's tail; an
egress store queues an event frame; an epoch page's store joins the controller's queue; a store that its end point refuses makes
the group fault (R253, R257, R264, R306, R366, R412, *Table 11-1*). -/
def Obligations.StoreDrainResult : Prop :=
  ∀ (c i : Nat) (s : State) (e : SbEntry), nth? (s.core c).sb i = some e → drainable s c i e = true →
    (s.homeStatus (entryAddr e) ≠ 0 → exec (.storeDrain c i) s = .next (storeFault s c i e (s.homeStatus (entryAddr e)))) ∧
    (s.homeStatus (entryAddr e) = 0 →
    (e.epoch = none → s.isHeld (entryAddr e) = false → e.attr = 0 →
      ((∃ h q, s.placeOf (entryAddr e) = .hbm h q) ∨ ∃ h d v, s.placeOf (entryAddr e) = .cellar h d v) →
      (∀ y, tfind (s.core c).l1 e.line = some y → y.dirtyOwner = true →
        ∃ t, exec (.storeDrain c i) s = .next t ∧ t.mem = s.mem ∧ (t.core c).sb = dropNth (s.core c).sb i ∧
          tfind (t.core c).l1 e.line = some { y with st := .m, data := merged e y.data } ∧
          ∀ l, l ≠ e.line → tfind (t.core c).l1 l = tfind (s.core c).l1 l) ∧
      ((∀ y, tfind (s.core c).l1 e.line = some y → y.dirtyOwner = false) →
        exec (.storeDrain c i) s = .next (requestLine s c e.line true false))) ∧
    (∀ n, s.placeOf (entryAddr e) = .doorbell n 0 →
      ∀ qi q, (s.queues.find? fun x => decide (x.2.slot = some n)) = some (qi, q) → e.size = 8 → q.ctx = e.ctx →
        exec (.storeDrain c i) s = .next (announceTail (dropEntry s c i) qi (entryWord e))) ∧
    (∀ off, s.placeOf (entryAddr e) = .egress off → off % 65536 < 0x8000 →
      exec (.storeDrain c i) s = .next
        (queueEvent (dropEntry s c i) (off / 65536) false (off % 65536 / 128) (postPayload e))) ∧
    (∀ x off, s.placeOf (entryAddr e) = .epochPage x off →
      ∃ t, exec (.storeDrain c i) s = .next t ∧ t.mem = s.mem ∧
        tget [] t.epochQ (s.ctxPart x) = tget [] s.epochQ (s.ctxPart x) ++
          [{ ctx := x, offset := off, size := e.size, word := w64 (entryWord e) }]))

/-- The frame of a drain to memory: the bytes the entry covers take its data, the other bytes of its line are those of the
coherent view, and every byte of every other line is as before (R302, R306, R323). -/
def Obligations.StoreDrainWritesExactlyItsBytes : Prop :=
  ∀ (c i : Nat) (s : State) (e : SbEntry), nth? (s.core c).sb i = some e → drainable s c i e = true → WritesThrough s e →
    ∃ t, exec (.storeDrain c i) s = .next t ∧
      (∀ j < 128, e.mask.getLsbD j = true → t.byte (128 * e.line + j) = lineByte e.data j) ∧
      (∀ j < 128, e.mask.getLsbD j = false → t.byte (128 * e.line + j) = s.cohByte (128 * e.line + j)) ∧
      (∀ a, lineNo a ≠ e.line → t.byte a = s.byte a) ∧ (t.core c).sb = dropNth (s.core c).sb i

namespace Sys2Proof.Claims

open Sys2Proof.Machine

/-! ## The mill and the sieve -/

def millRows : List ((Grp → RWord → Instr) × Nat) := [(.mldS, 0), (.mmaW, 1), (.mmaA, 2)]
def sieveRows : List ((Grp → RWord → Instr) × Nat) :=
  [(.sivIsect, 0), (.sivUnion, 1), (.sivDiff, 2), (.sivProbe, 3), (.sivGather, 4), (.sivScatter, 5)]

/-- The fault of a descriptor that is not well formed. -/
def badDesc (k : Group) : Res := .fault 0x0502 k.pc.toNat 0

/-- The front operation of a queue. -/
def atFront {α : Type} (q : List α) (o : α) (rest : List α) : Prop := q = o :: rest

/-- A run of the sieve that has come to its end without a fault, and whose writes were all taken: the state after them. -/
structure SieveEnds (s : State) (c : Nat) (o : SieveOp) (s1 : State) : Prop where
  ran : (sieveRun s c o).stop = .ok
  wrote : sievePuts (sieveRun s c o).s c o.ctx (sieveRun s c o).ws = (s1, 0)

end Sys2Proof.Claims

/-- MLD.S, MMA.W and MMA.A are accepted when the queue has a place, their descriptors can be read and are well formed and the
scoreboard has room: the operation joins the core's mill queue with its scoreboard entries, and DST waits for the completion
word (R109, R110, R122, R124, R138, R193, R197). A malformed descriptor parks the group with 0x0502. -/
def Sys2Proof.Claims.MillStartResult : Prop :=
  ∀ row ∈ millRows, ∀ (g : Grp) (f : RWord) (s s1 s2 : State) (k : Group) (act : W32) (d : BitVec 512),
    Issues (unitIss s g f [.s, .z] (decide (f.mod = 0))) g s k s1 act → (s1.core g.core).millQ.length < 8 →
    readDescs g k (badDesc k) s1 [(k.opS none f.a).toNat] = (s2, .inr [d]) →
    (millDescOk row.2 d = false →
      exec (row.1 g f) s = .next (s1.modGroup g fun k' => beginPark k' 6 0x0502 k.pc.toNat 0)) ∧
    (∀ (s3 : State) (xd wd od : BitVec 512), millDescOk row.2 d = true →
      readDescs g k (badDesc k) s2 [bits d 479 424, bits d 415 360, bits d 351 296] = (s3, .inr [xd, wd, od]) →
      (millOk row.2 d xd wd od = false →
        exec (row.1 g f) s = .next (s1.modGroup g fun k' => beginPark k' 6 0x0502 k.pc.toNat 0)) ∧
      (millOk row.2 d xd wd od = true →
        (s3.core g.core).scores.length + (millRanges row.2 d (.ofWord xd) (.ofWord wd) (.ofWord od)).length ≤ 16 →
        exec (row.1 g f) s = .next (completed (unitIss s g f [.s, .z] (decide (f.mod = 0))) g
          (s3.setCore g.core (acceptMill (s3.core g.core) g (newMillOp row.2 g f k ((s3.core g.core).seq + 1) d xd wd od)
            (millRanges row.2 d (.ofWord xd) (.ofWord wd) (.ofWord od))))
          { k with units := k.units ++ regsOf f.dst 1 })))

/-- MILL_OP_START starts the first operation that has not started once those before it are on their last block: it takes the
held operand where it fits, else loads its own, which the mill then holds or drops, and the hoppers take its first beats;
MILL_BLOCK_DRAIN writes a block's outputs, or leaves a block that overflows under OVF = 0 below k = 24 for its rerun, which
MILL_RESCALE_RETRY starts under the exponent 8 higher; MILL_COMPLETE gives the completion word and raises the tally; MILL_FAULT
stops the operation, cancels the later operations of its group and parks the group (R127, R130 to R133, R138 to R140, R143, R146,
R164, R190, R191). -/
def Sys2Proof.Claims.MillEventsResult : Prop :=
  (∀ (c : Nat) (s s1 : State) (o : MillOp), nextStart (s.core c).millQ = some o →
    millReach s c (frontOp (s.core c) o) true = (s1, .ok) →
    let fits := heldFits (s.core c) o
    let kept := if fits then (s1.core c).held else holdOperand s1 c o (o.loadStat s1 c 0)
    let run := { frontOp (s.core c) o with started := true, stat := if fits then (frontOp (s.core c) o).stat else o.loadStat s1 c 0 }
    (o.fn = 0 → exec (.millOpStart c) s = .next (s1.modCore c fun k => releaseScores (setOp { k with held := kept } run) o.seq)) ∧
    (o.fn ≠ 0 → exec (.millOpStart c) s = .next (s1.modCore c fun k =>
      setOp { k with held := kept, hoppers := some (hopperFill o (o.loadBeat s1 c 0)) } run))) ∧
  (∀ (c : Nat) (s s1 : State) (o : MillOp) (rest : List MillOp), atFront (s.core c).millQ o rest →
    o.started = true → o.fn ≠ 0 → o.overflowed = false → o.block < o.geo.blocks → millReach s c o false = (s1, .ok) →
    (bit o.desc 498 = false ∧ o.k < 24 ∧ blockOverflows o (o.sums s1 c).2 = true →
      exec (.millBlockDrain c) s = .next (s1.modCore c fun k => setFront { k with hoppers := none } { o with overflowed := true })) ∧
    (¬ (bit o.desc 498 = false ∧ o.k < 24 ∧ blockOverflows o (o.sums s1 c).2 = true) → (drainBlock s1 c o).2 = 0 →
      exec (.millBlockDrain c) s = .next (drainBlock s1 c o).1)) ∧
  (∀ (c : Nat) (s : State) (o : MillOp) (rest : List MillOp), atFront (s.core c).millQ o rest → o.overflowed = true →
    exec (.millRescaleRetry c) s = .next ((countUp s 0 c 11 1).modCore c fun k => setFront k
      { o with overflowed := false, k := o.k + 8, retries := min 255 (o.retries + 1), maxK := max o.maxK (o.k + 8) })) ∧
  (∀ (c cycles : Nat) (s : State) (o : MillOp) (rest : List MillOp), atFront (s.core c).millQ o rest → o.started = true →
    (o.fn = 0 ∨ o.geo.blocks ≤ o.block) →
    exec (.millComplete c cycles) s = .next (raiseTally (endMillOp s c o (millWord 0 o cycles)) o.ctx (bits o.desc 287 256)
      (bits o.desc 255 192))) ∧
  (∀ (c : Nat) (status : W16) (s : State) (o p : MillOp) (rest later : List MillOp), atFront (s.core c).millQ p rest →
    (((status = 0x0501 ∧ p.mayConflict none = true) ∨ millFaultNow s c p = some status) ∧ o = p ∧ later = rest ∨
      ¬((status = 0x0501 ∧ p.mayConflict none = true) ∨ millFaultNow s c p = some status) ∧
        status = 0x0501 ∧ p.onLast = true ∧ rest = o :: later ∧ o.mayConflict (some p) = true) →
    exec (.millFault c status) s = .next (unitFault ((laterMill o later).foldl (fun s x => cancelMill s c x)
      (endMillOp ({ s with spare := s.spare + 1 }.modCore c fun k =>
        { k with held := none, hoppers := none, accum := fillSet k.accum k.liveSet o.geo.u [] }) c o
        (millWord status o (Config.freeNat s.spare % 2 ^ 24)))) { core := c, slot := o.slot } o.ctx o.gen status o.pc))

/-- MACC.RD stores an accumulator tile's 16,384 bytes and MACC.WR loads them and drops any held operand, in debug mode, with the
mill idle; outside debug mode both park the group with 0x0505 (R111, R121, R132, R173). -/
def Sys2Proof.Claims.AccumulatorAccessResult : Prop :=
  ∀ (g : Grp) (f : RWord) (s s1 : State) (k : Group) (act : W32),
    Issues (unitIss s g f [.s, .z] (decide (bits f.mod 8 4 = 0))) g s k s1 act →
    let v := (k.opS none f.a).toNat
    (k.debug = false → ∀ c ∈ [Instr.maccRd g f, .maccWr g f],
      exec c s = .next (s1.modGroup g fun k' => beginPark k' 6 0x0505 k.pc.toNat 0)) ∧
    (∀ s2, k.debug = true → v % 64 = 0 → (s1.core g.core).millQ = [] → sbOverlaps s1 g k.ctx [(v, 16384)] = false →
      (reach s1 (.core g.core) k.ctx .w [(v, 16384)] = (s2, .ok) →
        exec (.maccRd g f) s = .next (passed
          (virtWrite s2 (.core g.core) k.ctx v (tileBytes (s2.core g.core) (bits f.mod 3 0))).1 g f.ext)) ∧
      (reach s1 (.core g.core) k.ctx .r [(v, 16384)] = (s2, .ok) →
        exec (.maccWr g f) s = .next (passed (s2.modCore g.core fun c =>
          loadTile c (bits f.mod 3 0) (s2.virtBytes (.core g.core) k.ctx v 16384)) g f.ext)))

/-- The six sieve instructions are accepted as the mill's are: queue of four, descriptors of A, B and OUT as the operation has
them, scoreboard entries of unit 1 (R109, R110, R203, R204, R206, R207, R222). -/
def Sys2Proof.Claims.SieveStartResult : Prop :=
  ∀ row ∈ sieveRows, ∀ (g : Grp) (f : RWord) (s s1 s2 : State) (k : Group) (act : W32) (d : BitVec 512),
    Issues (unitIss s g f [.s, .z] (decide (f.mod = 0))) g s k s1 act → (s1.core g.core).sieveQ.length < 4 →
    readDescs g k (badDesc k) s1 [(k.opS none f.a).toNat] = (s2, .inr [d]) →
    (sieveDescOk row.2 d = false →
      exec (row.1 g f) s = .next (s1.modGroup g fun k' => beginPark k' 6 0x0502 k.pc.toNat 0)) ∧
    (∀ (s3 : State) (ts : List (BitVec 512)), sieveDescOk row.2 d = true →
      readDescs g k (badDesc k) s2 (sieveTiles row.2 d) = (s3, .inr ts) →
      let ad := sieveTileA ts
      let bd := sieveTileB row.2 ts
      let od := sieveTileOut row.2 d ts
      (sieveOk row.2 d ad bd od = false →
        exec (row.1 g f) s = .next (s1.modGroup g fun k' => beginPark k' 6 0x0502 k.pc.toNat 0)) ∧
      (sieveOk row.2 d ad bd od = true →
        (s3.core g.core).scores.length + (sieveRanges row.2 d (.ofWord ad) (.ofWord bd) (.ofWord od)).length ≤ 16 →
        exec (row.1 g f) s = .next (completed (unitIss s g f [.s, .z] (decide (f.mod = 0))) g
          (s3.setCore g.core (acceptSieve (s3.core g.core) g (newSieveOp row.2 g f k ((s3.core g.core).seq + 1) d ad bd od)
            (sieveRanges row.2 d (.ofWord ad) (.ofWord bd) (.ofWord od))))
          { k with units := k.units ++ regsOf f.dst 1 })))

/-- SIEVE_COMPLETE performs the operation's writes, gives its completion word with 0x0507 for unsorted input, and raises its
tally; SIEVE_FAULT leaves what the operation had sent, gives its word with the status, cancels the group's later operations and
parks the group (R208, R218 to R220). Which writes had been sent, which later elements raised a flag and the count are free. -/
def Sys2Proof.Claims.SieveEventsResult : Prop :=
  (∀ (c : Nat) (s s1 : State) (o : SieveOp) (rest : List SieveOp), atFront (s.core c).sieveQ o rest → SieveEnds s c o s1 →
    exec (.sieveComplete c) s = .next (raiseTally (endSieveOp (countUp s1 0 c 12 (bits o.desc 63 32 + bits o.desc 31 0)) c o
      (sieveWord (if (sieveRun s c o).unsorted then 0x0507 else 0) (sieveRun s c o).flags (sieveRun s c o).count)) o.ctx
      (bits o.desc 287 256) (bits o.desc 255 192))) ∧
  (∀ (c : Nat) (status : W16) (s : State) (o : SieveOp) (rest : List SieveOp), atFront (s.core c).sieveQ o rest →
    sieveFaultNow s c o = some status →
    let r := sieveRun s c o
    let sent := sentWrites c o r
    let free := Config.freeNat sent.spare
    exec (.sieveFault c status) s = .next (unitFault ((laterSieve o rest).foldl (fun s x => cancelSieve s c x)
      (endSieveOp { sent with spare := sent.spare + 1 } c o
        (sieveWord status (r.flags.some r.all (free / 2 ^ 40)) (free % 2 ^ 40)))) { core := c, slot := o.slot } o.ctx o.gen status o.pc))

/-- On sorted inputs SIV.ISECT keeps the keys of A that B has, SIV.DIFF those that B has not, and SIV.UNION gives every key of
either once, in increasing order (R208, R209). -/
def Obligations.SortedSetOperations : Prop :=
  ∀ (as bs : List Nat) (n : Nat), as.Pairwise (· < ·) → bs.Pairwise (· < ·) → as.length + bs.length < n →
    (mergeSets 0 false false n (as.zip (List.range as.length)) bs).map (·.1) = as.filter (fun a => decide (a ∈ bs)) ∧
    (mergeSets 2 false false n (as.zip (List.range as.length)) bs).map (·.1) = as.filter (fun a => decide (a ∉ bs)) ∧
    ((mergeSets 1 false false n (as.zip (List.range as.length)) bs).map (·.1)).Pairwise (· < ·) ∧
    ∀ x, x ∈ (mergeSets 1 false false n (as.zip (List.range as.length)) bs).map (·.1) ↔ x ∈ as ∨ x ∈ bs

namespace Sys2Proof.Claims

open Sys2Proof.Machine

/-! ## The granary -/

/-- A write or read of one line that its home slice performs (R236, R244, R264). -/
structure Performs (s : State) (ctx : Nat) (pa : Nat) : Prop where
  ready : s.power.st = .ready
  home : s.sliceStatus ctx pa = 0
  storage : (s.placeOf pa).isDevice = false

def inBin (s : State) (pa : Nat) : Prop := ∃ h o, s.placeOf pa = .bin h o

/-- The pool lines that a slice keeps when it folds. -/
def stillHeld (p : PoolLine) : Bool :=
  match p.tag with
  | .held _ => true
  | _ => false

/-- Hypotheses of a taken store of the epoch controller: `x` is at the head of partition `p`'s queue and `s1` is the state
without it. -/
structure Heads (s : State) (p : Nat) (x : EpochStore) (s1 : State) : Prop where
  head : headStore s p = some (x, s1)
  command : isCommand x = true

/-- The home performs a write at once: in the bin, on a line that it holds in a way that is not sealed or that is written
uncached, or on a miss that no fill is waited for (*Table 9-4*, R241, R263). -/
def WritesNow (s : State) (cls : RClass) (attr pa n : Nat) : Prop :=
  inBin s pa ∨ (∃ x, (s.slice (s.homeOf pa)).hit (lineNo pa) = some x ∧
    (attr = 3 ∨ s.seal? (.cacheWay (s.homeOf pa) x.way) = none)) ∨
  ((s.slice (s.homeOf pa)).hit (lineNo pa) = none ∧ writeWaits s cls attr pa n = false)

end Sys2Proof.Claims

/-- HOME_READ first takes the line back from an owner; it answers a read of the bin or of a line that the slice holds at once,
an uncached read dropping the slice's line; a miss that allocates starts a fill that the request joins; one that joins a fill in
progress waits with it unless its sector has come; any other is answered from memory; a request that the slice does not perform
is rejected (*Table 9-4*, R237, R241 to R244, R264, R323). -/
def Sys2Proof.Claims.HomeReadResult : Prop :=
  ∀ (cls : RClass) (c ctx : Nat) (attr : BitVec 3) (pa : PAddr) (ecc : Ecc) (s : State),
    (s.power.st = .ready → attr.toNat < 4 → (s.placeOf pa.toNat).isDevice = false → s.sliceStatus ctx pa.toNat ≠ 0 →
      exec (.homeRead cls c ctx attr pa ecc) s = .next (rejectRequest s cls c ctx pa.toNat (s.sliceStatus ctx pa.toNat))) ∧
    (Performs s ctx pa.toNat → attr.toNat < 4 →
      let h := s.homeOf pa.toNat
      let l := lineNo pa.toNat
      let sec := pa.toNat % 128 / 32
      (s.homeIdle l false = false → exec (.homeRead cls c ctx attr pa ecc) s = .next (homeCall s l false)) ∧
      (s.homeIdle l false = true → inBin s pa.toNat → exec (.homeRead cls c ctx attr pa ecc) s =
        .next (answerRead (eccOutcome s pa.toNat (s.storeOf pa.toNat) ecc) c ctx pa.toNat)) ∧
      (s.homeIdle l false = true → ¬ inBin s pa.toNat →
        (∀ x, (s.slice h).hit l = some x →
          (attr = 3 → exec (.homeRead cls c ctx attr pa ecc) s =
            .next (answerRead (eccOutcome (dropLine s h l) pa.toNat (s.storeOf pa.toNat) ecc) c ctx pa.toNat)) ∧
          (attr ≠ 3 → (ecc ≠ .uncorrectable ∨ x.dirty = true) →
            exec (.homeRead cls c ctx attr pa ecc) s = .next (answerRead (eccOutcome (countUp (touchLine s h l false) 1 h 0 1) pa.toNat
              (0x04, BitVec.ofNat 8 h, BitVec.ofNat 16 (16 * x.way + setOf l % 16), 2) ecc) c ctx pa.toNat))) ∧
        ((s.slice h).hit l = none → (s.slice h).filling l = none →
          (∀ w, attr.toNat ≤ 1 → pickWay (s.slice h) (s.fillWays h cls (s.commonsAddr pa.toNat)) l = some w →
            exec (.homeRead cls c ctx attr pa ecc) s = .next (missNotice
              (charge (startFill s h l w sec [.read c ctx sec] false) c pa.toNat 128) cls c l)) ∧
          (2 ≤ attr.toNat → exec (.homeRead cls c ctx attr pa ecc) s = .next (answerRead
            (eccOutcome (charge (addHeat s h pa.toNat) c pa.toNat 128) pa.toNat (s.storeOf pa.toNat) ecc) c ctx pa.toNat))) ∧
        (∀ f, (s.slice h).hit l = none → (s.slice h).filling l = some f →
          exec (.homeRead cls c ctx attr pa ecc) s = .next (if f.got.getLsbD sec && !f.hasWrite then answerRead s c ctx pa.toNat
            else missNotice (joinFill s h l (.read c ctx sec) false) cls c l))))

/-- HOME_WRITE first takes the line back from every cache; then it stores exactly its bytes at the home, whatever the attribute,
and acknowledges with status 0x0000: the written bytes read as the data and every byte of every other line is as before; a write
of part of a line that allocates joins the fill of its line (R241, R244, R249, R323). -/
def Obligations.HomeWriteStoresExactlyItsBytes : Prop :=
  ∀ (cls : RClass) (c ctx : Nat) (attr : BitVec 3) (pa : PAddr) (data : List Byte) (s : State),
    Performs s ctx pa.toNat → attr.toNat < 4 → data ≠ [] → pa.toNat % 128 + data.length ≤ 128 →
    (s.homeIdle (lineNo pa.toNat) true = false →
      exec (.homeWrite cls c ctx attr pa data) s = .next (homeCall s (lineNo pa.toNat) true)) ∧
    (s.homeIdle (lineNo pa.toNat) true = true → WritesNow s cls attr.toNat pa.toNat data.length →
      ∃ t, exec (.homeWrite cls c ctx attr pa data) s = .next t ∧
        (∀ i (h : i < data.length), t.byte (pa.toNat + i) = data[i]) ∧
        (∀ a, lineNo a ≠ lineNo pa.toNat → t.byte a = s.byte a) ∧
        t.out.head? = some (.home c ctx 0 0) ∧ t.groups.map (·.1) = s.groups.map (·.1)) ∧
    (s.homeIdle (lineNo pa.toNat) true = true → ¬ inBin s pa.toNat →
      (s.slice (s.homeOf pa.toNat)).hit (lineNo pa.toNat) = none → writeWaits s cls attr.toNat pa.toNat data.length = true →
      exec (.homeWrite cls c ctx attr pa data) s = .next (joinFill (writeMiss s cls attr.toNat pa.toNat data.length)
        (s.homeOf pa.toNat) (lineNo pa.toNat) (.write c ctx pa.toNat data) false))

/-- FILL_SECTOR_ARRIVAL takes the sector, the requested one first, answers the requests that joined as far as their data is there
and with the fourth sector makes the line valid; VICTIM_WRITE_ACCEPTED drops the victim and lets the fill's read go, a line that
was written whole being valid then (R240, R241, R243). -/
def Sys2Proof.Claims.FillEventsResult : Prop :=
  (∀ (h l sec : Nat) (ecc : Ecc) (s : State) (f : Fill), (s.slice h).filling l = some f → f.victim = none → sec < 4 →
    f.got.getLsbD sec = false → (f.got = 0 → sec = f.first) →
    let got := f.got ||| BitVec.ofNat 4 (2 ^ sec)
    let r := answerJoined l got (eccOutcome s (128 * l + 32 * sec) (s.storeOf (128 * l + 32 * sec)) ecc) f.joined
    (got = 15 → exec (.fillSectorArrival h l sec ecc) s = .next (fillDone r.1 h { f with got := got, joined := r.2 })) ∧
    (got ≠ 15 → exec (.fillSectorArrival h l sec ecc) s = .next (r.1.setSlice h { r.1.slice h with
      fills := (r.1.slice h).fills.map fun x => if x.line = l then { f with got := got, joined := r.2 } else x }))) ∧
  (∀ (s : State) (h : Nat) (f : Fill), (s.slice h).isCache f.way = true →
    (∀ x ∈ ((fillDone s h f).slice h).fills, x.line ≠ f.line) ∧
    ((fillDone s h f).slice h).lines.head? = some { line := f.line, way := f.way, dirty := f.dirty }) ∧
  (∀ (h l : Nat) (s : State) (f : Fill), (s.slice h).fills.find? (fun f => decide (f.victim = some l)) = some f →
    let s1 := charge (s.setSlice h { s.slice h with
      fills := (s.slice h).fills.map fun x => if x.line = f.line then { f with victim := none } else x
      lines := (s.slice h).lines.filter fun x => decide (x.line ≠ l) }) 0 (128 * l) 128
    exec (.victimWriteAccepted h l) s = .next (resumeFolest (if f.got = 15 then fillDone s1 h { f with victim := none } else s1)))

/-- A write in an OPEN epoch is tentative: reads in the epoch see it, plain reads see every byte as before, and memory does not
change (R249, R250); in an epoch that is not OPEN it is discarded with 0x0409 and the context is lost (R257); a write to a page
that is moving waits (R261), and one to a line that caches hold lets the home take it back first (R323). -/
def Obligations.PoolWriteIsTentative : Prop :=
  ∀ (ctx e : Nat) (pa : PAddr) (data : List Byte) (s : State) (c : Context), s.ctx? ctx = some c → Performs s ctx pa.toNat →
    e < 64 → data ≠ [] → pa.toNat % 128 + data.length ≤ 128 → (s.slice (s.homeOf pa.toNat)).tent = true →
    (s.pageMoving pa.toNat = true → exec (.poolWrite ctx e pa data) s = .next s) ∧
    (s.pageMoving pa.toNat = false → s.homeIdle (lineNo pa.toNat) true = false →
      exec (.poolWrite ctx e pa data) s = .next (homeCall s (lineNo pa.toNat) true)) ∧
    (s.pageMoving pa.toNat = false → s.homeIdle (lineNo pa.toNat) true = true → s.seal? (.poolWay (s.homeOf pa.toNat)) = none →
      (s.epoch (64 * c.part + e)).state = .opened → s.parentVoided (64 * c.part + e) (s.homeOf pa.toNat) = false →
      (s.slice (s.homeOf pa.toNat)).pool.length < 524288 →
      ∃ t, exec (.poolWrite ctx e pa data) s = .next t ∧
        (∀ i (h : i < data.length), t.readByte (some (64 * c.part + e)) (pa.toNat + i) = data[i]) ∧
        t.out.head? = some (.home 0xFFFF ctx 0 0) ∧
        (s.lineShared (lineNo pa.toNat) = false → t.mem = s.mem ∧ ∀ a, t.readByte none a = s.readByte none a)) ∧
    (s.pageMoving pa.toNat = false → s.homeIdle (lineNo pa.toNat) true = true → (s.epoch (64 * c.part + e)).state ≠ .opened →
      exec (.poolWrite ctx e pa data) s = .next (addLoss (eventCtx (s.emit (.home 0xFFFF ctx 0x0409 0)) 2 0x0409 0x01 0xFF 0xFFFF ctx
        pa.toNat 0) ctx 0x0409 0xFFFF 0 (w64 pa.toNat) true))

/-- NEAR_STORE_ATOMIC takes the line back from the caches, then applies the oldest atomic sent to a slice and answers with the old
value; when any lane's atomic that still waits would fault, none has an effect and the group parks with the status and address of
the lowest (R116, R224 to R226, R323). -/
def Sys2Proof.Claims.NearStoreAtomicDone : Prop :=
  ∀ (c h : Nat) (s : State) (r : NsReq), (s.core c).nsa.find? (fun r => decide (s.homeOf r.pa.toNat = h)) = some r →
    let lanes := if r.req = none then [] else (s.core c).nsa.filter fun q => decide (q.slot = r.slot) && q.req.isSome
    ((∀ q ∈ lanes, (nsTry s q).2.1 = 0) → s.homeIdle (lineNo r.pa.toNat) true = false →
      exec (.nearStoreAtomic c h) s = .next (homeCall s (lineNo r.pa.toNat) true)) ∧
    ((∀ q ∈ lanes, (nsTry s q).2.1 = 0) → s.homeIdle (lineNo r.pa.toNat) true = true →
      let t := nsTry (s.modCore c fun k => { k with nsa := k.nsa.erase r }) r
      exec (.nearStoreAtomic c h) s = .next (t.1.modGroup { core := c, slot := r.slot } fun k =>
        { k with reqs := k.reqs.map fun q => if r.req = some q.id then { q with answer := some (w64 t.2.2) } else q })) ∧
    (∀ q, lanes.find? (fun q => decide ((nsTry s q).2.1 ≠ 0)) = some q →
      exec (.nearStoreAtomic c h) s = .next ((s.modCore c fun k => { k with nsa := k.nsa.filter fun q => !lanes.contains q }).modGroup
        { core := c, slot := r.slot } fun k => beginPark { k with reqs := k.reqs.filter fun x =>
          !(lanes.any fun y => decide (y.req = some x.id)) } 6 (nsTry s q).2.1 q.va.toNat 0))

/-- What an atomic leaves at its home is *Table 4-7*'s result of the old value, which it answers (R224). -/
def Sys2Proof.Claims.NearStoreAtomicValue : Prop :=
  ∀ (s : State) (pa aop n val cmp : Nat), n = 4 ∨ n = 8 → pa % n = 0 →
    let old := leNat (s.read none pa n)
    let r := nearApply s none pa aop n val cmp
    r.2.1 = 0 ∧ r.2.2 = old ∧ leNat ((List.range n).map fun i => r.1.byte (pa + i)) = atomicResult aop (8 * n) old val cmp % 2 ^ (8 * n) ∧
    ∀ a, lineNo a ≠ lineNo pa → r.1.byte a = s.byte a

/-- POOL_FOLD leaves in its slice's pool exactly the lines that are still held, and poisons no sector that no poisoned line of the
pool covers (R251, R259). -/
def Obligations.PoolFoldKeepsHeldLines : Prop :=
  ∀ (h : Nat) (s : State), ∃ t, exec (.poolFold h) s = .next t ∧ (t.slice h).pool = (s.slice h).pool.filter stillHeld ∧
    t.groups.map (·.1) = s.groups.map (·.1) ∧
    ∀ k ∈ t.poison, k ∈ s.poison ∨ ∃ p ∈ (s.slice h).pool, p.poisoned = true ∧ k / 4 = p.line

/-- The epoch controller takes the stores of a partition in order: OPEN unseals the partition's pool ways and makes the epoch OPEN
under its parent, COMMIT and DISCARD make it CLOSING and send the command to every slice of the partition, and any of them that *Table 9-11* refuses sets
LAST_STATUS and the refusal word and raises its tally; a store that is no command sets the refusal word alone (R246, R252 to R255,
R258, R265). -/
def Sys2Proof.Claims.EpochCommandResult : Prop :=
  (∀ (p : Nat) (s s1 : State) (x : EpochStore), headStore s p = some (x, s1) → isCommand x = false →
    exec (.epochCommandRefused p) s = .next (refuseWord s1 x.ctx 0x040E 0)) ∧
  ∀ (p : Nat) (s s1 : State) (x : EpochStore), Heads s p x s1 →
    (∀ row ∈ [(Instr.epochOpen p, 1), (Instr.epochCommit p, 2), (Instr.epochDiscard p, 3)], epOp x.word = row.2 →
      cmdStatus s1 p x.ctx x.word ≠ 0 →
      exec row.1 s = .next (refuseCmd s1 p x.ctx x.word (cmdStatus s1 p x.ctx x.word))) ∧
    (epOp x.word = 1 → cmdStatus s1 p x.ctx x.word = 0 →
      exec (.epochOpen p) s = .next (raiseTally ((wakePools s1 p).setEpoch (64 * p + epNum x.word)
        { (wakePools s1 p).epoch (64 * p + epNum x.word) with
          state := .opened, overflow := false, poisoned := false, last := 0
          parent := if epChild x.word then some (epParent x.word) else none }) x.ctx (epTally x.word) 1)) ∧
    (epOp x.word = 2 → cmdStatus s1 p x.ctx x.word = 0 →
      ∃ t c, exec (.epochCommit p) s = .next t ∧ t = closeEpoch s1 p x true ∧ (t.epoch (64 * p + epNum x.word)).state = .closing ∧
        (t.epoch (64 * p + epNum x.word)).cmd = some c ∧ c.ctx = x.ctx ∧ c.apply = partHalls (s.part p) ∧
        (c.commit = true ↔ (s1.epoch (64 * p + epNum x.word)).overflow = false ∧
          (s1.epoch (64 * p + epNum x.word)).poisoned = false) ∧ t.slices = s.slices ∧ t.mem = s.mem) ∧
    (epOp x.word = 3 → cmdStatus s1 p x.ctx x.word = 0 →
      ∃ t c, exec (.epochDiscard p) s = .next t ∧ t = closeEpoch s1 p x false ∧ (t.epoch (64 * p + epNum x.word)).state = .closing ∧
        (t.epoch (64 * p + epNum x.word)).cmd = some c ∧ c.ctx = x.ctx ∧ c.apply = partHalls (s.part p) ∧ c.commit = false ∧
        t.slices = s.slices ∧ t.mem = s.mem) ∧
    (epOp x.word = 0 ∨ 3 < epOp x.word →
      exec (.epochCommandRefused p) s = .next (refuseCmd s1 p x.ctx x.word 0x040E))

/-- At a slice a COMMIT relabels the epoch's lines as committed, or as its parent's, above every line already there, and a DISCARD
voids them; the acknowledgement of the last slice completes the command (R253, R255, R259). -/
def Sys2Proof.Claims.EpochSliceResult : Prop :=
  ∀ (p e h : Nat) (s : State) (c : EpochCmd), (s.epoch (64 * p + e)).cmd = some c →
    (h ∈ c.apply → s.parentVoided (64 * p + e) h = false →
      ∃ t, exec (.epochSliceApply p e h) s = .next t ∧
        (t.epoch (64 * p + e)).cmd = some { c with apply := c.apply.erase h, ack := c.ack ++ [h] } ∧ t.mem = s.mem ∧
        (c.commit = true → (s.epoch (64 * p + e)).parent = none →
          ∀ l ∈ (t.slice h).pool, l.tag ≠ .held (64 * p + e) ∧
            (l.tag = .committed (64 * p + e) → (∀ m ∈ (s.slice h).pool, m.tag ≠ .committed (64 * p + e)) →
              (s.slice h).poolSeq ≤ l.seq)) ∧
        (c.commit = false → ∀ l ∈ (t.slice h).pool, l.tag ≠ .held (64 * p + e))) ∧
    (h ∈ c.ack → (c.apply ≠ [] ∨ c.ack.erase h ≠ []) →
      exec (.epochSliceAck p e h) s = .next (s.setEpoch (64 * p + e)
        { s.epoch (64 * p + e) with cmd := some { c with ack := c.ack.erase h } })) ∧
    (h ∈ c.ack → c.apply = [] → c.ack.erase h = [] →
      exec (.epochSliceAck p e h) s = .next (finishEpoch s (64 * p + e) { c with ack := [] }))

/-- UNIT_SEAL closes a unit that may be gated, UNIT_DRAIN_DONE, once its requests are complete, invalidates a cache way's lines and
gates the unit, UNIT_UNGATE
returns it to service with zeros in its storage and every other byte as before (R262, R263, R265). -/
def Sys2Proof.Claims.GatingResult : Prop :=
  ∀ (u : GateUnit) (s : State),
    (s.inService = true → u.wf = true → s.seal? u = none → s.mayGate u = true → exec (.unitSeal u) s = .next (s.setSeal u (some .closed))) ∧
    (s.seal? u = some .closed → s.unitBusy u = false → ∃ t, exec (.unitDrainDone u) s = .next t ∧ t.seal? u = some .gated ∧ t.mem = s.mem ∧
      (∀ h w, u = .cacheWay h w → ∀ x ∈ (t.slice h).lines, x.way ≠ w)) ∧
    (s.seal? u = some .gated → ∃ t, exec (.unitUngate u) s = .next t ∧ t.seal? u = none ∧
      (∀ a, s.inUnit u a = true → t.byte a = 0) ∧ ∀ a, s.inUnit u a = false → t.byte a = s.byte a)

/-- PATROL_SCRUB counts and records what the check bits of a sector say; an uncorrectable sector is poisoned and recorded with
0x0707; an uncorrectable pool line poisons its line and its epoch (R261, R434, R435, R437, R438). -/
def Sys2Proof.Claims.PatrolScrubResult : Prop :=
  ∀ (pa : PAddr) (s : State), s.inService = true → s.homeStatus pa.toNat = 0 → (s.placeOf pa.toNat).isDevice = false →
    (∀ ecc, ecc ≠ .uncorrectable →
      exec (.patrolScrub pa none ecc) s = .next (eccOutcome s pa.toNat (s.storeOf pa.toNat) ecc)) ∧
    (s.commonsBlock pa.toNat = none → s.refBlock pa.toNat = none →
      ∃ t, exec (.patrolScrub pa none .uncorrectable) s = .next t ∧ sectorNo pa.toNat ∈ t.poison ∧ t.mem = s.mem ∧
        ∃ r ∈ t.flash.events, r.status = 0x0707 ∧ r.phys = pa) ∧
    (∀ e x, x ∈ (s.slice (s.homeOf pa.toNat)).pool → x.line = lineNo pa.toNat → x.tag = .held e →
      ∃ t, exec (.patrolScrub pa (some e) .uncorrectable) s = .next t ∧ (t.epoch e).poisoned = true ∧
        { x with poisoned := true } ∈ (t.slice (s.homeOf pa.toNat)).pool ∧ t.mem = s.mem)

namespace Sys2Proof.Claims

open Sys2Proof.Machine

/-! ## Translation, shootdowns, refresh, regulators -/

/-- What a walker finds for a structure, and the state with the pointer entries it cached (R281, R282). -/
def walkOf (s : State) (st : TlbStruct) (ctx v : Nat) : State × Walk :=
  walkerFrom s (hallOfStruct st) ctx v [4, 3, 2, 1, 0] (((s.ctx? ctx).map (·.root.toNat)).getD 0)

end Sys2Proof.Claims

/-- PAGE_WALK answers a miss with the leaf, which enters the structure unless it is MOVING, or with 0x0401 for an address that is
out of range, not mapped or reached through a malformed entry, which is recorded; a poisoned table, or a rejected request, loses the context
(R264, R275 to R282, R440). -/
def Sys2Proof.Claims.PageWalkResult : Prop :=
  ∀ (st : TlbStruct) (ctx : Nat) (v : BitVec 64) (s : State) (c : Context), s.ctx? ctx = some c →
    (2 ^ 56 ≤ v.toNat → exec (.pageWalk st ctx v) s = .next (s.emit (.walk ctx 0x0401 0))) ∧
    (v.toNat < 2 ^ 56 → ∀ s1 w, walkOf s st ctx v.toNat = (s1, w) →
      (∀ l at_ e, w = .leaf l at_ e → leafMoving e = false → (s1.tlbFind st false ctx v.toNat).isSome = false →
        exec (.pageWalk st ctx v) s = .next ((tlbFill s1 st false ctx v.toNat l e).emit (.walk ctx 0 e))) ∧
      (∀ l at_ e, w = .leaf l at_ e → leafMoving e = true →
        exec (.pageWalk st ctx v) s = .next (s1.emit (.walk ctx 0 e))) ∧
      (w = .invalid → exec (.pageWalk st ctx v) s = .next (s1.emit (.walk ctx 0x0401 0))) ∧
      (∀ pa, w = .malformed pa →
        exec (.pageWalk st ctx v) s = .next ((tableMalformed s1 ctx pa).emit (.walk ctx 0x0401 0))) ∧
      (w = .poisoned → exec (.pageWalk st ctx v) s =
        .next (loseBy (s1.emit (.walk ctx 0x0701 0)) (0x0B, BitVec.ofNat 8 (hallOfStruct st), 0xFFFF) ctx 0x0701 v.toNat)) ∧
      (∀ x pa, w = .rejected x pa → exec (.pageWalk st ctx v) s =
        .next (rejectRequest (s1.emit (.walk ctx x 0)) .walk (88 * 4 * hallOfStruct st) ctx pa x)))

/-- A walk that ends in a leaf ends in one that is valid, is a leaf, and is well formed for its level (R276 to R278). -/
def Obligations.WalkEndsInWellFormedLeaf : Prop :=
  ∀ (s : State) (ctx v l at_ : Nat) (e : W64), s.walk ctx v = .leaf l at_ e →
    leafV e = true ∧ leafIs e = true ∧ malformed s.orderC l e = false ∧ l ≤ 2 ∧ s.homeStatus at_ = 0 ∧ s.tableEntry at_ = e

/-- SHOOTDOWN: the structure holds no entry of the range any more and, when it is no core's, acknowledges at once; other
identifiers' entries stay (R283, R284). -/
def Sys2Proof.Claims.ShootdownDropsEntries : Prop :=
  ∀ (id : Nat) (st : TlbStruct) (s : State) (x : Shoot), s.shoots.find? (fun x => decide (x.id = id)) = some x → st ∈ x.todo →
    ((∀ c, st ≠ .core c) → ∃ t, exec (.shootdown id st) s = .next t ∧
      (∀ e ∈ t.tlb, e.st = st → e.asid = x.asid → overlaps e.level e.vpn x.lo x.hi = false) ∧
      (∀ e ∈ s.tlb, e.asid ≠ x.asid → e ∈ t.tlb) ∧
      { x with todo := x.todo.erase st, acks := x.acks ++ [st] } ∈ t.shoots ∧ t.mem = s.mem) ∧
    (∀ c, st = .core c → sbInRange s c x.asid x.lo x.hi = [] → onTheWay s c x.asid x.lo x.hi = false →
      exec (.shootdown id st) s = .next { dropTlb s st x.asid x.lo x.hi with
        shoots := s.shoots.map fun y => if y.id = id then { y with todo := y.todo.erase st, acks := y.acks ++ [st] } else y })

/-- REFRESH_ADJUST takes the rate of *Table 10-13* for the stack's temperature, at once upwards and 3 °C below the threshold
downwards, never below REFRESH_MIN, and halves the bandwidth from 105 °C until below 100 °C (R293, R294). -/
def Sys2Proof.Claims.RefreshResult : Prop :=
  ∀ (k : Nat) (s : State), k < 24 → s.inService = true → ∃ t r, exec (.refreshAdjust k) s = .next t ∧ tget Refresh.reset t.refresh k = r ∧
    s.refreshMin k ≤ r.rate ∧ (105000 ≤ s.stackTemp k → r.halved = true) ∧ (s.stackTemp k < 100000 → r.halved = false) ∧
    (95000 ≤ s.stackTemp k → 4 ≤ r.rate) ∧ (85000 ≤ s.stackTemp k → 2 ≤ r.rate) ∧
    (s.stackTemp k < 82000 → s.refreshMin k = 1 → r.rate = 1) ∧ t.mem = s.mem ∧
    ∀ j, j ≠ k → tget Refresh.reset t.refresh j = tget Refresh.reset s.refresh j

/-- REGULATOR_WINDOW: a locked regulator keeps its record's BORROW; the third window in a row in which guaranteed requests waited
lowers the effective BORROW, not below GUAR; the 64th window without restores it (R297). The value it is lowered to is free. -/
def Sys2Proof.Claims.RegulatorResult : Prop :=
  ∀ (res p : Nat) (held : Bool) (s : State), res < 26 → p < 12 → s.inService = true →
    let r := tget Regulator.reset s.regs (regKey res p)
    ∃ t r', exec (.regulatorWindow res p held) s = .next t ∧ tget Regulator.reset t.regs (regKey res p) = r' ∧
      r'.used = 0 ∧ r'.guar = r.guar ∧ r'.borrow = r.borrow ∧ r'.lock = r.lock ∧
      (r.lock = true → r'.eff = r.borrow) ∧
      (r.lock = false → held = true → r.waits < 2 → r'.eff = r.eff ∧ r'.waits = r.waits + 1) ∧
      (r.lock = false → held = true → 2 ≤ r.waits → r.guar < r.eff → r.guar ≤ r'.eff ∧ r'.eff < r.eff) ∧
      (r.lock = false → held = false → 63 ≤ r.calm → r'.eff = r.borrow) ∧
      (r.lock = false → held = false → r.calm < 63 → r'.eff = r.eff ∧ r'.calm = r.calm + 1 ∧ r'.waits = 0) ∧ t.mem = s.mem

namespace Sys2Proof.Claims

open Sys2Proof.Machine

/-! ## Coherence -/

/-- The oldest message of a line from a core to the home is `m`, of the given kind. -/
structure ArrivesHome (s : State) (kind : MsgKind) (core line : Nat) (m : Msg) : Prop where
  oldest : s.toHome core line = some m
  kind : m.kind = kind

def requestRows : List ((Nat → Nat → Instr) × MsgKind × Bool) :=
  [(.gets, .getS, false), (.getm, .getM, true), (.upgrade, .upgrade, true)]

/-- A response of the core `c` about a line, to the requester or to the home. -/
def answer (kind : MsgKind) (line c : Nat) (goal : Option Nat) (req : Option Nat) (data : Line) (dirty : Bool) (grant : Mesi) : Msg :=
  { kind := kind, line := line, src := some c, dst := goal, requester := req, data := data, count := 0, dirty := dirty, grant := grant,
    pref := false }

end Sys2Proof.Claims

/-- GETS, GETM and UPGRADE queue behind a transaction in progress, and start one when the line's entry is free: the home forwards
to the owner, or answers with the line and invalidates the other sharers of a line wanted for writing. A request that the home
rejects, or for a held line, gets no line; a commons line is answered without a transaction (R234, R251, R264, R318 to R320). -/
def Sys2Proof.Claims.CoherenceRequestResult : Prop :=
  ∀ row ∈ requestRows, ∀ (c l : Nat) (s : State) (m : Msg), ArrivesHome s row.2.1 c l m →
    (s.coreStatus c (128 * l) ≠ 0 →
      exec (row.1 c l) s = .next (rejectMiss (takeMsg s m) c l row.2.2 (s.coreStatus c (128 * l)))) ∧
    (s.coreStatus c (128 * l) = 0 → s.isHeld (128 * l) = true → exec (row.1 c l) s = .next (forgetMiss (takeMsg s m) c l)) ∧
    (s.coreStatus c (128 * l) = 0 → s.isHeld (128 * l) = false → s.commonsAddr (128 * l) = false →
      ((s.dirEntry l).busy.isSome = true → exec (row.1 c l) s = .next ((takeMsg s m).markDir l
        { s.dirEntry l with waiting := (s.dirEntry l).waiting ++ [m] })) ∧
      ((s.dirEntry l).busy = none → exec (row.1 c l) s = .next (tryServe ((takeMsg s m).setDir l
        { s.dirEntry l with waiting := (s.dirEntry l).waiting ++ [m] }) l)) ∧
      ((s.dirEntry l).busy = none → (s.dirEntry l).waiting = [] → s.dirFree l = true →
        (∀ o, (s.dirEntry l).st = .owned o → o ≠ c → ∃ t f, exec (row.1 c l) s = .next t ∧ t.net = s.net.erase m ++ [f] ∧
          f.dst = some o ∧ f.requester = some c ∧ f.kind = (if row.2.2 then .fwdGetM else .fwdGetS) ∧ t.mem = s.mem) ∧
        ((s.dirEntry l).st = .i → ∃ t f, exec (row.1 c l) s = .next t ∧ t.net = s.net.erase m ++ [f] ∧ f.kind = .data ∧
          f.dst = some c ∧ f.data = s.memLine l ∧ f.count = 0 ∧
          f.grant = (if row.2.2 then .m else if m.grant = .s then .s else .e) ∧ t.mem = s.mem)))

/-- PUTE and PUTM of the owner outside any transaction free the entry, PUTM writing the line at the home; during a transaction the
home holds a PUTM's line and drops a PUTE; DATA_HOME writes the line; DATA_IN_FLIGHT completes the forwarded request with the line
the home holds; DONE ends the requester's part; the transaction is over, and the next request is served, when every part of it has
come. A line whose write as a victim is not accepted waits (R240, R319 to R323). -/
def Sys2Proof.Claims.CoherenceHomeResult : Prop :=
  (∀ (c l : Nat) (s : State) (m : Msg), ArrivesHome s .putE c l m → (s.dirEntry l).st = .owned c →
    ((s.dirEntry l).busy = none → exec (.pute c l) s = .next (settleDir (takeMsg s m) l .i)) ∧
    ((s.dirEntry l).busy.isSome = true → exec (.pute c l) s = .next (takeMsg s m))) ∧
  (∀ (c l : Nat) (s : State) (m : Msg), ArrivesHome s .putM c l m → (s.dirEntry l).st = .owned c →
    ((s.dirEntry l).busy = none → s.victimBusy l = false →
      exec (.putm c l) s = .next (settleDir (sliceTakes (takeMsg s m) l m.data) l .i)) ∧
    (∀ x, (s.dirEntry l).busy = some x →
      exec (.putm c l) s = .next ((takeMsg s m).markDir l { s.dirEntry l with busy := some { x with put := some m.data } }))) ∧
  (∀ (c l : Nat) (s : State) (m : Msg) (x : Txn), ArrivesHome s .dataHome c l m → (s.dirEntry l).busy = some x → x.copy = true →
    s.victimBusy l = false →
    exec (.datahome c l) s = .next (resumeFolest (progress (sliceTakes (takeMsg s m) l m.data) l { x with copy := false }))) ∧
  (∀ (c l : Nat) (s : State) (m : Msg) (x : Txn), ArrivesHome s .dataInFlight c l m → (s.dirEntry l).busy = some x →
    s.victimBusy l = false →
    (∀ r, x.core = some r → ∃ t f, exec (.datainflight c l) s = .next (resumeFolest t) ∧ t.net = s.net.erase m ++ [f] ∧
      f.kind = .data ∧ f.dst = some r ∧ f.grant = x.grant ∧ f.count = 0 ∧ f.data = t.memLine l ∧
      (t.dirEntry l).busy = some { x with owner := none, put := none, copy := false } ∧
      (∀ d, m.dirty = true → x.put = some d → ∀ i < 128, t.byte (128 * l + i) = lineByte d i)) ∧
    (x.core = none → (m.dirty = false ∨ x.put = none) → exec (.datainflight c l) s = .next (resumeFolest (progress (takeMsg s m) l
      { x with owner := none, put := none, copy := false })))) ∧
  (∀ (c l : Nat) (s : State) (m : Msg) (x : Txn), ArrivesHome s .done c l m → (s.dirEntry l).busy = some x → x.core = some c →
    (x.copy = false → x.acks = 0 → exec (.doneMsg c l) s = .next (resumeFolest (settleDir (takeMsg s m) l
      (doneState (s.dirEntry l) x)))) ∧
    (x.copy = true ∨ x.acks ≠ 0 → exec (.doneMsg c l) s = .next (resumeFolest ((takeMsg s m).markDir l
      { s.dirEntry l with busy := some { x with done := true } }))))

/-- A core answers INV by dropping its S copy and acknowledging to the requester, held or not; FWD_GETS by sending the line to
requester and home and keeping it in S; FWD_GETM by sending it to the requester and dropping it; to the home alone when the home
asks for itself; both by DataInFlight when it has evicted the line (R321 to R323). -/
def Sys2Proof.Claims.CoherenceCoreResult : Prop :=
  (∀ (c l : Nat) (s : State) (m : Msg), s.toCore .inv c l = some m →
    (tfind (s.core c).l1 l = none →
      exec (.invMsg c l) s = .next (send (takeMsg s m) (answer .invAck l c m.requester m.requester 0 false .s))) ∧
    (∀ x, tfind (s.core c).l1 l = some x → x.st = .s →
      ∃ t, exec (.invMsg c l) s = .next t ∧ tfind (t.core c).l1 l = none ∧ t.mem = s.mem ∧
        t.net = s.net.erase m ++ [answer .invAck l c m.requester m.requester 0 false .s])) ∧
  (∀ (c l : Nat) (s : State) (m : Msg) (d : Line), s.toCore .fwdGetS c l = some m → s.owned? c l = some d →
    ∃ t, exec (.fwdgets c l) s = .next t ∧ tfind (t.core c).l1 l = some { st := .s, data := d, commons := false } ∧
      t.net = s.net.erase m ++ (if m.requester.isSome then [answer .data l c m.requester m.requester d false m.grant] else []) ++
        [answer .dataHome l c none none d true .s] ∧ t.mem = s.mem) ∧
  (∀ (c l : Nat) (s : State) (m : Msg) (d : Line), s.toCore .fwdGetM c l = some m → s.owned? c l = some d →
    ∃ t, exec (.fwdgetm c l) s = .next t ∧ tfind (t.core c).l1 l = none ∧
      t.net = s.net.erase m ++ [if m.requester.isSome then answer .data l c m.requester m.requester d false m.grant
        else answer .dataHome l c none none d true .s] ∧ t.mem = s.mem) ∧
  (∀ row ∈ [(Instr.fwdgets, MsgKind.fwdGetS), (.fwdgetm, .fwdGetM)], ∀ (c l : Nat) (s : State) (m : Msg),
    s.toCore row.2 c l = some m → s.owned? c l = none →
    ∃ t f, exec (row.1 c l) s = .next t ∧ t.net = s.net.erase m ++ [f] ∧ f.kind = .dataInFlight ∧ f.src = some c ∧ f.dst = none ∧
      t.mem = s.mem ∧ t.cores = s.cores)

/-- DATA and INV_ACK complete a miss with its last piece: the line is installed in the granted state, the miss register is free
and Done goes to the home; until then they are noted in the register. An INV_ACK for the home itself is counted there (R317, R320,
R323). -/
def Sys2Proof.Claims.CoherenceMissResult : Prop :=
  (∀ (c l : Nat) (s : State) (m : Msg) (x : Mshr), s.toCore .data c l = some m → tfind (s.core c).mshr l = some x →
    ((tfind (s.core c).l1 l).isSome = true ∨ l1Used (s.core c) < 512) → s.commonsAddr (128 * l) = false →
    (m.count ≤ x.got → ∃ t, exec (.dataMsg c l none) s = .next t ∧
      tfind (t.core c).l1 l = some { st := m.grant, data := m.data, commons := false } ∧ tfind (t.core c).mshr l = none ∧
      t.net = s.net.erase m ++ [answer .done l c none none 0 false .s] ∧ t.mem = s.mem) ∧
    (x.got < m.count → ∃ t, exec (.dataMsg c l none) s = .next t ∧
      tfind (t.core c).mshr l = some { x with grant := some m.grant, data := m.data, need := m.count } ∧
      (t.core c).l1 = (s.core c).l1 ∧ t.mem = s.mem)) ∧
  (∀ (c l : Nat) (s : State) (m : Msg) (x : Txn), ArrivesHome s .invAck c l m → (s.dirEntry l).busy = some x → x.core = none →
    0 < x.acks → exec (.invack c l) s = .next (resumeFolest (progress (takeMsg s m) l { x with acks := x.acks - 1 }))) ∧
  (∀ (c l : Nat) (s : State) (m : Msg) (x : Mshr), s.toCore .invAck c l = some m → tfind (s.core c).mshr l = some x →
    (∀ m', s.toHome c l = some m' → m'.kind ≠ .invAck) → s.commonsAddr (128 * l) = false →
    (∀ g, x.grant = some g → x.need ≤ x.got + 1 → ∃ t, exec (.invack c l) s = .next (resumeFolest t) ∧
      tfind (t.core c).l1 l = some { st := g, data := x.data, commons := false } ∧ tfind (t.core c).mshr l = none ∧
      t.net = s.net.erase m ++ [answer .done l c none none 0 false .s] ∧ t.mem = s.mem) ∧
    ((x.grant = none ∨ x.got + 1 < x.need) → ∃ t, exec (.invack c l) s = .next (resumeFolest t) ∧
      tfind (t.core c).mshr l = some { x with got := x.got + 1 } ∧ (t.core c).l1 = (s.core c).l1 ∧ t.mem = s.mem))

/-- COHERENCE_ERROR takes the domain of a running partition down: the partition is DOWN, every context of it is queued for loss
with 0x0713, none of its groups holds a slot, and other partitions' states are as before (R325, R326, R444). -/
def Obligations.CoherenceErrorResult : Prop :=
  ∀ (p die l : Nat) (s : State), p < 12 → (s.part p).state = .running →
    ∃ t, exec (.coherenceError p die l) s = .next t ∧ (t.part p).state = .down ∧
      (∀ q, q ≠ p → t.part q = s.part q) ∧
      (∀ e ∈ t.groups, e.2.ctx ∉ s.ctxsOf p) ∧
      (∀ c ctx, s.ctx? c = some ctx → ctx.part = p → ∃ x ∈ t.lossQ, x.ctx = c ∧ x.status = 0x0713)

namespace Sys2Proof.Claims

open Sys2Proof.Machine

/-! ## The Steward -/

/-- The commands that name a context (*Table 13-2*, column Ctx). -/
def contextRows : List (Nat × (Nat → Instr)) :=
  [(0x11, .ctxDestroy), (0x12, .ctxQuery), (0x13, .ctxSet), (0x14, .bellLogRead), (0x15, .parkRead), (0x20, .memCreate),
   (0x21, .memMap), (0x22, .memUnmap), (0x23, .memShare), (0x24, .memRelease), (0x25, .memQuery), (0x29, .commonsFill),
   (0x30, .queueCreate), (0x31, .queueDestroy), (0x32, .queueDoorbell), (0x33, .queueQuery), (0x38, .stationDeclare),
   (0x39, .stationRemove), (0x40, .tallyAlloc), (0x41, .tallyFree), (0x42, .tallySet), (0x43, .tallyExport),
   (0x44, .tallyImport), (0x45, .tallyRelease), (0x46, .tallyQuery), (0x48, .epochAllot), (0x49, .epochReturn),
   (0x61, .debugResume), (0x62, .tableRead)]

/-- The rows that stay answerable for a LOST context, marked L. -/
def lostRows : List Nat := [0x11, 0x12, 0x14, 0x15, 0x25, 0x33, 0x46, 0x62]

/-- The commands whose refusal changes nothing: all but those that R355 excepts, those that may wait, and QUEUE_DOORBELL,
whose bad tail stops the queue (R366). -/
def plainRows : List (Nat × (Nat → Instr)) :=
  [(0x01, .capRead), (0x02, .noticeAck), (0x03, .sessionGrace), (0x10, .ctxCreate), (0x12, .ctxQuery), (0x13, .ctxSet),
   (0x14, .bellLogRead), (0x15, .parkRead), (0x20, .memCreate), (0x21, .memMap), (0x23, .memShare), (0x24, .memRelease),
   (0x25, .memQuery), (0x28, .commonsCreate), (0x2A, .commonsSeal), (0x2B, .commonsFree), (0x30, .queueCreate),
   (0x31, .queueDestroy), (0x33, .queueQuery), (0x38, .stationDeclare), (0x40, .tallyAlloc), (0x41, .tallyFree),
   (0x42, .tallySet), (0x43, .tallyExport), (0x44, .tallyImport), (0x45, .tallyRelease), (0x46, .tallyQuery),
   (0x48, .epochAllot), (0x49, .epochReturn), (0x50, .partPolicy), (0x58, .partConfig), (0x5A, .partResume),
   (0x5C, .partMoveHalls), (0x60, .debugDump), (0x61, .debugResume), (0x62, .tableRead)]

/-- A MEM_MAP's fields, past every check of R364 (*Table 13-2*). -/
structure MapRequest (s : State) (c : Nat) (pl : List Byte) (n : Nat) (o : Obj) : Prop where
  object : s.objOf (le pl 0 4) = some (n, o)
  length : le pl 24 8 ≠ 0
  attr : le pl 33 1 ≤ 3
  wantsRead : nbits (le pl 32 1) 1 1 = 1 → nbits (le pl 32 1) 0 0 = 1
  epoch : le pl 35 1 ≤ 63
  plain : le pl 34 1 ≠ 1 ∧ le pl 35 1 = 0
  range : le pl 8 8 + le pl 24 8 ≤ sysBase
  inside : le pl 16 8 % o.page = 0 ∧ le pl 16 8 + le pl 24 8 ≤ o.bytes
  aligned : le pl 8 8 % o.page = 0 ∧ le pl 24 8 % o.page = 0
  fresh : s.leavesIn c (le pl 8 8) (le pl 24 8) = []
  held : o.commons = false ∧ c ∈ o.refs ∧ o.part = s.ctxPart c

/-- A handle of a tally that the context owns. -/
structure Owns (s : State) (c h n : Nat) : Prop where
  handle : s.tallyOf c h = some n
  owner : (s.tally n).owner = some c

end Sys2Proof.Claims

/-- The Steward checks a request that names a context in the order of R354: the context exists with that generation, it is not
being destroyed, it is not LOST unless the command is marked L, and its partition is not down. -/
def Obligations.StewardChecksInOrder : Prop :=
  ∀ row ∈ contextRows, ∀ (mb : Nat) (m : Mailbox) (s : State), Asked s mb row.1 m → s.power.st ≠ .failed →
    (s.ctx? (msgCtx m.msg) = none →
      exec (row.2 mb) s = .next (respondGen s mb (tget 0 s.lastGen (msgCtx m.msg)) 0x0302 [])) ∧
    ∀ x, s.ctx? (msgCtx m.msg) = some x →
      (x.gen ≠ msgGen m.msg → exec (row.2 mb) s = .next (respondGen s mb x.gen 0x0302 [])) ∧
      (x.gen = msgGen m.msg →
        (x.state = .destroying → exec (row.2 mb) s = .next (respond s mb 0x0303 [])) ∧
        (x.state = .lost → row.1 ∉ lostRows → exec (row.2 mb) s = .next (respondGen s mb x.gen 0x0301 [])) ∧
        (x.state = .active ∨ (x.state = .lost ∧ row.1 ∈ lostRows) → (s.part x.part).state = .down →
          exec (row.2 mb) s = .next (respond s mb 0x030F [])))

/-- A response with a STATUS other than 0 reports a command that changed nothing: the next state is the old one with the
response in it (R355). -/
def Obligations.RefusedCommandsChangeNothing : Prop :=
  ∀ row ∈ plainRows, ∀ (mb : Nat) (m : Mailbox) (s t : State), Asked s mb row.1 m → exec (row.2 mb) s = .next t →
    t = s ∨ (∃ st g, st ≠ 0 ∧ t = respondGen s mb g st []) ∨ ∃ s1 out, t = respond s1 mb 0 out

/-- CAP_READ, NOTICE_ACK, SESSION_GRACE, PART_POLICY and DEBUG_DUMP: what each stores and answers (R32, R356, R377, R292,
*Table 13-2*). The dump's layout is the model's own (log entry 25). -/
def Sys2Proof.Claims.ModuleCommandsResult : Prop :=
  ∀ (mb : Nat) (pl : List Byte) (s : State),
    (Asks s mb 0x01 pl → exec (.capRead mb) s = .next (respond s mb 0 (capBlock s))) ∧
    (Asks s mb 0x02 pl →
      (∀ tag n, s.noticeOut = some (tag, n) → tag.toNat = le pl 0 4 →
        exec (.noticeAck mb) s = .next (respond { s with noticeOut := none } mb 0 [])) ∧
      ((∀ tag n, s.noticeOut = some (tag, n) → tag.toNat ≠ le pl 0 4) →
        exec (.noticeAck mb) s = .next (respond s mb 0x0210 []))) ∧
    (Asks s mb 0x03 pl → exec (.sessionGrace mb) s =
      .next (respond { s with grace := min 60 (le pl 0 4) } mb 0 (leBytes 4 (min 60 (le pl 0 4)) ++ zeros 4))) ∧
    (Asks s mb 0x50 pl →
      (11 < le pl 0 1 ∨ 2 < le pl 1 1 ∨ 1 < le pl 2 1 ∨ 25 < le pl 3 1 ∨ (le pl 1 1 ≠ 2 ∧ le pl 3 1 ≠ 0) →
        exec (.partPolicy mb) s = .next (respond s mb 0x0210 [])) ∧
      (le pl 0 1 ≤ 11 → le pl 1 1 ≤ 2 → le pl 2 1 ≤ 1 → le pl 3 1 ≤ 25 → (le pl 1 1 = 2 ∨ le pl 3 1 = 0) →
        ((s.part (le pl 0 1)).state = .unconfigured ∨ (s.part (le pl 0 1)).state = .down →
          exec (.partPolicy mb) s = .next (respond s mb 0x030F [])) ∧
        (∀ s1 v w, (s.part (le pl 0 1)).state = .running ∨ (s.part (le pl 0 1)).state = .quiesced →
          policyAccess s (le pl 0 1) (le pl 1 1) (le pl 2 1) (le pl 3 1) (w64 (le pl 8 8)) 0x0203 = (s1, 0, v, w) →
          exec (.partPolicy mb) s = .next (respond s1 mb 0 (vecBytes v ++ vecBytes w))))) ∧
    (Asks s mb 0x60 pl →
      (4224 ≤ le pl 0 2 → exec (.debugDump mb) s = .next (respond s mb 0x0210 [])) ∧
      (le pl 0 2 < 4224 → le pl 4 4 < (coreDump s (le pl 0 2)).length → exec (.debugDump mb) s =
        .next (respond s mb 0 (((coreDump s (le pl 0 2)).drop (le pl 4 4)).take 4064))))

/-- CTX_CREATE takes the lowest free number and the next generation, builds the context's system pages and allots its epochs;
CTX_QUERY, CTX_SET, BELL_LOG_READ, PARK_READ, DEBUG_RESUME and TABLE_READ act on the context that they name; CTX_DESTROY starts
the steps of *Table 13-8* and is answered at their end (R246, R359 to R362, R375). -/
def Sys2Proof.Claims.ContextCommandsResult : Prop :=
  ∀ (mb : Nat) (pl : List Byte) (s : State),
    (Asks s mb 0x10 pl → ∀ n gen s1 s2,
      let p := le pl 0 1
      p ≤ 11 → le pl 1 1 ≤ 7 → le pl 3 1 ≤ 64 → (s.part p).state = .running ∨ (s.part p).state = .quiesced →
      lowest 4096 (fun c => (s.ctx? c).isNone) = some n → takeGen s = some (s1, gen) →
      (le pl 2 1 = 1 → (s.pinnedIn p).length < 3) → le pl 3 1 ≤ (s.freeEpochs p).length →
      buildContext s1 n (Context.fresh gen p (le pl 1 1) (decide (le pl 2 1 = 1))) = some s2 →
      exec (.ctxCreate mb) s = .next (respond (allotEpochs { s2 with lastGen := tput s2.lastGen n gen } n
        ((s.freeEpochs p).take (le pl 3 1))) mb 0 (leBytes 2 n ++ zeros 6 ++ leBytes 8 gen))) ∧
    ∀ (c : Nat) (x : Context),
      (AsksFor s mb 0x11 pl c x → exec (.ctxDestroy mb) s = .next (startDestroy (beginWait s mb) c (some (s.ticket mb)))) ∧
      (AsksFor s mb 0x12 pl c x → exec (.ctxQuery mb) s = .next (respond s mb 0 (ctxDescriptor s c x))) ∧
      (AsksFor s mb 0x13 pl c x → le pl 0 1 ≤ 7 →
        (le pl 1 1 ≠ 1 ∨ ((s.pinnedIn x.part).filter fun k => decide (k ≠ c)).length < 3 → exec (.ctxSet mb) s =
          .next (respond (s.setCtx c { x with prio := le pl 0 1, pinned := decide (le pl 1 1 = 1) }) mb 0 [])) ∧
        (le pl 1 1 = 1 → 3 ≤ ((s.pinnedIn x.part).filter fun k => decide (k ≠ c)).length →
          exec (.ctxSet mb) s = .next (respond s mb 0x030B []))) ∧
      (AsksFor s mb 0x14 pl c x →
        (le pl 8 2 = 0 ∨ 127 < le pl 8 2 → exec (.bellLogRead mb) s = .next (respond s mb 0x0210 [])) ∧
        (1 ≤ le pl 8 2 → le pl 8 2 ≤ 127 → exec (.bellLogRead mb) s = .next (respond s mb 0
          ((List.range (le pl 8 2)).flatMap fun i =>
            if le pl 0 8 + i < x.bellCount - x.bellLog.length then zeros 32
            else ((nth? x.bellLog (le pl 0 8 + i - (x.bellCount - x.bellLog.length))).map bellBytes).getD (zeros 32))))) ∧
      (AsksFor s mb 0x15 pl c x →
        (s.stationOf c (le pl 0 4) = none → exec (.parkRead mb) s = .next (respond s mb 0x0315 [])) ∧
        (∀ n st r, s.stationOf c (le pl 0 4) = some (n, st) → le pl 4 2 < st.insts → le pl 6 1 < st.groups →
          le pl 8 4 < 2816 + 128 * st.vregs → s.findParked (le pl 0 4) (le pl 4 2) (le pl 6 1) = some r →
          exec (.parkRead mb) s = .next (respond s mb 0 (((parkBytes r).drop (le pl 8 4)).take 4064)))) ∧
      (AsksFor s mb 0x61 pl c x →
        (s.stationOf c (le pl 0 4) = none → exec (.debugResume mb) s = .next (respond s mb 0x0315 [])) ∧
        (∀ y r, s.stationOf c (le pl 0 4) = some y → s.findParked (le pl 0 4) (le pl 4 2) (le pl 6 1) = some r →
          (r.reason = 7 → exec (.debugResume mb) s = .next (respond { s with
            parked := s.parked.map fun (q : Parked) => if q = r then { q with resume := true } else q } mb 0 [])) ∧
          (r.reason ≠ 7 → exec (.debugResume mb) s = .next (respond s mb 0x0313 [])))) ∧
      (AsksFor s mb 0x62 pl c x →
        (sysBase ≤ le pl 0 8 → exec (.tableRead mb) s = .next (respond s mb 0x0414 [])) ∧
        (le pl 0 8 < sysBase → exec (.tableRead mb) s =
          .next (respond s mb 0 ((walkWords s (le pl 0 8) [4, 3, 2, 1, 0] x.root.toNat).flatMap vecBytes))))

/-- MEM_CREATE, MEM_MAP, MEM_UNMAP, MEM_SHARE, MEM_RELEASE and MEM_QUERY: what each does once its checks hold, and the answer to a
handle that names no object of the context (R363, R364). -/
def Sys2Proof.Claims.MemoryCommandsResult : Prop :=
  ∀ (mb : Nat) (pl : List Byte) (s : State) (c : Nat) (x : Context),
    (AsksFor s mb 0x20 pl c x → ∀ i s1 ps,
      1 ≤ le pl 8 1 → le pl 8 1 ≤ 3 → le pl 0 8 ≠ 0 → le pl 9 1 ≤ 2 → le pl 12 2 = 0 → s.freeObjIndex = some i →
      let size := pageBytes (le pl 9 1)
      let n := cdiv (le pl 0 8) size
      n * size ≤ (s.groupsOfMode (s.ctxPart c) (le pl 8 1)).length * groupBytes →
      takePages (s.ctxPart c) (le pl 8 1) size n s = some (s1, ps) →
      let made := addObj (ps.foldl (fun s a => zeroRange s a size) s1) i
        (Obj.fresh (n * size) (le pl 8 1) size (s.ctxPart c) (decide (le pl 10 1 = 1)) [c] ps)
      exec (.memCreate mb) s = .next (respond made.1 mb 0 (leBytes 4 made.2 ++ zeros 4))) ∧
    (AsksFor s mb 0x21 pl c x → s.memBusy c = false → ∀ n o s1, MapRequest s c pl n o →
      mapPages c (pageCode o.page) n o (fun frame => mkLeaf frame (decide (nbits (le pl 32 1) 0 0 = 1))
        (decide (nbits (le pl 32 1) 1 1 = 1)) (decide (nbits (le pl 32 1) 2 2 = 1)) (le pl 33 1) false o.nomove false false (le pl 35 1))
        ((List.range (le pl 24 8 / o.page)).map fun i => (le pl 8 8 + i * o.page, le pl 16 8 / o.page + i)) s = some s1 →
      exec (.memMap mb) s = .next (respond s1 mb 0 [])) ∧
    (AsksFor s mb 0x22 pl c x → s.memBusy c = false → le pl 8 8 ≠ 0 → le pl 0 8 + le pl 8 8 ≤ sysBase →
      le pl 0 8 % 65536 = 0 → le pl 8 8 % 65536 = 0 →
      (∀ l ∈ s.leavesIn c (le pl 0 8) (le pl 8 8), le pl 0 8 ≤ l.va ∧ l.va + 2 ^ levelShift l.level ≤ le pl 0 8 + le pl 8 8) →
      (s.leavesIn c (le pl 0 8) (le pl 8 8) = [] → exec (.memUnmap mb) s = .next (respond s mb 0 [])) ∧
      (s.leavesIn c (le pl 0 8) (le pl 8 8) ≠ [] → exec (.memUnmap mb) s =
        .next (startShoot (clearLeaves (beginWait s mb) (s.leavesIn c (le pl 0 8) (le pl 8 8))) c (le pl 0 8) (le pl 0 8 + le pl 8 8)
          (.respond (s.ticket mb))))) ∧
    (AsksFor s mb 0x23 pl c x → ∀ n o, s.heldObj c (le pl 0 4) = some (n, o) →
      targetStatus s (le pl 4 2) (le pl 8 8) = 0 →
      (s.ctxPart (le pl 4 2) = o.part → exec (.memShare mb) s = .next (respond { s with
        objs := tput s.objs n { o with refs := addOnce (le pl 4 2) o.refs } } mb 0 [])) ∧
      (s.ctxPart (le pl 4 2) ≠ o.part → exec (.memShare mb) s = .next (respond s mb 0x0310 []))) ∧
    (AsksFor s mb 0x24 pl c x → s.memBusy c = false → ∀ n o, s.heldObj c (le pl 0 4) = some (n, o) →
      ((∀ l ∈ s.leaves, l.obj = some n → l.ctx ≠ c) → exec (.memRelease mb) s = .next (respond (dropRef s c n) mb 0 [])) ∧
      ((∃ l ∈ s.leaves, l.obj = some n ∧ l.ctx = c) → exec (.memRelease mb) s = .next (respond s mb 0x030E []))) ∧
    (AsksFor s mb 0x25 pl c x → ∀ n o, s.heldObj c (le pl 0 4) = some (n, o) → exec (.memQuery mb) s = .next (respond s mb 0
      (pad8 (leBytes 8 o.bytes ++ leBytes 1 o.kind ++ leBytes 1 (pageCode o.page) ++ [if o.nomove then 1 else 0] ++
        leBytes 1 o.part ++ leBytes 4 o.refs.length ++ leBytes 4 (s.maps n).length)))) ∧
    (AsksFor s mb 0x25 pl c x → s.heldObj c (le pl 0 4) = none → exec (.memQuery mb) s = .next (respond s mb 0x030D []))

/-- COMMONS_CREATE, COMMONS_FILL, COMMONS_SEAL and COMMONS_FREE: what each does, that a sealed commons is neither filled nor sealed
again, and that a mapped one is not freed (R46, R365, R428). -/
def Sys2Proof.Claims.CommonsCommandsResult : Prop :=
  ∀ (mb : Nat) (pl : List Byte) (s : State),
    (Asks s mb 0x28 pl → ∀ i s1 ws rs d, s.freeObjIndex = some i →
      cdiv (le pl 0 8) 65536 * 65536 ≤ (s.groupsOfMode 12 4).length * groupBytes →
      takeCommons s (cdiv (le pl 0 8) 65536) = some (s1, ws, rs, d) →
      let made := addObj ((ws ++ rs).foldl (fun s a => zeroRange s a 65536) s1) i
        { Obj.fresh (cdiv (le pl 0 8) 65536 * 65536) 0 65536 12 true [] ws with
          commons := true, refPages := rs.map (BitVec.ofNat 48), digestBase := BitVec.ofNat 48 d }
      exec (.commonsCreate mb) s = .next (respond made.1 mb 0 (leBytes 4 made.2 ++ zeros 4))) ∧
    (∀ c x, AsksFor s mb 0x29 pl c x → s.memBusy c = false → ∀ n o, s.commonsOf (le pl 0 4) = some (n, o) →
      (o.isSealed = true → exec (.commonsFill mb) s = .next (respond s mb 0x0213 [])) ∧
      (o.isSealed = false → o.bytes < le pl 8 8 + le pl 24 8 → exec (.commonsFill mb) s = .next (respond s mb 0x0210 [])) ∧
      (o.isSealed = false → le pl 8 8 + le pl 24 8 ≤ o.bytes → le pl 24 8 ≤ 65536 - le pl 16 8 % 65536 →
        1 ≤ le pl 24 8 → le pl 24 8 ≤ 65536 - le pl 8 8 % 65536 → ∀ pa e, stewardRead s c (le pl 16 8) = .ok pa e →
        (s.homeStatus pa = 0 → exec (.commonsFill mb) s =
          .next (respond (copyBytes s (s.epochOf c e) pa (o.addr (le pl 8 8)) (le pl 24 8)).1 mb 0 [])) ∧
        (s.homeStatus pa ≠ 0 → exec (.commonsFill mb) s = .next (respond s mb (s.homeStatus pa) [])))) ∧
    (Asks s mb 0x2A pl → ∀ n o, s.commonsOf (le pl 0 4) = some (n, o) →
      (o.isSealed = true → exec (.commonsSeal mb) s = .next (respond s mb 0x0213 [])) ∧
      (o.isSealed = false →
        let blocks := List.range (o.bytes / 65536)
        let ds := blocks.flatMap (blockDigest s o)
        let s1 := blocks.foldl (fun s i =>
          (copyBytes s none (o.addr (65536 * i)) (((nth? o.refPages i).map (·.toNat)).getD 0) 65536).1) s
        let s2 := s1.write o.digestBase.toNat ds
        exec (.commonsSeal mb) s = .next (respond (measure { s2 with objs := tput s2.objs n { o with isSealed := true } }
          2 0xFFFF (le pl 0 4) (sha256N ds)) mb 0 []))) ∧
    (Asks s mb 0x2B pl → ∀ n o, s.commonsOf (le pl 0 4) = some (n, o) →
      (s.maps n = [] → exec (.commonsFree mb) s = .next (respond (freeRefGroups (freeObj s n o)) mb 0 [])) ∧
      (s.maps n ≠ [] → exec (.commonsFree mb) s = .next (respond s mb 0x030E []))) ∧
    (Asks s mb 0x2B pl → s.commonsOf (le pl 0 4) = none → exec (.commonsFree mb) s = .next (respond s mb 0x030D []))

/-- TALLY_ALLOC to TALLY_QUERY and the epoch commands: quotas and limits, the owner's rights, what importers keep, the flags
that TALLY_SET clears, and the epochs that EPOCH_ALLOT adds and EPOCH_RETURN gives back (R246, R333, R337, R338, R348). -/
def Obligations.TallyAndEpochCommandsResult : Prop :=
  ∀ (mb : Nat) (pl : List Byte) (s : State) (c : Nat) (x : Context),
    (AsksFor s mb 0x40 pl c x →
      ((s.part (s.ctxPart c)).tallyQuota ≤ s.talliesOfPart (s.ctxPart c) →
        exec (.tallyAlloc mb) s = .next (respond s mb 0x0607 [])) ∧
      (∀ n, s.talliesOfPart (s.ctxPart c) < (s.part (s.ctxPart c)).tallyQuota → s.freeTally (s.ctxPart c) = some n →
        let tag := nextTag 0x7FFF (s.tally n).tag
        exec (.tallyAlloc mb) s = .next (respond (s.setTally n { Tally.reset with
          alloc := true, tag := tag, value := le pl 0 8, owner := some c, part := s.ctxPart c }) mb 0
          (leBytes 4 (tallyHandle n tag) ++ zeros 4)))) ∧
    (AsksFor s mb 0x41 pl c x → ∀ n, Owns s c (le pl 0 4) n →
      let s1 := fireAll s n (fun w => decide (w.ctx = c)) 0x0605
      ((s1.tally n).imports = [] → exec (.tallyFree mb) s =
        .next (respond (poolTally (s1.setTally n { s1.tally n with owner := none, exports := [] }) n) mb 0 [])) ∧
      ((s1.tally n).imports ≠ [] →
        let s2 := abandon s1 n
        exec (.tallyFree mb) s =
          .next (respond (poolTally (s2.setTally n { s2.tally n with owner := none, exports := [] }) n) mb 0 []))) ∧
    (AsksFor s mb 0x42 pl c x → ∀ n, Owns s c (le pl 0 4) n → exec (.tallySet mb) s = .next (respond (evalWatches
      (s.setTally n { s.tally n with value := le pl 8 8, sat := false, under := false, regress := false }) n) mb 0 [])) ∧
    (AsksFor s mb 0x43 pl c x → ∀ n, Owns s c (le pl 0 4) n →
      (targetStatus s (le pl 4 2) (le pl 8 8) = 0 → exec (.tallyExport mb) s = .next (respond
        (s.setTally n { s.tally n with exports := addOnce (le pl 4 2) (s.tally n).exports }) mb 0 [])) ∧
      (targetStatus s (le pl 4 2) (le pl 8 8) ≠ 0 → exec (.tallyExport mb) s =
        .next (respond s mb (targetStatus s (le pl 4 2) (le pl 8 8)) []))) ∧
    (∀ row ∈ ([(0x41, .tallyFree), (0x42, .tallySet), (0x43, .tallyExport)] : List (Nat × (Nat → Instr))),
      AsksFor s mb row.1 pl c x →
      (s.tallyOf c (le pl 0 4) = none → exec (row.2 mb) s = .next (respond s mb 0x0601 [])) ∧
      (∀ n, s.tallyOf c (le pl 0 4) = some n → (s.tally n).owner ≠ some c → exec (row.2 mb) s = .next (respond s mb 0x0609 []))) ∧
    (AsksFor s mb 0x44 pl c x →
      let t := s.tally (le pl 0 4 / 32768)
      (t.alloc = true → t.tag = le pl 0 4 % 32768 → c ∈ t.exports → t.owner ≠ some c → exec (.tallyImport mb) s =
        .next (respond (s.setTally (le pl 0 4 / 32768) { t with imports := addOnce c t.imports }) mb 0 [])) ∧
      (c ∉ t.exports → exec (.tallyImport mb) s = .next (respond s mb 0x0601 []))) ∧
    (AsksFor s mb 0x45 pl c x → ∀ n, s.tallyOf c (le pl 0 4) = some n → (s.tally n).imports.contains c = true →
      let s1 := fireAll s n (fun w => decide (w.ctx = c)) 0x0605
      exec (.tallyRelease mb) s =
        .next (respond (poolTally (s1.setTally n { s1.tally n with imports := (s1.tally n).imports.erase c }) n) mb 0 [])) ∧
    (AsksFor s mb 0x46 pl c x →
      (∀ n, s.tallyOf c (le pl 0 4) = some n → exec (.tallyQuery mb) s =
        .next (respond s mb 0 (leBytes 8 (s.tally n).value ++ leBytes 8 (s.tallyFlags n c)))) ∧
      (s.tallyOf c (le pl 0 4) = none → exec (.tallyQuery mb) s = .next (respond s mb 0x0601 []))) ∧
    (AsksFor s mb 0x48 pl c x → 1 ≤ le pl 0 1 → le pl 0 1 ≤ 64 →
      let free := s.freeEpochs (s.ctxPart c)
      (le pl 0 1 ≤ free.length → exec (.epochAllot mb) s = .next (respond (allotEpochs s c (free.take (le pl 0 1))) mb 0
        (leBytes 8 (epochMask (free.take (le pl 0 1)))))) ∧
      (free.length < le pl 0 1 → exec (.epochAllot mb) s = .next (respond s mb 0x0311 []))) ∧
    (AsksFor s mb 0x49 pl c x →
      let es := ((List.range 64).filter fun i => nbits (le pl 0 8) i i = 1).map (64 * s.ctxPart c + ·)
      ((∃ e ∈ es, (s.epoch e).owner ≠ some c) → exec (.epochReturn mb) s = .next (respond s mb 0x040B [])) ∧
      ((∀ e ∈ es, (s.epoch e).owner = some c) → (∃ e ∈ es, (s.epoch e).state ≠ .free) →
        exec (.epochReturn mb) s = .next (respond s mb 0x040C [])) ∧
      ((∀ e ∈ es, (s.epoch e).owner = some c ∧ (s.epoch e).state = .free) → exec (.epochReturn mb) s =
        .next (respond (es.foldl (fun s e => s.setEpoch e { s.epoch e with owner := none, last := 0 }) s) mb 0 [])))

/-- QUEUE_CREATE makes a SUBMIT or a NOTIFY queue at the lowest free index and local index; QUEUE_DESTROY frees one;
QUEUE_DOORBELL moves the tail of a SUBMIT queue or raises the consumed count of a NOTIFY queue; QUEUE_QUERY reads the descriptor
(R366, R369). -/
def Obligations.QueueCommandsResult : Prop :=
  ∀ (mb : Nat) (pl : List Byte) (s : State) (c : Nat) (x : Context),
    (AsksFor s mb 0x30 pl c x → ∀ n loc, 4 ≤ le pl 9 1 → le pl 9 1 ≤ 16 → le pl 10 1 ≤ 7 →
      ringMapped s c (le pl 0 8) (64 * 2 ^ le pl 9 1) = true → lowest 16384 (fun i => (tfind s.queues i).isNone) = some n →
      lowest 256 (fun i => !((s.queues.filter fun e => decide (e.2.ctx = c)).any fun e => decide (e.2.loc = i))) = some loc →
      let tag := nextTag 0x3FFFF (tget 0 s.queueTags n)
      let made := { s.setQueue n
        { tag := tag, ctx := c, loc := loc, notify := decide (le pl 8 1 = 1), ring := va (le pl 0 8), log2 := le pl 9 1
          prio := le pl 10 1, head := 0, tail := 0, p := w32 (le pl 12 4), c := w32 (le pl 16 4), stopped := none, slot := none
          since := s.clock, entries := [] } with queueTags := tput s.queueTags n tag }
      let out := leBytes 4 (queueHandle n tag) ++ leBytes 2 loc ++ zeros 2
      (le pl 8 1 = 0 → le pl 12 4 = 0 → le pl 16 4 = 0 → ∀ s2,
        setLeaf made c (doorbellVA loc) 0 (doorbellLeaf none) none 0 = some s2 →
        exec (.queueCreate mb) s = .next (respond s2 mb 0 out)) ∧
      (le pl 8 1 = 1 → (s.tallyOf c (le pl 12 4)).isSome = true → (s.tallyOf c (le pl 16 4)).isSome = true →
        exec (.queueCreate mb) s = .next (respond made mb 0 out))) ∧
    (AsksFor s mb 0x31 pl c x → ∀ qi q, s.queueOf c (le pl 0 4) = some (qi, q) →
      (q.slot = none → exec (.queueDestroy mb) s = .next (respond (freeQueue (cancelWait (abortEntries s q) qi) qi q) mb 0 [])) ∧
      (∀ s1, q.slot.isSome = true → withdrawSlot s qi = some s1 → exec (.queueDestroy mb) s =
        .next (respond (freeQueue (cancelWait (abortEntries s1 q) qi) qi q) mb 0 []))) ∧
    (AsksFor s mb 0x32 pl c x → ∀ qi q, s.queueOf c (le pl 0 4) = some (qi, q) → q.stopped = none →
      (q.notify = false → q.tail ≤ le pl 8 8 → le pl 8 8 ≤ q.head + 2 ^ q.log2 → exec (.queueDoorbell mb) s =
        .next (respond (giveSlots (s.setQueue qi { q with
          tail := le pl 8 8, since := if s.queueWork q then q.since else s.clock }) (s.ctxPart c)) mb 0 [])) ∧
      (q.notify = false → ¬(q.tail ≤ le pl 8 8 ∧ le pl 8 8 ≤ q.head + 2 ^ q.log2) →
        exec (.queueDoorbell mb) s = .next (respond (stopQueue s qi 0x0308) mb 0x0308 [])) ∧
      (q.notify = true →
        let pv := (s.tally (q.p.toNat / 32768)).value
        let cv := (s.tally (q.c.toNat / 32768)).value
        (cv + le pl 8 8 ≤ pv → exec (.queueDoorbell mb) s = .next (respond (raiseTally s c q.c.toNat (le pl 8 8)) mb 0 [])) ∧
        (pv < cv + le pl 8 8 → exec (.queueDoorbell mb) s = .next (respond s mb 0x0308 [])))) ∧
    (AsksFor s mb 0x33 pl c x → ∀ qi q, s.queueOf c (le pl 0 4) = some (qi, q) →
      exec (.queueQuery mb) s = .next (respond s mb 0 (queueDesc s q))) ∧
    (∀ row ∈ ([(0x31, .queueDestroy), (0x32, .queueDoorbell), (0x33, .queueQuery)] : List (Nat × (Nat → Instr))),
      AsksFor s mb row.1 pl c x → s.queueOf c (le pl 0 4) = none → exec (row.2 mb) s = .next (respond s mb 0x0309 []))

/-- The partition commands once their checks hold: PART_CONFIG applies or reads the record, PART_QUIESCE begins a wait and ends
it once the partition is quiet, PART_RESUME lets it run, PART_RESET destroys its contexts and ends when none is left, and
PART_MOVE_HALLS moves hall dies between QUIESCED partitions (R421 to R427). -/
def Obligations.PartitionCommandsResult : Prop :=
  ∀ (mb : Nat) (pl : List Byte) (s : State),
    (Asks s mb 0x58 pl → le pl 0 1 ≤ 11 →
      let p := le pl 0 1
      let x := partOfRecord (s.part p) pl
      (128 ≤ le pl 5 1 → exec (.partConfig mb) s = .next (respond s mb 0 (partRecord s p))) ∧
      (le pl 5 1 < 128 → configStatus s p x ≠ 0 → exec (.partConfig mb) s = .next (respond s mb (configStatus s p x) [])) ∧
      (le pl 5 1 < 128 → configStatus s p x = 0 →
        let s1 := partChanged (configure s p x) p
        exec (.partConfig mb) s = .next (respond s1 mb 0 (partRecord s1 p)))) ∧
    (Asks s mb 0x59 pl → le pl 0 1 ≤ 11 →
      ((s.part (le pl 0 1)).state = .quiesced → exec (.partQuiesce mb) s = .next (respond s mb 0 [])) ∧
      ((s.part (le pl 0 1)).state = .unconfigured ∨ (s.part (le pl 0 1)).state = .down →
        exec (.partQuiesce mb) s = .next (respond s mb 0x0316 [])) ∧
      ((s.part (le pl 0 1)).state = .running → (s.part (le pl 0 1)).quiesceMb = none → s.ctxsOf (le pl 0 1) = [] →
        exec (.partQuiesce mb) s = .next (quiesceStep
          ((beginWait s mb).setPart (le pl 0 1) { s.part (le pl 0 1) with quiesceMb := some (s.ticket mb) }) mb (le pl 0 1)))) ∧
    (Asks s mb 0x5A pl → le pl 0 1 ≤ 11 →
      ((s.part (le pl 0 1)).state = .quiesced → exec (.partResume mb) s =
        .next (respond (saveParts (s.setPart (le pl 0 1) { s.part (le pl 0 1) with state := .running })) mb 0 [])) ∧
      ((s.part (le pl 0 1)).state ≠ .quiesced → exec (.partResume mb) s = .next (respond s mb 0x0316 []))) ∧
    (Asks s mb 0x5B pl → le pl 0 1 ≤ 11 →
      ((s.part (le pl 0 1)).state = .unconfigured → exec (.partReset mb) s = .next (respond s mb 0x0316 [])) ∧
      ((s.part (le pl 0 1)).state ≠ .unconfigured →
        let s1 := resetBegin (beginWait s mb) (le pl 0 1)
        (s1.ctxsOf (le pl 0 1) = [] → exec (.partReset mb) s = .next (respond (resetDone s1 (le pl 0 1)) mb 0 [])) ∧
        (s1.ctxsOf (le pl 0 1) ≠ [] → exec (.partReset mb) s = .next s1))) ∧
    (Asks s mb 0x5C pl →
      let src := le pl 0 1
      let tgt := le pl 1 1
      let hs := (List.range 16).filter fun h => decide (nbits (le pl 2 2) h h = 1)
      src ≤ 11 → tgt ≤ 11 ∨ tgt = 0xFF → tgt ≠ src → le pl 2 2 ≠ 0 → (∀ h ∈ hs, (s.part src).halls.getLsbD h = true) →
      ((s.part src).state ≠ .quiesced ∨ (tgt ≠ 0xFF ∧ (s.part tgt).state ≠ .quiesced) →
        exec (.partMoveHalls mb) s = .next (respond s mb 0x0316 [])) ∧
      ((s.part src).state = .quiesced → tgt = 0xFF ∨ (s.part tgt).state = .quiesced →
        (moveInUse s src hs = true → exec (.partMoveHalls mb) s = .next (respond s mb 0x0319 [])) ∧
        (moveInUse s src hs = false →
          let s1 := moveHalls s src (if tgt = 0xFF then none else some tgt) (BitVec.ofNat 12 (le pl 2 2)) hs
          let s2 := if tgt = 0xFF then partChanged s1 src else partChanged (partChanged s1 src) tgt
          (regsOver s1 = true → exec (.partMoveHalls mb) s = .next (respond s mb 0x0318 [])) ∧
          (regsOver s1 = false → exec (.partMoveHalls mb) s = .next (respond s2 mb 0
            (leBytes 2 (s2.part src).halls.toNat ++ leBytes 2 (if tgt = 0xFF then 0 else (s2.part tgt).halls.toNat) ++ zeros 4))))))

namespace Sys2Proof.Claims

open Sys2Proof.Machine

/-! ## The queue engine and the bells -/

/-- Entry `k` of queue `qi` may start now and reads as `e`; the read left `s1` (R366 to R368). -/
structure Starts (s : State) (op qi k : Nat) (q : Queue) (s1 : State) (e : List Byte) : Prop where
  queue : tfind s.queues qi = some q
  submit : q.notify = false ∧ q.stopped = none ∧ q.slot.isSome = true
  served : s.served q.ctx = true
  next : k = q.head + q.entries.length ∧ k < q.tail
  reached : reach s (s.engine q.ctx k) q.ctx .r [(q.entryAddr k, 64)] = (s1, .ok)
  read : s1.virtBytes (s.engine q.ctx k) q.ctx (q.entryAddr k) 64 = e
  code : le e 7 1 = op
  room : op ≤ 4 → (q.entries.countP fun x => x.2.busy) < 4
  ordered : nbits (le e 0 8) 55 55 = 1 ∨ op = 5 ∨ op = 6 → q.entries = []

/-- The state in which entry `k` of a queue is in a phase. -/
def entered (s : State) (qi k : Nat) (p : EntryPhase) : State :=
  match tfind s.queues qi with
  | some r => s.setQueue qi { r with entries := tput r.entries k p }
  | none => s

/-- The entry's instance is on core `c` at larder base `y.base`, with none of its groups still to replay there, its range lies in the region, and a scoreboard entry is free
with no earlier access that R195 orders before it (R199 to R201). -/
structure OnLarder (s : State) (q : Queue) (into : Bool) (e : List Byte) (n : Nat) (x : Station) (y : Inst) (c : Nat) : Prop where
  station : s.stationOf q.ctx (le e 0x20 8 / 2 ^ 32) = some (n, x)
  inst : nbits (le e 0x20 8) 31 20 < x.insts
  range : nbits (le e 0x20 8) 19 0 + le e 0x18 8 ≤ x.mill * 32768 + x.lane * 16384
  placed : tfind s.insts (instKey n (nbits (le e 0x20 8) 31 20)) = some y ∧ y.core = some c
  still : s.onTheMove n (nbits (le e 0x20 8) 31 20) x y = false
  free : (s.core c).scores.length < 16
  order : scoreEarlier (s.core c) ((s.core c).seq + 1) into [(y.base + nbits (le e 0x20 8) 19 0, le e 0x18 8)] = false

/-- The queue after the engine has written STATUS and DONE of entry `k` (R368). -/
def marked (s : State) (qi k : Nat) (q : Queue) (status : W16) : State :=
  let st := s.engine q.ctx k
  let v := q.entryAddr k
  let s1 := (virtWrite s st q.ctx (v + 4) (vecBytes status)).1
  let s2 := (virtWrite s1 st q.ctx (v + 6) [BitVec.ofNat 8 (leNat (s.virtBytes st q.ctx (v + 6) 1) ||| 0x20)]).1
  s2.setQueue qi (passHead (q.entries.length + 1) { q with entries := tput q.entries k .finished })

end Sys2Proof.Claims

/-- An entry starts as its OP says: COPY and FILL move their bytes, TO_LARDER and FROM_LARDER move them at the instance's base
under a scoreboard entry, WAIT registers its watch, RAISE raises its tally, NOP completes; an invalid entry of any OP ends with
0x030A (R199 to R201, R335, R367, R368). The handle of a WAIT that is not valid ends it with 0x0601: the model's reading (log
entry 30). -/
def Sys2Proof.Claims.QueueEntryStartResult : Prop :=
  ∀ (qi k op : Nat) (q : Queue) (s s1 : State) (e : List Byte), Starts s op qi k q s1 e →
    let st := s.engine q.ctx k
    (entryInvalid e = true →
      ∀ row ∈ ([(1, .queueCopy), (2, .queueFill), (3, .queueToLarder), (4, .queueFromLarder), (5, .queueWait), (6, .queueRaise),
        (7, .queueNop)] : List (Nat × (Nat → Nat → Instr))), row.1 = op →
        exec (row.2 qi k) s = .next (entered s1 qi k (.running 0x030A 0))) ∧
    (entryInvalid e = false →
      (∀ s2 r, op = 1 → transfer s1 st q.ctx (le e 0x18 8) (.mem (le e 8 8)) (.mem (le e 0x10 8)) = (s2, r) →
        (∀ x a, r = some (x, a) → exec (.queueCopy qi k) s = .next (entered s2 qi k (.running x a))) ∧
        (r = none → exec (.queueCopy qi k) s = .next s2)) ∧
      (∀ s2 r, op = 2 → transfer s1 st q.ctx (le e 0x18 8) (.fill (slice e 8 8)) (.mem (le e 0x10 8)) = (s2, r) →
        (∀ x a, r = some (x, a) → exec (.queueFill qi k) s = .next (entered s2 qi k (.running x a))) ∧
        (r = none → exec (.queueFill qi k) s = .next s2)) ∧
      (∀ (into : Bool) n x y c s2 r, op = (if into then 3 else 4) → OnLarder s1 q into e n x y c →
        let m := DmaSide.mem (le e (if into then 8 else 0x10) 8)
        let lo := y.base + nbits (le e 0x20 8) 19 0
        let seq := (s1.core c).seq + 1
        let i := if into then Instr.queueToLarder qi k else Instr.queueFromLarder qi k
        transfer s1 st q.ctx (le e 0x18 8) (if into then m else .larder c lo) (if into then .larder c lo else m) = (s2, r) →
        (∀ a, r = some (0, a) → exec i s = .next (entered (s2.modCore c fun k => { k with
          scores := k.scores ++ [scoreOf 2 0x3F seq into lo (lo + le e 0x18 8)], seq := seq }) qi k (.larder c seq))) ∧
        (∀ w a, r = some (w, a) → w ≠ 0 → exec i s = .next (entered s2 qi k (.running w a))) ∧
        (r = none → exec i s = .next s2)) ∧
      (∀ n, op = 5 → s1.tallyOf q.ctx (le e 0x3C 4) = some n → exec (.queueWait qi k) s =
        .next (entered (register s1 n q.ctx (le e 0x30 8) false (.submitWait qi) 0).1 qi k .waiting)) ∧
      (op = 5 → s1.tallyOf q.ctx (le e 0x3C 4) = none → exec (.queueWait qi k) s = .next (entered s1 qi k (.running 0x0601 0))) ∧
      (op = 6 → exec (.queueRaise qi k) s = .next (entered (raiseTally s1 q.ctx (le e 0x3C 4) (le e 0x30 8)) qi k (.running 0 0))) ∧
      (op = 7 → exec (.queueNop qi k) s = .next (entered s1 qi k (.running 0 0))))

/-- An entry completes: STATUS and DONE are written and HEAD moves before its tally is raised; a status that does not lose the
context stops the queue, any other loses the context. A larder transfer first releases its scoreboard entry. A WAIT entry without a
watch tries again (R196, R200, R368, R369). -/
def Sys2Proof.Claims.QueueCompletionResult : Prop :=
  (∀ (qi k : Nat) (q : Queue) (status : W16) (addr : Nat) (s : State), tfind s.queues qi = some q →
    tfind q.entries k = some (.running status addr) →
    exec (.queueEntryComplete qi k) s = .next (completeEntry s qi k q status addr)) ∧
  (∀ (qi k c n : Nat) (q : Queue) (s : State), tfind s.queues qi = some q → tfind q.entries k = some (.larder c n) →
    exec (.dmaTransferComplete qi k) s = .next (completeEntry ((s.modCore c fun k => releaseScores k n).setQueue qi
      { q with entries := tput q.entries k (.running 0 0) }) qi k q 0 0)) ∧
  (∀ (qi k : Nat) (q : Queue) (status : W16) (addr : Nat) (s s0 : State),
    reach s (s.engine q.ctx k) q.ctx .rw [(q.entryAddr k, 64)] = (s0, .ok) →
    let e := s0.virtBytes (s.engine q.ctx k) q.ctx (q.entryAddr k) 64
    (status = 0 → completeEntry s qi k q status addr =
      raiseTally (marked s0 qi k q 0) q.ctx (le e 0x2C 4) (le e 0x28 4)) ∧
    (status ≠ 0 → status = 0x030A ∨ status = 0x0406 ∨ le e 7 1 = 5 →
      completeEntry s qi k q status addr = stopQueue (marked s0 qi k q status) qi status) ∧
    (status ≠ 0 → status ≠ 0x030A → status ≠ 0x0406 → le e 7 1 ≠ 5 →
      completeEntry s qi k q status addr = loseBy (marked s0 qi k q status) (unitOfStruct (s.engine q.ctx k)) q.ctx status addr)) ∧
  (∀ (qi k : Nat) (q : Queue) (s s1 : State), tfind s.queues qi = some q →
    q.entries.find? (fun e => decide (e.2 = .waiting)) = some (k, .waiting) → s.served q.ctx = true →
    (∀ e ∈ s.watches, e.2.alloc = true → e.2.rcv ≠ .submitWait qi) →
    reach s (s.engine q.ctx k) q.ctx .r [(q.entryAddr k, 64)] = (s1, .ok) →
    let r := registerWait s1 qi q (s1.virtBytes (s.engine q.ctx k) q.ctx (q.entryAddr k) 64)
    exec (.queueWaitRetry qi) s = .next (r.1.setQueue qi { q with entries := tput q.entries k r.2 }))

/-- A doorbell store announces a tail between TAIL and HEAD + N, or stops the queue; without a slot it does nothing. Slots go to
waiting queues, and to a waiting queue from the victim that R373 names. Bells enter the NOTIFY ring before P rises, or the bell log,
and release a WAIT entry with their status (R343, R345, R362, R366, R368, R373). -/
def Sys2Proof.Claims.DoorbellAndBellResult : Prop :=
  (∀ (qi : Nat) (q : Queue) (c : Context) (v : BitVec 64) (s : State), tfind s.queues qi = some q → q.slot.isSome = true → q.notify = false →
    q.stopped = none → s.ctx? q.ctx = some c → c.state = .active →
    (q.tail ≤ v.toNat → v.toNat ≤ q.head + 2 ^ q.log2 →
      exec (.doorbellStore qi v) s = .next { s with queues := tput s.queues qi { q with tail := v.toNat } }) ∧
    (¬(q.tail ≤ v.toNat ∧ v.toNat ≤ q.head + 2 ^ q.log2) → exec (.doorbellStore qi v) s = .next (stopQueue s qi 0x0308))) ∧
  (∀ (qi : Nat) (q : Queue) (v : BitVec 64) (s : State), tfind s.queues qi = some q → q.slot = none →
    exec (.doorbellStore qi v) s = .next s) ∧
  (∀ (p : Nat) (s : State), (∀ e ∈ s.queues, e.2.slot.isSome = true → s.ctxPart e.2.ctx = p → e.2.slot.getD 0 < 252) →
    (s.waitingQueues p = [] → exec (.queueSlotRotate p) s = .next s) ∧
    (∀ e, s.waitingQueues p = [e] →
      (∀ n, s.freeSlot p = some n → (grantSlot s e.1 n).waitingQueues p = [] →
        exec (.queueSlotRotate p) s = .next (grantSlot s e.1 n)) ∧
      (∀ v q n s1, s.freeSlot p = none → s.slotVictim p s.clock = some v → tfind s.queues v = some q → q.slot = some n →
        withdrawSlot s v = some s1 → exec (.queueSlotRotate p) s = .next (grantSlot s1 e.1 n)))) ∧
  (∀ (w qi np nc : Nat) (b : BellRec) (q : Queue) (c : Context) (s : State) (ps : List (Nat × Nat × Nat)),
    (s.watch w).bell = some b → (s.watch w).rcv = .queue qi → tfind s.queues qi = some q → q.ctx = (s.watch w).ctx →
    s.tallyOf q.ctx q.p.toNat = some np → s.tallyOf q.ctx q.c.toNat = some nc → s.ctx? q.ctx = some c → c.state = .active →
    s.firstBell w = true → (s.tally np).value - (s.tally nc).value < 2 ^ q.log2 →
    ringSlot s q.ctx (q.entryAddr (s.tally np).value) = some ps → (∀ p ∈ ps, s.homeStatus p.2.1 = 0) →
    exec (.notifyBellWrite w) s = .next (freeWatch (tallyApply
      (ps.foldl (fun s p => s.write p.2.1 (slice (bellBytes b ++ zeros 32) p.1 p.2.2)) s) np .add 1) w)) ∧
  (∀ (w : Nat) (b : BellRec) (s : State), (s.watch w).bell = some b → s.firstBell w = true →
    ((s.watch w).rcv = .steward → exec (.bellToSteward w) s = .next (freeWatch (logBell s (s.watch w).ctx b) w)) ∧
    (∀ qi q, (s.watch w).rcv = .submitWait qi → tfind (freeWatch (logBell s (s.watch w).ctx b) w).queues qi = some q →
      exec (.bellToSteward w) s = .next ((freeWatch (logBell s (s.watch w).ctx b) w).setQueue qi { q with
        entries := tmap (fun _ p => if p = .waiting then .running b.status 0 else p) q.entries })))

namespace Sys2Proof.Claims

open Sys2Proof.Machine

/-! ## Stations, residency, losses, page moves -/

/-- A declaration passes the checks of R370 and *Table 13-2*, and takes index `n`, local index `loc`. -/
structure Declares (s : State) (c : Nat) (d : List Byte) (n loc : Nat) : Prop where
  ok : declOk s c d = true
  version : le d 0 1 = 1 ∧ le d 1 1 ≤ 2
  hints : hintsMet s (declared c d) = true
  room : s.freeStation c = some (n, loc)

/-- A parked group that may replay into the free slot `g` (R52, R76). -/
structure Replays (s : State) (station inst index : Nat) (g : Grp) (p : Parked) (y : Inst) : Prop where
  parked : s.findParked station inst index = some p
  placed : s.inst? (station / 65536) inst = some y
  core : y.core = some g.core ∧ s.coreEnabled g.core = true
  slot : g.slot < 48 ∧ s.group? g = none
  may : mayReplay s p = true
  room : sumVregs ((s.groups.filter fun e => decide (e.1 / 48 = g.core)).map (·.2)) + p.grp.vregs ≤ 2048

/-- Instance `inst` of the station `x`, which runs on core `c` and is joined to no other (R178). -/
structure Alone (s : State) (station inst c : Nat) (x : Station) : Prop where
  declared : tfind s.stations (station / 65536) = some x ∧ x.tag = station % 65536
  placed : (s.inst? (station / 65536) inst).bind (·.core) = some c
  alone : (s.family (station / 65536)).filter (fun m => (s.inst? m inst).isSome) = [station / 65536]
  served : s.served x.ctx = true
  quiet : larderQuiet s (station / 65536) inst = true

end Sys2Proof.Claims

/-- STATION_DECLARE makes the station and, when its context is or can become resident, places every instance; STATION_REMOVE
frees a station at its task boundaries, waits for them up to 100 ms, then answers 0x0312 (R31, R43, R44, R370, R371). A station of a
context that cannot be resident starts parked: the model's reading (log entry 34). -/
def Sys2Proof.Claims.StationCommandsResult : Prop :=
  ∀ (mb : Nat) (pl : List Byte) (s : State) (c : Nat) (x : Context),
    (AsksFor s mb 0x38 pl c x →
      (declOk s c pl = false → exec (.stationDeclare mb) s = .next (respond s mb 0x0210 [])) ∧
      (declOk s c pl = true → (le pl 0 1 ≠ 1 ∨ 2 < le pl 1 1) → exec (.stationDeclare mb) s = .next (respond s mb 0x0211 [])) ∧
      (declOk s c pl = true → le pl 0 1 = 1 → le pl 1 1 ≤ 2 → hintsMet s (declared c pl) = false →
        exec (.stationDeclare mb) s = .next (respond s mb 0x0212 [])) ∧
      (∀ n loc y s1, Declares s c pl n loc → makeStation s c pl n loc = some (y, s1) →
        let out := leBytes 4 (stationHandle n y.tag) ++ zeros 4
        (s1.canReside c = false → exec (.stationDeclare mb) s = .next (respond s1 mb 0 out)) ∧
        (∀ s2, s1.canReside c = true → placeAll (becomeResident s1 c) n y = some s2 →
          exec (.stationDeclare mb) s = .next (respond (giveSlots s2 (s.ctxPart c)) mb 0 out)))) ∧
    (AsksFor s mb 0x39 pl c x → ∀ n st, s.stationOf c (le pl 0 4) = some (n, st) → st.removing = none →
      let y := { st with removing := some s.clock }
      let s1 := beginWait { s with stations := tput s.stations n y } mb
      (((s1.instsOf n).all fun e => atBoundary s1 n y (e.1 % 4096)) = true →
        exec (.stationRemove mb) s = .next (removeNow s1 mb n y)) ∧
      (((s1.instsOf n).all fun e => atBoundary s1 n y (e.1 % 4096)) = false → exec (.stationRemove mb) s = .next s1)) ∧
    (∀ m n st t, tfind s.mailboxes mb = some m → m.waiting = true → msgCmd m.msg = 0x39 →
      s.stationOf (msgCtx m.msg) (le (msgPayload m.msg) 0 4) = some (n, st) → st.removing = some t →
      ((s.instsOf n).all fun e => atBoundary s n st (e.1 % 4096)) = false →
      (t + 100000000 ≤ s.clock → exec (.stationRemove mb) s =
        .next (respond { s with stations := tput s.stations n { st with removing := none } } mb 0x0312 [])) ∧
      (s.clock < t + 100000000 → exec (.stationRemove mb) s = .next s))

/-- REPLAY loads a parked group; the placer moves an instance at a task boundary, or off a retired core once its groups are
parked; CORE_RETIRE writes back and gives up the core's lines, parks
its groups and tells the partner; a stranded instance that is placed is no longer stranded;
a context is evicted and returns as R372 says (R42, R52, R76 to R80, R372, R430 to R433). -/
def Sys2Proof.Claims.PlacementResult : Prop :=
  (∀ (station inst index : Nat) (g : Grp) (s : State) (p : Parked) (y : Inst), Replays s station inst index g p y →
    exec (.replay station inst index g) s = .next (loadGroup s p g)) ∧
  (∀ (station inst core c : Nat) (s : State) (x : Station), Alone s station inst c x →
    let n := station / 65536
    (∀ s1, s.retired.contains c = false → core ≠ c → placerWants s n x inst c core = true → atBoundary s n x inst = true → placerMay s n inst core = true →
      moveAll (storeGroups s (stationHandle n x.tag) inst) [n] inst core = some s1 →
      exec (.instanceMigrate station inst core) s = .next s1) ∧
    (s.retired.contains c = true → s.residentOf (stationHandle n x.tag) inst = [] →
      (∀ s1, moveAll s [n] inst core = some s1 → exec (.instanceMigrate station inst core) s = .next s1) ∧
      (moveAll s [n] inst core = none → (∀ d ∈ partCores s (s.ctxPart x.ctx), moveAll s [n] inst d = none) →
        exec (.instanceMigrate station inst core) s = .next (strand (saveInst s n inst) n inst)))) ∧
  (∀ (core : Nat) (s : State), s.coreEnabled core = true → s.power.st = .ready →
    let park := fun (k : Nat) (g : Group) => if k / 48 = core then beginPark g 2 0 0 0 else g
    let s0 := ((s.core core).l1.map (·.1)).foldl (fun s l => evictLine s core l) s
    let s1 := lifeUp (capChanged { s0 with retired := addOnce core s0.retired, groups := tmap park s0.groups }) 26 1
    exec (.coreRetire core) s = .next (notify s1 (noticeOf s1 0x8010 0 0 0x0704 0 (w64 core)))) ∧
  (∀ (station inst core b : Nat) (x : Station) (y : Inst) (s : State), tfind s.stations (station / 65536) = some x →
    x.tag = station % 65536 → s.inst? (station / 65536) inst = some y → y.stranded = true → s.served x.ctx = true →
    s.partnerCore (station / 65536) inst = none → coreBase s x y (s.needs station inst) core = some b →
    exec (.instancePlaced station inst core) s =
      .next (placedNotice (placeInst s (station / 65536) inst core b) x station inst)) ∧
  (∀ (ctx : Nat) (c : Context) (s : State), s.ctx? ctx = some c → c.state = .active →
    (c.resident = false → exec (.contextEvict ctx) s = .next (endEvict s ctx)) ∧
    (∀ d e, c.resident = true → s.ctx? d = some e → (d, e) ∈ s.contexts → e.part = c.part → e.resident = false → e.state = .active →
      s.ctxWork d = true → 4 ≤ s.slotSets c.part → s.victim c.part = some ctx →
      exec (.contextEvict ctx) s = .next (endEvict (beginEvict s ctx) ctx)) ∧
    (c.resident = false → s.canReside ctx = true → s.ctxWork ctx = true →
      (∀ x ∈ s.ctxInsts ctx, (s.inst? x.1 x.2).bind (·.core) = none) →
      exec (.residencyReturn ctx) s = .next (doReturn s ctx)))

/-- A context is lost once, by its first loss; a later one is only logged. A destroy that overruns is escalated, answers 0x0304
and takes the partition down; the end of the grace period destroys every context; the last acknowledgement of a shootdown lets what
waited for it go on (R283, R374 to R377). -/
def Sys2Proof.Claims.LossAndDestroyResult : Prop :=
  (∀ (ctx : Nat) (l : Loss) (s : State), s.lossQ.find? (fun l => decide (l.ctx = ctx)) = some l →
    let s1 := { s with lossQ := s.lossQ.erase l }
    (s1.ctx? ctx = none → exec (.contextLoss ctx) s = .next s1) ∧
    (∀ c, s1.ctx? ctx = some c →
      (c.gen ≠ l.gen → exec (.contextLoss ctx) s = .next s1) ∧
      (c.gen = l.gen → c.state = .active → exec (.contextLoss ctx) s = .next (carryLoss (lossEvent s1 l true) l c)) ∧
      (c.gen = l.gen → c.state ≠ .active → exec (.contextLoss ctx) s = .next (lossEvent s1 l false)))) ∧
  (∀ (ctx : Nat) (c : Context) (s : State), s.ctx? ctx = some c → c.state = .destroying → c.escalated = false →
    let s1 := s.setCtx ctx { c with escalated := true, destroyMb := none }
    let s2 := match c.destroyMb with
      | some t => respondLate s1 t 0x0304 []
      | none => s1
    let s3 := logEvent s2 { mkEvent s2 3 0x0715 0x0C 0x40 0xFFFF with
      ctx := some (ctx, c.gen), part := BitVec.ofNat 4 c.part, detail := c.lossStatus.setWidth 64 }
    let s4 := notify s3 (noticeOf s3 0x8005 ctx c.gen 0x0715 0 0)
    exec (.destroyOverrun ctx) s = .next (takeDown (rasNotice s4 c.part 0x0715 0) c.part 0x0715 0)) ∧
  (∀ (s : State), s.port.graceOn = true → s.port.graceFrom + s.grace * 1000000000 ≤ s.clock → s.port.session = none ∨ s.grace = 0 →
    let s1 := { s with port := { s.port with graceOn := false } }
    exec .sessionGraceExpiry s =
      .next ((s1.contexts.filter fun e => decide (e.2.state ≠ .destroying)).foldl (fun s e => startDestroy s e.1 none) s1)) ∧
  (∀ (id : Nat) (st : TlbStruct) (x : Shoot) (s : State), s.shoots.find? (fun x => decide (x.id = id)) = some x → st ∈ x.acks →
    (x.todo = [] → x.acks = [st] →
      exec (.shootdownAck id st) s = .next (afterShoot { s with shoots := s.shoots.erase x } x.after)) ∧
    (x.todo ≠ [] → exec (.shootdownAck id st) s =
      .next { s with shoots := s.shoots.map fun z => if z = x then { x with acks := x.acks.erase st } else z }))

/-- A page move starts only as R286, R290 and R291 allow and within its budget; its copy waits until the old frame's
home slices have taken back its lines and completed its requests; then the leaves name the new frame and the old one is free; a move whose
destination is sealed or has failed leaves the old frame in every leaf; the policy's interval clears the heat
tables, counts cold pages and adapts the threshold (R286 to R291). -/
def Sys2Proof.Claims.PageMoveResult : Prop :=
  (∀ (frame : BitVec 48) (group : Nat) (s : State) (l : LeafRec) (o : Obj) (rest : List (LeafRec × Obj)),
    s.leavesOfFrame frame.toNat = (l, o) :: rest →
    let p := (s.groupAt frame.toNat).2
    let t := tget Tier.reset s.tiers p
    (moveMay s frame.toNat o group = false → exec (.pageMoveRequest frame group) s = .next s) ∧
    (moveMay s frame.toNat o group = true →
      (moveBudget s p < t.moved + o.page → exec (.pageMoveRequest frame group) s =
        .next (countUp { s with tiers := tset Tier.reset s.tiers p { t with held := true } } 3 p 2 1)) ∧
      (∀ s1 a, t.moved + o.page ≤ moveBudget s p → takeIn s (moveInto s frame.toNat o) group o.page o.page none = some (s1, a) →
        exec (.pageMoveRequest frame group) s = .next (startMove s1 frame.toNat a o.page p (moveUp s frame.toNat))))) ∧
  (∀ (move : Nat) (m : Move) (s : State), s.moves.find? (fun m => decide (m.id = move)) = some m →
    (m.copying = false → exec (.pageCopyDone move) s = .next s) ∧
    (m.copying = true → dstLost s m = false →
      (s.pageBusy m.src.toNat m.size = true → exec (.pageCopyDone move) s = .next (callPage s m.src.toNat m.size)) ∧
      (s.pageBusy m.src.toNat m.size = false →
      let s0 := chargePart (chargePart (dropPage s m.src.toNat m.size) m.part m.src.toNat m.size) m.part m.dst.toNat m.size
      let s1 := (copyBytes s0 none m.src.toNat m.dst.toNat m.size).1
      let s2 := (s.leavesOfFrame m.src.toNat).foldl (fun s l => reLeaf s l.1 fun e =>
        setMoving false ((e &&& 0xFFFF_0000_0000_FFFF) ||| w64 (m.dst.toNat / 65536 * 65536))) s1
      let s3 := { freeExtent s2 m.src.toNat with
        objs := tmap (fun _ (o : Obj) => { o with pages := o.pages.map fun a => if a = m.src then m.dst else a }) s2.objs
        moves := s2.moves.erase m
        demoted := if m.promote then s2.demoted else tput s2.demoted (m.dst.toNat / 65536) (tget Tier.reset s2.tiers m.part).interval
        cold := tdel s2.cold (m.src.toNat / 65536) }
      exec (.pageCopyDone move) s = .next (resumeFolest (moveEvent (countUp s3 3 m.part (if m.promote then 0 else 1) 1) m)))) ∧
    (dstLost s m = false → exec (.moveAbandoned move) s = .next s) ∧
    (dstLost s m = true → ∀ i : Instr, i = .moveAbandoned move ∨ (i = .pageCopyDone move ∧ m.copying = true) →
      let s1 := (s.leavesOfFrame m.src.toNat).foldl (fun s l => reLeaf s l.1 (setMoving false)) s
      exec i s = .next (resumeFolest (moveEvent { freeExtent s1 m.dst.toNat with moves := s1.moves.erase m } m)))) ∧
  (∀ (p : Nat) (s : State), p < 12 → s.inService = true → ∃ t, exec (.tierInterval p) s = .next t ∧
    (∀ e ∈ t.heat, e.1 % 16 ≠ p) ∧ (∀ e ∈ s.heat, e.1 % 16 ≠ p → e ∈ t.heat) ∧
    (let a := tget Tier.reset s.tiers p
     let b := tget Tier.reset t.tiers p
     let least := bits (s.part p).tier 47 40
     b.interval = a.interval + 1 ∧ b.moved = 0 ∧ b.held = false ∧ b.demoting = demoteNow s p ∧ (bit (s.part p).tier 57 = true → b.threshold = least) ∧
     (bit (s.part p).tier 57 = false → a.held = true → a.heldIntervals = 7 → b.threshold = min 255 (2 * max a.threshold least) ∧ b.heldIntervals = 0) ∧
     (bit (s.part p).tier 57 = false → a.held = false → 2 * a.moved < moveBudget s p → a.calmIntervals = 63 →
       b.threshold = max least (max a.threshold least / 2) ∧ b.calmIntervals = 0)) ∧ t.mem = s.mem)

namespace Sys2Proof.Claims

open Sys2Proof.Machine

/-! ## The port and Folest -/

/-- The rows that carry a Folest frame, with the frame's TYPE and, for a COMMAND, its CODE. -/
def IsFrameRow (row : Frame → Instr) (typ code : Nat) : Prop :=
  (row, typ, code) ∈ ([(Instr.folestOpen, 1, 1), (Instr.folestClose, 1, 3), (Instr.folestReset, 1, 5), (Instr.folestNop, 1, 6),
    (Instr.mailboxFrame, 2, 0), (Instr.dmaWrite, 3, 0), (Instr.dmaRead, 4, 0), (Instr.ingest, 5, 0), (Instr.ackFrame, 7, 0),
    (Instr.nackFrame, 8, 0), (Instr.keepalive, 9, 0)] : List ((Frame → Instr) × Nat × Nat))

/-- The state once a frame of the partner for the open session has been counted and its time noted (R416). -/
def heardFrame (s : State) : State :=
  let s1 := portCount s 0
  { s1 with port := { s1.port with lastRx := s1.clock } }

/-- A DMA frame names an ACTIVE context and a range of pages that the engine reached, with its lines claimed (R403, R405). -/
structure DmaRange (s : State) (f : Frame) (need : Need) (s2 : State) : Prop where
  ctx : ctxDetail s (le f.payload 0 2) (le f.payload 8 8) = 0
  length : 1 ≤ le f.payload 0x18 4 ∧ le f.payload 0x18 4 ≤ 8192
  below : le f.payload 0x10 8 + le f.payload 0x18 4 ≤ sysBase
  reached : ∃ s1, pageCheck s (le f.payload 0 2) need (le f.payload 0x10 8) (le f.payload 0x18 4) = (s1, .ok) ∧
    portClaim s1 (le f.payload 0 2) need (le f.payload 0x10 8) (le f.payload 0x18 4) = (s2, true)

/-- A frame of a row reaches the engine (R386, R485). -/
structure Reaches (s : State) (typ code : Nat) (f : Frame) : Prop where
  passes : s.portOpen = true
  up : s.power.st = .ready ∨ s.power.st = .failed
  kind : f.typ.toNat = typ
  commandCode : typ = 1 → frameCode f = code

/-- A sequenced frame of the session `x` at the number the engine expects, which needs no other action than its own. -/
structure Expected (s : State) (x : Session) (typ code : Nat) (f : Frame) : Prop where
  reaches : Reaches s typ code f
  header : headerCheck f = 0
  session : s.port.session = some x ∧ f.session = x.id
  next : f.seq = x.rxNext ∧ x.held = []
  plain : f.ackv = false ∧ f.creditReq = false

end Sys2Proof.Claims

/-- The checks of a Folest frame in the order of R392: its header, then its session; a frame that fails is answered with the code
of *Table 14-10*; OPEN opens a session, RESET ends it, and any other frame is acted on in the session (R386, R392 to R395). -/
def Obligations.FrameChecksInOrder : Prop :=
  ∀ (row : Frame → Instr) (typ code : Nat) (f : Frame) (s : State), IsFrameRow row typ code → Reaches s typ code f →
    let s0 := portCount s 0
    (headerCheck f ≠ 0 → exec (row f) s = .next (refuse s0 f (headerCheck f) 0)) ∧
    (headerCheck f = 0 →
      (typ = 1 → code = 1 → exec (row f) s = .next (openSession s0 f)) ∧
      (¬(typ = 1 ∧ code = 1) →
        (s.port.session = none → typ ≤ 5 → ¬(typ = 1 ∧ code = 5) →
          exec (row f) s = .next (sendPlain s0 0x01 ([0x05, 0] ++ leBytes 2 0x0105 ++ zeros 12))) ∧
        (s.port.session = none → (5 < typ ∨ (typ = 1 ∧ code = 5)) → exec (row f) s = .next s0) ∧
        (∀ x, s.port.session = some x →
          (f.session ≠ x.id → exec (row f) s = .next (refuse s0 f 0x0106 0)) ∧
          (f.session = x.id → typ = 1 → code = 5 → exec (row f) s = .next (endSession s0)) ∧
          (f.session = x.id → ¬(typ = 1 ∧ code = 5) → exec (row f) s = .next (inSession s0 f)))))

/-- The expected frame of a session is acted on and takes its number: NOP does nothing else, MAILBOX hands its message to the
Steward, CLOSE ends the session once its answer may go, DMA_WRITE and DMA_READ reach the pages they name, INGEST fills its stream
(R352, R394, R397, R402 to R409). An ACK with its acknowledgement field, a NACK and a KEEPALIVE take no number (R399, R401). -/
def Obligations.ExpectedFrameResult : Prop :=
  (∀ (f : Frame) (x : Session) (s : State),
    let s0 := heardFrame s
    (Expected s x 1 6 f → exec (.folestNop f) s = .next (resumeFolest (resumeFolest (acted s0 x f 0 0)))) ∧
    (Expected s x 1 3 f → ∀ t, closeSession s0 x f.seq = some t →
      exec (.folestClose f) s = .next (resumeFolest (resumeFolest (acted t x f 0 0)))) ∧
    (Expected s x 2 0 f → frameCode f ≤ 63 → 40 ≤ f.length.toNat → f.length.toNat ≤ 4104 → exec (.mailboxFrame f) s =
      .next (resumeFolest (resumeFolest (acted (takeMessage s0 (frameCode f) (f.payload.drop 8)) x f 0 0)))) ∧
    (Expected s x 3 0 f → ∀ s2, DmaRange s0 f .w s2 →
      ∀ s3, writeRange s2 (le f.payload 0 2) (le f.payload 0x10 8) (f.payload.drop 32) = (s3, 0) →
      exec (.dmaWrite f) s = .next (resumeFolest (resumeFolest (acted s3 x f 0 0)))) ∧
    (Expected s x 4 0 f → ∀ s2 d, DmaRange s0 f .r s2 → x.unacked.countP (fun g => decide (g.typ = 4)) < 64 →
      readRange s2 (le f.payload 0 2) (le f.payload 0x10 8) (le f.payload 0x18 4) = .bytes d 0 →
      exec (.dmaRead f) s = .next (resumeFolest (resumeFolest (acted (pushTx s2 0x04 true
        (slice f.payload 0 2 ++ zeros 2 ++ slice f.payload 4 24 ++ zeros 4 ++ d) none s2.now) x f 0 0)))) ∧
    (Expected s x 5 0 f → ∀ b t, ctxDetail s0 (le f.payload 0 2) (le f.payload 8 8) = 0 →
      s0.bound.find? (fun b => decide (b.ctx = le f.payload 0 2) && decide (b.record.toNat = le f.payload 0x10 8)) = some b →
      let b' := { b with last := s0.clock }
      ingestBound { s0 with port := { s0.port with bindings := s0.bound.map fun y => if y = b then b' else y } } f b' = (t, some (0, 0)) →
      exec (.ingest f) s = .next (resumeFolest (resumeFolest (acted t x f 0 0))))) ∧
  (∀ (f : Frame) (x : Session) (s : State), s.port.session = some x → f.session = x.id → headerCheck f = 0 → f.creditReq = false →
    x.held = [] → let s0 := heardFrame s
    (Reaches s 9 0 f → f.ackv = false → exec (.keepalive f) s = .next s0) ∧
    (Reaches s 7 0 f → f.ack = x.partnerAck → frameCode f = 0 → exec (.ackFrame f) s = .next (s0.setSession
      { x with unacked := x.unacked.map fun (g : TxFrame) => { g with sacked := false } })) ∧
    (Reaches s 8 0 f → f.ackv = false → le f.payload 0 4 = le f.payload 4 4 → exec (.nackFrame f) s = .next s0))

/-- Timers and queues of the port's own: retransmission, delayed ACK, keepalive, timeout, idle bindings, event frames and notices
(R356, R399, R400, R407, R412, R413, R415, R416). -/
def Sys2Proof.Claims.PortTimersResult : Prop :=
  (∀ (x : Session) (g : TxFrame) (s : State), s.port.session = some x → x.unacked.find? (fun g => g.sent && !g.sacked) = some g →
    s.resendAt g ≤ s.clock →
    (s.port.retryLimit ≤ g.tries → exec .retransmitTimeout s = .next (resetSession s 0x0121)) ∧
    (g.tries < s.port.retryLimit → exec .retransmitTimeout s = .next (resendOne (s.setSession { x with
      unacked := x.unacked.map fun (h : TxFrame) => if h.seq = g.seq then { h with tries := h.tries + 1 } else h }) g))) ∧
  (∀ (x : Session) (s : State), s.port.session = some x →
    (x.ackDue = true → exec .delayedAck s = .next (sendAck s)) ∧ (x.ackDue = false → exec .delayedAck s = .next s) ∧
    (s.port.lastTx + s.port.keepalive * 1000000 ≤ s.clock → exec .keepaliveTimer s = .next (sendPlain s 0x09 [])) ∧
    (s.port.lastRx + s.port.timeout * 1000000 ≤ s.clock → exec .sessionTimeout s = .next (resetSession s 0x0122)) ∧
    (s.clock < s.port.lastTx + s.port.keepalive * 1000000 → exec .keepaliveTimer s = .next s) ∧
    (s.clock < s.port.lastRx + s.port.timeout * 1000000 → exec .sessionTimeout s = .next s)) ∧
  (∀ (t : BitVec 32) (s : State), ∃ u, exec (.bindingIdle t) s = .next u ∧
    (∀ b ∈ u.port.bindings, b ∈ s.port.bindings ∧ ¬(b.p = t ∧ b.last + 10000000000 ≤ s.clock)) ∧
    (∀ b ∈ s.port.bindings, ¬(b.p = t ∧ b.last + 10000000000 ≤ s.clock) → b ∈ u.port.bindings) ∧ u = { s with port := { s.port with bindings := u.port.bindings } }) ∧
  (∀ (ctx line : Nat) (data : List Byte) (s : State) (c : Context), line < 256 → 1 ≤ data.length → data.length ≤ 128 →
    s.ctx? ctx = some c → c.state ≠ .destroying → s.evPending ctx < 2048 →
    s.eventBytes + 24 + (data.length + 3) / 4 * 4 ≤ 62 * 2 ^ 20 →
    ∃ t e, exec (.egressPost ctx line data) s = .next t ∧ t.port.events = s.port.events ++ [e] ∧ e.ctx = ctx ∧ e.gen = c.gen ∧
      e.bell = false ∧ e.tag = line ∧ e.payload.take data.length = data ∧ e.payload.length = (data.length + 3) / 4 * 4 ∧
      e.dropped = c.evFlag ∧ t.mem = s.mem) ∧
  (∀ (ctx : Nat) (x : Session) (e : EvFrame) (s : State), s.port.session = some x →
    s.port.events.find? (fun e => decide (e.ctx = ctx)) = some e → s.portOpen = true → x.inWindow x.txNext = true →
    (∀ g ∈ x.unacked, g.sent = true) → exec (.eventFrameSend ctx) s = .next (pushTx { s with
      port := { s.port with events := s.port.events.erase e } } 0x06 false (eventPayload s e) (some ctx) e.time)) ∧
  (∀ (n : Notice) (rest : List Notice) (x : Session) (s : State), s.notices = n :: rest → s.noticeOut = none → s.port.session = some x →
    exec .noticeSend s = .next (sendMail { s with
      notices := rest, noticeOut := some (w32 s.noticeTag, n), noticeTag := (s.noticeTag + 1) % 2 ^ 32, noticeLost := false } 63
      (message n.code.toNat s.noticeTag n.gen (if n.gen = 0 then 0 else n.ctx) 0 s.now (noticeBytes n s.noticeLost))))

/-- The link, what the module drops, answers and sends below Folest, and device time: LINK_UP needs an allowed mode and ETHREF;
frames of others are counted; ARP, ND and ICMP are answered for the partner once the module has become READY; MKA; the PTP rows, PPS and holdover (R378 to R390,
R485, R491, R506). -/
def Sys2Proof.Claims.PortEventsResult : Prop :=
  (∀ (mode : Nat) (s : State),
    exec .linkDown s = .next { s with port := { s.port with link := false } } ∧
    (modeAllowed (provNum s.port.prov 0 1) mode = true → s.power.ethref = true → s.power.st ≠ .off → s.power.st ≠ .boot →
      exec (.linkUp mode) s = .next (pump { s with port := { s.port with link := true, mode := mode } })) ∧
    (s.port.link = true → exec .foreignFrame s = .next (portCount s 3) ∧
      exec (.rxFrameDropped .macsec) s = .next (portCount s 5) ∧ exec (.rxFrameDropped .badFcs) s = .next (portCount s 4) ∧
      exec (.rxFrameDropped .tooLong) s = .next (portCount s 4) ∧ exec (.rxFrameDropped .tagged) s = .next (portCount s 4) ∧
      exec (.rxFrameDropped .other) s = .next (portCount s 4))) ∧
  (∀ (ip : BitVec 128) (data : List Byte) (s : State), s.answersPort = true →
    (s.provFlag 0 = false → ip.toNat = s.moduleIp → exec (.arpRequest true ip) s = .next (wire s (.arpReply ip))) ∧
    (s.provFlag 0 = true → ip.toNat = s.moduleIp → exec (.ndSolicit true ip) s = .next (wire s (.ndReply ip))) ∧
    (ip.toNat ≠ s.moduleIp → exec (.arpRequest true ip) s = .next (portCount s 4) ∧
      exec (.ndSolicit true ip) s = .next (portCount s 4)) ∧
    exec (.arpRequest false ip) s = .next (portCount s 3) ∧ exec (.ndSolicit false ip) s = .next (portCount s 3) ∧
    exec (.icmpEcho false data) s = .next (portCount s 3) ∧
    (s.echoesNow < 1000 → exec (.icmpEcho true data) s = .next (wire { s with
      port := { s.port with echoes := [(s.clock / 1000000000, s.echoesNow + 1)] } } (.echoReply data))) ∧
    (1000 ≤ s.echoesNow → exec (.icmpEcho true data) s = .next (portCount s 4)) ∧
    (s.provFlag 1 = true → s.port.lastLldp + 30000000000 ≤ s.clock →
      exec .lldpTimer s = .next (wire { s with port := { s.port with lastLldp := s.clock } } (.lldp s.mac)))) ∧
  (∀ (s : State), s.portOpen = true →
    exec .delayReqTimer s = .next (wire s (.delayReq (w64 s.now))) ∧
    (∀ d, exec (.ptpDelayResp d) s = .next { s with port := { s.port with delay := d } }) ∧
    (∀ n, exec (.ptpAnnounce n) s = .next { s with port := { s.port with announce := n } })) ∧
  (∀ (sak : Bool) (s : State), s.port.link = true → s.flash.ckn ≠ [] → ∃ u, exec (.eapolMka sak) s = .next u ∧
    u.port.mkaLive = true ∧ u.port.sak = (s.port.sak || sak) ∧ (sak = true → s.port.session = none → u.port.txPn = 0)) ∧
  (∀ (s : State), exec .mkaPeerLost s = .next { s with port := { s.port with mkaLive := false, sak := false } }) ∧
  (∀ (master : Nat) (s : State), s.portOpen = true →
    exec (.ptpSync master) s = .next (ptpTime s master) ∧ exec (.ptpFollowUp master) s = .next (ptpTime s master)) ∧
  (∀ (s : State),
    (s.port.locked = true → s.port.lastSync + 3 * s.port.announce ≤ s.clock → exec .ptpHoldover s = .next (event { s with port := { s.port with locked := false } } 5 0x081C 0x0E 0x40 0xFFFF)) ∧
    (s.provFlag 4 = true → s.power.st ≠ .off →
      exec .ppsInEdge s = .next (correctTime s ((s.time + 500000000) / 1000000000 * 1000000000))) ∧
    (s.time % 1000000000 = 0 → s.power.st ≠ .off → exec .ppsOutPulse s = .next (s.emit (.pps (w64 s.now)))))

/-- Device time never decreases at a PTP correction, nor at a PPS edge: it steps or adjusts forward, or runs slow (R389). -/
def Obligations.DeviceTimeNeverDecreases : Prop :=
  ∀ (i : Instr) (s t : State), (∃ m, i = .ptpSync m ∨ i = .ptpFollowUp m) ∨ i = .ppsInEdge ∨ (∃ m, i = .timeSet m) →
    exec i s = .next t → s.time ≤ t.time ∧ (t.time = s.time ∨ t.port.slow = 0)

namespace Sys2Proof.Claims

open Sys2Proof.Machine

/-! ## The sideband and the Reeve -/

/-- A sideband request whose LENGTH and reserved fields pass, for a command that is answered now (R460, R491). -/
structure Requests (s : State) (code : Nat) (m : SbMsg) (p : List Byte) : Prop where
  answered : s.answers code = true
  payload : m.payload = p
  length : m.length.toNat = p.length ∧ p.length ≤ 4080
  zero : m.status = 0 ∧ m.rsvd = 0

/-- A request's LENGTH does not fit. -/
structure Misfits (s : State) (code : Nat) (m : SbMsg) : Prop where
  answered : s.answers code = true
  length : m.length.toNat ≠ m.payload.length ∨ 4080 < m.payload.length

end Sys2Proof.Claims

/-- The sideband refuses a LENGTH that does not fit with 0x0802 and nonzero reserved fields with 0x0803, and answers the reading
commands from the state: IDENTIFY, STATE_READ, SENSOR_READ, POLICY_STATE, COUNTER_READ, LIFETIME_READ, HISTOGRAM_READ, LOG_READ,
MEASURE_READ, FW_STATUS, ATTEST_CERT (R460, R472 to R475, R480). The layouts of IDENTIFY and FW_STATUS are the model's (log entry
43). -/
def Sys2Proof.Claims.SidebandReadResult : Prop :=
  (∀ row ∈ ([(0x01, .identify), (0x02, .stateRead), (0x03, .moduleReset), (0x10, .sensorRead), (0x11, .powerCap), (0x12, .policy),
      (0x13, .policyState), (0x20, .counterRead), (0x21, .lifetimeRead), (0x22, .histogramRead), (0x28, .logRead),
      (0x30, .provision), (0x31, .macsecKey), (0x32, .timeSet), (0x40, .fwBegin), (0x41, .fwWrite), (0x43, .fwActivate),
      (0x44, .fwStatus), (0x50, .attestQuote), (0x51, .attestCert), (0x52, .measureRead)] : List (Nat × (SbMsg → Instr))),
    ∀ (m : SbMsg) (s : State), Misfits s row.1 m → exec (row.2 m) s = .next (reply m s row.1 0x0802 [])) ∧
  ∀ (m : SbMsg) (p : List Byte) (s : State),
    (Requests s 0x01 m [] → ∃ out, exec (.identify m) s = .next (reply m s 0x01 0 out) ∧ out.take 8 = vecBytes s.serial) ∧
    (Requests s 0x02 m [] → exec (.stateRead m) s = .next (reply m { s with reeve := { s.reeve with alert := false } } 0x02 0
      (leBytes 1 (modStateCode s.power.st) ++ zeros 1 ++ vecBytes s.power.failure ++ vecBytes s.power.linkMask ++
      (List.range 12).map (fun p => BitVec.ofNat 8 (partStateCode (s.part p).state)) ++ leBytes 4 (s.power.up / 1000000)))) ∧
    (Requests s 0x10 m p → p.length = 4 →
      (1 ≤ le p 2 2 → le p 2 2 ≤ 1020 → le p 0 2 + le p 2 2 ≤ sensorCount → exec (.sensorRead m) s = .next (reply m s 0x10 0
        ((List.range (le p 2 2)).flatMap fun i => vecBytes (BitVec.ofInt 32 (s.sensor (le p 0 2 + i)))))) ∧
      (le p 2 2 = 0 ∨ 1020 < le p 2 2 ∨ sensorCount < le p 0 2 + le p 2 2 →
        exec (.sensorRead m) s = .next (reply m s 0x10 0x0803 []))) ∧
    (Requests s 0x13 m p → p.length = 4 → 1 ≤ le p 2 2 → le p 2 2 ≤ 510 → le p 0 2 + le p 2 2 ≤ 528 → exec (.policyState m) s =
      .next (reply m s 0x13 0 ((List.range (le p 2 2)).flatMap fun i => vecBytes (s.islandWord (le p 0 2 + i))))) ∧
    (Requests s 0x20 m p → p.length = 7 → 1 ≤ le p 5 1 →
      (∀ i < le p 5 1, counted (le p 0 1) (le p 3 2 + i) = true ∧ counterExists (le p 0 1) (le p 1 2) (le p 3 2 + i) = true) →
      let key := fun i => counterKey (le p 0 1) (le p 1 2) (le p 3 2 + i)
      let words := (List.range (le p 5 1)).flatMap fun i => vecBytes (counterWord (tget Counter.reset s.counters (key i)))
      (le p 6 1 = 0 → exec (.counterRead m) s = .next (reply m s.freeVal.1 0x20 0 words)) ∧
      (le p 6 1 = 1 → ∃ t, exec (.counterRead m) s = .next (reply m t 0x20 0 words) ∧
        ∀ i < le p 5 1, (tget Counter.reset t.counters (key i)).ovf = false)) ∧
    (Requests s 0x21 m p → p.length = 4 → 1 ≤ le p 2 2 → le p 0 2 + le p 2 2 ≤ 32 → exec (.lifetimeRead m) s =
      .next (reply m s 0x21 0 ((List.range (le p 2 2)).flatMap fun i =>
        leBytes 8 (tget Life.reset s.reeve.life (le p 0 2 + i)).value ++
          [if (tget Life.reset s.reeve.life (le p 0 2 + i)).stuck then 1 else 0]))) ∧
    (Requests s 0x22 m p → p.length = 4 → le p 2 2 < histUnits (le p 0 2) → exec (.histogramRead m) s =
      .next (reply m s 0x22 0 ((List.range 32).flatMap fun b => leBytes 8 (tget 0 s.reeve.hist (histKey (le p 0 2) (le p 2 2) b))))) ∧
    (Requests s 0x28 m p → p.length = 10 → le p 0 1 ≤ 1 → 1 ≤ le p 9 1 → le p 9 1 ≤ 63 →
      let log := if le p 0 1 = 0 then s.flash.events else s.flash.severe
      log.length < 16384 → exec (.logRead m) s =
        .next (reply m s 0x28 0 (((log.filter fun r => decide (le p 1 8 ≤ r.seq)).take (le p 9 1)).flatMap recordBytes))) ∧
    (Requests s 0x52 m p → p.length = 9 → 1 ≤ le p 8 1 → le p 8 1 ≤ 63 → (∀ r, s.flash.measures.head? = some r → r.index ≤ le p 0 8) →
      exec (.measureRead m) s =
        .next (reply m s 0x52 0 (((s.flash.measures.filter fun r => decide (le p 0 8 ≤ r.index)).take (le p 8 1)).flatMap measureBytes))) ∧
    (Requests s 0x44 m [] → s.power.st = .held → s.power.failure = 0x080A → exec (.fwStatus m) s = .next (reply m s 0x44 0x080A [])) ∧
    (Requests s 0x44 m [] → s.power.st ≠ .held → ∃ out, exec (.fwStatus m) s = .next (reply m s 0x44 0 out) ∧
      out.head? = some (if s.flash.activeB then 1 else 0)) ∧
    (Requests s 0x51 m [] → exec (.attestCert m) s = .next (reply m s 0x51 0 (vecBytes s.serial ++ Config.endorsement)))

/-- The sideband's commands that change state: POWER_CAP, POLICY, PROVISION, MACSEC_KEY, TIME_SET, MODULE_RESET, the firmware update
and ATTEST_QUOTE (R382, R385, R389, R461, R464, R470, R477 to R480, R492). A cap out of range is refused: the model's reading
(log entry 44). -/
def Sys2Proof.Claims.SidebandWriteResult : Prop :=
  ∀ (m : SbMsg) (p : List Byte) (s : State),
    (Requests s 0x03 m p → p.length = 1 → s.power.trip = false →
      (2 < le p 0 1 → exec (.moduleReset m) s = .next (reply m s 0x03 0x0803 [])) ∧
      (le p 0 1 < 2 → exec (.moduleReset m) s = .next (moduleReset (reply m s 0x03 0 []) (decide (le p 0 1 = 1)))) ∧
      (le p 0 1 = 2 → exec (.moduleReset m) s = .next (reeveReset (reply m s 0x03 0 [])))) ∧
    (Requests s 0x11 m p → p.length = 3 → le p 0 1 = 1 →
      (40 ≤ le p 1 2 → le p 1 2 ≤ 96 →
        ∃ t, exec (.powerCap m) s = .next (reply m t 0x11 0 (leBytes 2 (le p 1 2))) ∧ t.flash.cap = le p 1 2 ∧ t.mem = s.mem) ∧
      (le p 1 2 < 40 ∨ 96 < le p 1 2 → exec (.powerCap m) s = .next (reply m s 0x11 0x0803 []))) ∧
    (Requests s 0x12 m p → p.length = 12 → le p 0 1 ≤ 11 → le p 1 1 ≤ 3 → le p 2 1 ≤ 1 → le p 3 1 ≤ 25 →
      (le p 1 1 = 2 ∨ le p 3 1 = 0) →
      ((s.part (le p 0 1)).state = .unconfigured → exec (.policy m) s = .next (reply m s 0x12 0x0805 [])) ∧
      (∀ t v w, (s.part (le p 0 1)).state ≠ .unconfigured →
        policyAccess s (le p 0 1) (le p 1 1) (le p 2 1) (le p 3 1) (w64 (le p 4 8)) 0x0803 = (t, 0, v, w) →
        exec (.policy m) s = .next (reply m t 0x12 0 (vecBytes v ++ vecBytes w)))) ∧
    (Requests s 0x30 m p → p.length = 129 → le p 0 1 = 1 → le (p.drop 1) 1 1 < 32 → le (p.drop 1) 0x44 60 = 0 →
      ∃ t, exec (.provision m) s = .next (reply m t 0x30 0 (provStore (p.drop 1))) ∧
        t.flash.prov = BitVec.ofNat 1024 (leNat (provStore (p.drop 1))) ∧ t.port = s.port) ∧
    (Requests s 0x31 m p → 1 ≤ le p 0 1 → le p 0 1 ≤ 32 → p.length = 33 + le p 0 1 → exec (.macsecKey m) s = .next (reply m { s with
      flash := { s.flash with ckn := slice p 1 (le p 0 1), cak := BitVec.ofNat 256 (le p (1 + le p 0 1) 32) } } 0x31 0 [])) ∧
    (Requests s 0x32 m p → p.length = 8 →
      (s.port.everLocked = true → exec (.timeSet m) s = .next (reply m s 0x32 0x0806 [])) ∧
      (s.port.everLocked = false → s.time < le p 0 8 → exec (.timeSet m) s = .next (reply m (stepTime s (le p 0 8)) 0x32 0 [])) ∧
      (s.port.everLocked = false → le p 0 8 ≤ s.time → exec (.timeSet m) s = .next (reply m (correctTime s (le p 0 8)) 0x32 0 []))) ∧
    (Requests s 0x40 m [] →
      (s.reeve.fwOpen = true → exec (.fwBegin m) s = .next (reply m s 0x40 0x0804 [])) ∧
      (s.reeve.fwOpen = false → ∃ t, exec (.fwBegin m) s = .next (reply m t 0x40 0 []) ∧ t.reeve.fwOpen = true ∧
        t.slotCells s.idleSlot = [] ∧ t.slotCells (!s.idleSlot) = s.slotCells (!s.idleSlot))) ∧
    (Requests s 0x41 m p → 17 ≤ p.length → le p 8 8 = 0 → le p 0 8 + (p.length - 16) ≤ 2 ^ 25 →
      (s.reeve.fwOpen = false → exec (.fwWrite m) s = .next (reply m s 0x41 0x0808 [])) ∧
      (s.reeve.fwOpen = true → ∃ t, exec (.fwWrite m) s = .next (reply m t 0x41 0 []) ∧
        t.slotBytes s.idleSlot (le p 0 8) (p.length - 16) = p.drop 16 ∧
        t.slotCells (!s.idleSlot) = s.slotCells (!s.idleSlot) ∧ t.reeve.verified = none)) ∧
    (∀ sig, Requests s 0x42 m [] →
      (s.slotStatus s.idleSlot sig = 0 → exec (.fwVerify m sig) s =
        .next (reply m { s with reeve := { s.reeve with verified := some s.idleSlot } } 0x42 0 [])) ∧
      (s.slotStatus s.idleSlot sig ≠ 0 → exec (.fwVerify m sig) s = .next (reply m s 0x42 (s.slotStatus s.idleSlot sig) []))) ∧
    (Requests s 0x43 m [] →
      (s.reeve.verified = some s.idleSlot → exec (.fwActivate m) s =
        .next (reply m { s with flash := { s.flash with trial := some s.idleSlot } } 0x43 0 [])) ∧
      (s.reeve.verified ≠ some s.idleSlot → exec (.fwActivate m) s = .next (reply m s 0x43 0x0808 []))) ∧
    (Requests s 0x50 m p → p.length = 32 →
      let index := (tget Life.reset s.reeve.life 5).value
      (2 ^ 30 ≤ index → exec (.attestQuote m) s = .next (reply m s 0x50 0x080C [])) ∧
      (index < 2 ^ 30 → 16 ≤ (s.reeve.quotes.filter fun t => decide (s.clock < t + 1000000000)).length →
        exec (.attestQuote m) s = .next (reply m s 0x50 0x080D [])) ∧
      (index < 2 ^ 30 → s.reeve.quotes = [] → (tget Life.reset s.reeve.life 5).stuck = false →
        ∃ t, exec (.attestQuote m) s = .next (reply m t 0x50 0 (quoteBytes s p index ++ Config.hssSign (quoteBytes s p index))) ∧
          (tget Life.reset t.flash.life 5).value = index + 1 ∧ t.reeve.quotes = [s.clock]))

/-- The Reeve's PLDM and MCTP answers and its loops: sensors, the power cap, the thermal throttle, run-ahead caps, placement
proposals, gating, flushes, histograms and its restart (R457 to R459, R463 to R475, R494). -/
def Obligations.ReeveResult : Prop :=
  ∀ (s : State), s.reeveRuns = true →
    (∀ data, exec (.mctpControl data) s = .next (s.emit (.mctp (Config.mctpAnswer data)))) ∧
    (∀ id, exec (.getPdr id) s = .next (s.emit (.pldm 0x51 id (Config.pdrBytes id))) ∧
      (id < sensorCount → exec (.getSensorReading id) s =
        .next (s.emit (.pldm 0x11 id ([0] ++ vecBytes (BitVec.ofInt 32 (s.sensor id)))))) ∧
      (sensorCount ≤ id → exec (.getSensorReading id) s = .next (s.emit (.pldm 0x11 id [0x80]))) ∧
      exec (.getStateSensorReadings id) s = .next (s.emit (.pldm 0x21 id ([0] ++ leBytes 1 (modStateCode s.power.st))))) ∧
    (∀ addr, exec (.dynamicAddressAssignment addr) s = .next { s with reeve := { s.reeve with i3c := some addr } }) ∧
    (∀ n v, n < sensorCount → n ≠ inletSensor → n ≠ outletSensor →
      exec (.sensorSample n v) s = .next { s with reeve := { s.reeve with sensors := tset 0 s.reeve.sensors n v } }) ∧
    (∀ watts, s.power.st = .ready → ∃ t, exec (.powerCapInterval watts) s = .next t ∧ t.reeve.powerWatts = watts ∧ t.mem = s.mem ∧
      (100 * s.capNow < watts → t.reeve.capped = true ∧ t.reeve.underFor = 0 ∧
        ∀ i < 528, (t.island i).power ≤ (s.island i).power) ∧
      (watts ≤ 100 * s.capNow → s.reeve.capped = false → ∀ i < 528, (t.island i).power = s.ceiling i)) ∧
    (∃ t, exec .thermalThrottle s = .next t ∧ t.mem = s.mem ∧ ∀ i < 528,
      (100000 ≤ s.sensor i → (t.island i).heat = max 16 ((s.island i).clock - 1) ∧ (t.island i).coolFor = 0) ∧
      (97000 ≤ s.sensor i → s.sensor i < 100000 → (t.island i).heat = (s.island i).heat ∧ (t.island i).coolFor = 0) ∧
      (s.sensor i < 97000 → (t.island i).coolFor = (s.island i).coolFor + 1) ∧
      ((t.island i).power = (s.island i).power)) ∧
    (∃ t, exec .runAheadPolicy s = .next t ∧ t.mem = s.mem ∧ ∀ i < 528, ∀ v, s.islandPolicy i = some v →
      let fetched := s.islandCount i 5 - (s.island i).fetched
      let useful := s.islandCount i 6 - (s.island i).useful
      (raLock v = true → (t.island i).raCap = raCapMax v) ∧
      (raLock v = false → (t.island i).raCap = clamp (raCapMin v) (raCapMax v) (if fetched = 0 then (s.island i).raCap
        else if 100 * useful < 25 * fetched then (s.island i).raCap / 2
        else if 60 * fetched < 100 * useful then 2 * (s.island i).raCap else (s.island i).raCap)) ∧
      (t.island i).fetched = s.islandCount i 5 ∧ (t.island i).useful = s.islandCount i 6) ∧
    (∀ st inst core c q, (s.inst? (st / 65536) inst).bind (·.core) = some c → s.partOfHall (hallOfCore c) = some q →
      s.partOfHall (hallOfCore core) = some q → placeEnable (s.part q).reeve = true → s.throttled (islandOfCore c) = true →
      (s.island (islandOfCore core)).clock = s.ceiling (islandOfCore core) → s.coreEnabled c = true → s.coreEnabled core = true →
      exec (.placementProposal st inst core) s = .next (migrate true st inst core s)) ∧
    (∀ u q, s.partOfHall (hallOfUnit u) = some q → u.wf = true →
      (gateEnable (s.part q).reeve = true →
        (s.unitIdle q u = false → exec (.gatingInterval u) s = .next (s.stirUnit u)) ∧
        (s.unitIdle q u = true →
          ((s.idle.find? fun e => decide (e.1 = u)) = none →
            exec (.gatingInterval u) s = .next { s with idle := (u, s.clock) :: s.idle }) ∧
          (∀ e, (s.idle.find? fun e => decide (e.1 = u)) = some e →
            (e.2 + idleTime u ≤ s.clock → exec (.gatingInterval u) s = .next (sealUnit s u)) ∧
            (s.clock < e.2 + idleTime u → exec (.gatingInterval u) s = .next s)))) ∧
      (gateEnable (s.part q).reeve = false →
        (s.seal? u = some .gated → exec (.gatingInterval u) s = .next (ungateUnit s u)) ∧
        (s.seal? u = some .closed → exec (.gatingInterval u) s = .next (s.setSeal u none)) ∧
        (s.seal? u = none ∨ s.seal? u = some .dead → exec (.gatingInterval u) s = .next s))) ∧
    exec .lifetimeFlush s = .next (flushLife s) ∧
    (∃ t, exec .histogramTick s = .next t ∧ t.mem = s.mem ∧
      (tget 0 t.reeve.hist (histKey 2 0 (min 31 (s.reeve.powerWatts / 300))) =
        min (tget 0 s.reeve.hist (histKey 2 0 (min 31 (s.reeve.powerWatts / 300))) + 1) (2 ^ 64 - 1)) ∧
      t.reeve.joules = (s.reeve.joules + s.reeve.powerWatts) % 1000) ∧
    (s.power.st = .ready → exec .reeveRestart s = .next (restartReeve s)) ∧
    (s.power.st ≠ .ready → s.power.trip = false → exec .reeveRestart s = .next (moduleReset s false))

/-- Uncorrectable errors and their containment: a core that loses its state is retired and its context lost with 0x0705; a corrupt
tally becomes as one whose owner died; a dead end point is sealed and its users are lost with 0x0714; a block of a commons is
repaired in place or into a new frame, or the commons fails; the module fails on what containment cannot hold (R313, R426, R443 to
R451). -/
def Obligations.ContainmentResult : Prop :=
  (∀ (core : Nat) (s : State), s.coreEnabled core = true → s.inService = true → (∀ e ∈ s.insts, e.2.core ≠ some core) →
    (∀ e ∈ s.groups, e.1 / 48 ≠ core) →
    let s2 := s.modCore core fun k => { Core.reset with l1 := k.l1, mshr := k.mshr, seq := k.seq }
    let s3 := lifeUp (lifeUp (capChanged { s2 with retired := addOnce core s2.retired }) 26 1) 23 1
    let s4 := event s3 2 0x0705 0x01 (dieCD core) (BitVec.ofNat 16 core)
    exec (.coreStateLost core) s = .next (notify s4 (noticeOf s4 0x8010 0 0 0x0705 0 (w64 core)))) ∧
  (∀ (core : Nat) (e : Nat × Inst) (x : Station) (s : State), s.coreEnabled core = true → s.inService = true →
    s.insts.find? (fun e => decide (e.2.core = some core)) = some e → tfind s.stations (e.1 / 4096) = some x →
    ∃ s3, exec (.coreStateLost core) s = .next (
      let s4 := lose s3 x.ctx 0x0705 core (w32 (stationHandle (e.1 / 4096) (tget 0 s3.stationTags (e.1 / 4096)))) 0
      notify s4 (noticeOf s4 0x8010 0 0 0x0705 0 (w64 core))) ∧ core ∈ s3.retired ∧ (∀ k ∈ s3.groups, k.1 / 48 ≠ core) ∧
      s3.mem = s.mem) ∧
  (∀ (n : Nat) (s : State), n < 12 * Config.talliesPerHall → s.inService = true →
    exec (.tallyCorrupt n) s = .next (event (lifeUp (abandon (s.setTally n { s.tally n with corrupt := true }) n) 24 1) 2 0x0709 0x08
      (BitVec.ofNat 8 (hallOfTally n)) (BitVec.ofNat 16 (n % Config.talliesPerHall)))) ∧
  (∀ (e : EndPoint) (s : State), (s.isDead e = true → exec (.endpointDead e) s = .next s) ∧
    (s.isDead e = false → s.inService = true →
      let n := s.endPointName e
      let s1 := markDead s e
      let s2 := (s1.cores.map (·.1)).foldl (fun s c => endRequests s e c) s1
      let s3 := (s2.usersOf e).foldl (fun s c => loseCtx s c 0x0714 0) (loseSlice s2 e)
      let s4 := capIfChanged s (repairDead s3 e)
      let s5 := logEvent s4 { mkEvent s4 2 0x0714 n.1 n.2.1 n.2.2.1 with part := BitVec.ofNat 4 n.2.2.2 }
      exec (.endpointDead e) s = .next (rasNotice s5 n.2.2.2 0x0714 0))) ∧
  (∀ (n i : Nat) (o : Obj) (s : State), tfind s.objs n = some o → o.commons = true → s.repairRuns n i = true →
    (o.badRef.contains i = true ∨ s.blockMatches o i (frameAt o.refPages i) = false →
      exec (.commonsRepaired n i) s = .next (resumeFolest (failRepair s n i 2 o))) ∧
    (o.badRef.contains i = false → s.blockMatches o i (frameAt o.refPages i) = true →
      let s0 := { s with repairs := s.repairs.erase (n, i) }
      let recorded := fun (s : State) (pa : Nat) => logEvent s { mkEvent s 5 0x0708 0x0D 0x41 0xFFFF with
        phys := BitVec.ofNat 48 pa, detail := w64 i }
      (s.homeStatus (frameAt o.pages i) = 0 → exec (.commonsRepaired n i) s =
        .next (resumeFolest (recorded (rewriteBlock s0 o i (frameAt o.pages i)) (frameAt o.pages i)))) ∧
      (s.homeStatus (frameAt o.pages i) ≠ 0 →
        (∀ s1 pa g, takeFirst s0 4 65536 65536 none ((s.groupsOfMode 12 4).filter s.hbmUsable) = some (s1, pa, g) →
          exec (.commonsRepaired n i) s = .next (resumeFolest (recorded (rewriteBlock (relocateBlock s1 n o i pa) o i pa) pa))) ∧
        (takeFirst s0 4 65536 65536 none ((s.groupsOfMode 12 4).filter s.hbmUsable) = none →
          exec (.commonsRepaired n i) s = .next (resumeFolest (failRepair s n i 3 o)))))) ∧
  (∀ (st : W16) (s : State),
    (s.power.st = .training → exec (.moduleFailed st) s = .next (hold s st 0x10 0xFF 0xFFFF)) ∧
    (s.power.st ≠ .training → exec (.moduleFailed st) s = .next (failModule s st))) ∧
  (∀ (p mb : Nat) (m : Mailbox) (s : State), (mb, m) ∈ s.mailboxes → m.waiting = true → msgCmd m.msg = 0x5B →
    le (msgPayload m.msg) 0 1 = p → exec (.resetOverrun p) s = .next (failModule s 0x0716))

/-- Power and bring-up in the order of *Table 18-3*: the enable pin, the input, the resets, the rails, the slot that boots, the
links, memory and core tests, and READY (R477, R481 to R490, R492, R495, R498, R499, R512). -/
def Obligations.BringUpResult : Prop :=
  (∀ (s : State),
    let on := fun p => s.setPower p
    (let s1 := on { s.power with pwrEn := true }
     exec .modPwrEnRise s = .next (if s1.mayStart then startUp s1 else s1)) ∧
    (let s1 := on { s.power with inputOk := true }
     exec .inputPowerApplied s = .next (if s1.mayStart then startUp s1 else s1)) ∧
    (let s1 := on { s.power with inputOk := true, lostBlade := none }
     exec .inputRecovered s = .next (if s1.mayStart then startUp s1 else s1)) ∧
    (∃ t, exec .modPwrEnFall s = .next t ∧ t.power.st = .off ∧ t.power.pwrEn = false ∧ t.power.trip = false ∧ t.time ≤ s.time ∧
      (s.power.st ≠ .off → t.flash.life = s.reeve.life ∧ t.flash.hist = s.reeve.hist ∧ t.mem = [])) ∧
    (∃ t, exec .inputFault s = .next t ∧ t.power.st = .off ∧ t.power.inputOk = false ∧ (s.power.st ≠ .off → t.mem = [])) ∧
    (s.power.st ≠ .off → s.power.trip = false →
      exec .modResetAssert s = .next (moduleReset (on { s.power with resetLow := true }) false) ∧
      (s.power.resetLow = true → exec .modResetRelease s = .next (moduleReset (on { s.power with resetLow := false }) false)))) ∧
  (∀ (a b : Bool) (s : State), s.power.st = .boot → s.power.rails ≠ 0 → s.power.resetLow = false → s.power.refclk = true →
    let first := s.flash.trial.getD s.flash.activeB
    (s.slotStatus first (if first then b else a) = 0 → exec (.bootVerify a b) s = .next (bootSlot s first)) ∧
    (s.slotStatus first (if first then b else a) ≠ 0 →
      (s.slotStatus (!first) (if first then a else b) = 0 → exec (.bootVerify a b) s = .next (bootSlot (fallBack s) (!first))) ∧
      (s.slotStatus (!first) (if first then a else b) ≠ 0 → exec (.bootVerify a b) s = .next (hold s 0x080A 0x0D 0x41 0xFFFF)))) ∧
  (∀ (s : State), (s.power.st = .boot → s.power.rails = 0 → exec (.railGroupUp 1) s = .next (s.setPower { s.power with rails := 1 })) ∧
    (∀ g, s.power.st = .training → 2 ≤ g → g ≤ 4 → s.power.rails + 1 = g →
      exec (.railGroupUp g) s = .next (s.setPower { s.power with rails := g })) ∧
    (∀ r, s.power.st = .boot ∨ s.power.st = .training →
      exec (.railFault r) s = .next (hold s 0x0819 0x10 0xFF (BitVec.ofNat 16 r))) ∧
    (∀ l, exec (.linkRetry l) s = .next (s.setPower { s.power with retrying := s.power.retrying.erase l }))) ∧
  (∀ (l : Nat) (s : State), s.power.st = .training → s.power.rails = 4 → l < 22 → s.power.links.contains l = false →
    s.power.retrying.contains l = false → (l = 21 ∨ s.power.links.contains 21 = true) →
    exec (.linkTrain l true) s = .next (s.setPower { s.power with links := s.power.links ++ [l] }) ∧
    (tget 0 s.power.attempts l < 3 → exec (.linkTrain l false) s = .next (s.setPower { s.power with
      attempts := tput s.power.attempts l (tget 0 s.power.attempts l + 1), retrying := addOnce l s.power.retrying })) ∧
    (3 ≤ tget 0 s.power.attempts l → exec (.linkTrain l false) s = .next (hold (s.setPower { s.power with
      attempts := tput s.power.attempts l (tget 0 s.power.attempts l + 1), linkMask := s.power.linkMask ||| w32 (2 ^ l) })
      0x0706 0x09 0xFF (BitVec.ofNat 16 l)))) ∧
  (∀ (s : State), s.linksUp = true →
    (∀ gs ds, s.power.memReady = false → ∃ t, exec (.memoryTrainingDone gs ds) s = .next t ∧ t.mem = [] ∧ t.poison = [] ∧
      t.power.memReady = true ∧ (∀ g, g ∈ t.excluded ↔ g ∈ gs ∧ g < 96) ∧
      (∀ d, d ∈ t.excludedDies ↔ ∃ k ∈ ds, k < 32 ∧ k / 16 = d)) ∧
    (∀ bad, s.power.coresTested = false → ∃ t, exec (.coreTestDone bad) s = .next t ∧ t.power.coresTested = true ∧ t.retired = [] ∧
      (∀ c, c ∈ t.failedCores ↔ c ∈ bad ∧ c < Config.cores ∧ c ∉ s.disabled)) ∧
    (s.power.memReady = true → s.power.coresTested = true → ∃ t, exec .partitionRestore s = .next t ∧ t.power.st = .ready)) ∧
  (∀ (s : State), s.flash.trial ≠ none → s.power.slot = s.flash.trial → s.power.st ≠ .ready → s.power.st ≠ .off →
    s.power.trip = false → exec .bootTrialTimeout s = .next (fallBack (moduleReset s false)))

/-- The references, the blades, the thermal trip and the TAP: what each event does to the module (R491, R500, R509, R512). -/
def Obligations.PowerEventsResult : Prop :=
  (∀ (s : State),
    let s1 := s.setPower { s.power with refclk := false }
    (s.power.st = .boot → exec .refclkLost s = .next (raiseAlert (s1.setPower { s1.power with failure := 0x070B }))) ∧
    (s.power.st = .training → exec .refclkLost s = .next (hold s1 0x070B 0x10 0xFF 0xFFFF)) ∧
    (s.power.st = .ready → exec .refclkLost s = .next (failModule s1 0x070B)) ∧
    (s.power.st = .off ∨ s.power.st = .held ∨ s.power.st = .failed → exec .refclkLost s = .next s1) ∧
    exec .ethrefLost s = .next { s with port := { s.port with link := false }, power := { s.power with ethref := false } } ∧
    exec .ethrefReturn s = .next (s.setPower { s.power with ethref := true })) ∧
  (∀ (b : Nat) (s : State), b < 2 →
    (s.power.st ≠ .off → s.power.lostBlade = none → ∃ t, exec (.bladeLost b) s = .next t ∧ t.power.lostBlade = some b ∧
      t.reeve.alert = true ∧ t.capNow = 40 ∧ ∀ i < 528, (t.island i).power = 16) ∧
    (s.power.lostBlade = some b → ∃ t, exec (.bladeReturn b) s = .next t ∧ t.power.lostBlade = none ∧ t.capNow = s.flash.cap)) ∧
  (∀ (n : Nat) (s : State), s.power.st ≠ .off → s.power.trip = false → ∃ t, exec (.thermalTrip n) s = .next t ∧
    t.power.st = .failed ∧ t.power.failure = 0x0814 ∧ t.power.trip = true ∧ t.reeve.alert = true ∧ t.mem = [] ∧ t.groups = [] ∧
    t.contexts = []) ∧
  (∀ (s : State), s.power.st ≠ .off →
    let tap := fun i (d : List Byte) => (s.setPower { s.power with jtag := i }).emit (.jtag i d)
    exec .jtagBypass s = .next (tap .bypass []) ∧ exec .jtagIdcode s = .next (tap .idcode (leBytes 4 0x1640_0A4D)) ∧
    (∃ t d, exec .jtagSamplePreload s = .next t ∧ d.length = 12 ∧ t.out.head? = some (.jtag .sample d) ∧ t.power.jtag = .sample) ∧
    (∀ pins, (s.power.resetLow = true → exec (.jtagExtest pins) s = .next (tap .extest (vecBytes pins))) ∧
      (s.power.resetLow = false → exec (.jtagExtest pins) s = .next (tap .bypass []))) ∧
    exec .jtagTrst s = .next (s.setPower { s.power with jtag := .idcode }))
/-! ## The whole module -/

namespace Sys2Proof.Claims

/-- The candidates of an address whose home is hashed over the hall dies of a partition: a SPREAD group of a stack, a group of
the cellar with a partition (R232, R274). -/
def hashedOver (s : State) (pa : Nat) : Option (List Nat) :=
  match s.placeOf pa with
  | .hbm g _ => if (s.hbmEntry g).mode = 2 then some (partHalls (s.part (s.hbmEntry g).part.toNat)) else none
  | .cellar g _ _ => if (s.cellarEntry g).mode = 3 then some (partHalls (s.part (s.cellarEntry g).part.toNat)) else none
  | _ => none

/-- From `k` to `k'` no scalar register, vector register or predicate changes but the destination `dst`, the upper half
`dst + 1` of a vector pair and, for an operation that records flags, the status register s63 (R85, R104). -/
def RegsKept (dst : Nat) (flags : Bool) (k k' : Group) : Prop :=
  (∀ r, 0x100 + r ≠ dst → (flags = true → r ≠ 63) → k'.s r = k.s r) ∧
  (∀ r, r ≠ dst → r ≠ dst + 1 → k'.v r = k.v r) ∧ (∀ p, 0x140 + p ≠ dst → k'.pred p = k.pred p)

/-- From `s` to `t` nothing changes but the group in slot `g`, whose registers other than the destination keep their values,
and what the translation of its own fetch may change (`OnlyTranslated`): no byte of memory, no other group, no unit. -/
def OnlyGroup (g : Grp) (dst : Nat) (flags : Bool) (s t : State) : Prop :=
  (s.group? g = none → t = s) ∧
  ∀ k, s.group? g = some k → ∃ u, OnlyTranslated s u ∧ (t = u ∨ ∃ k', t = u.setGroup g k' ∧ RegsKept dst flags k k')

end Sys2Proof.Claims

/-- A step takes the command at the front of the queue and carries it out with the queue's rest; with nothing waiting it
lets device time advance (the model's choice, log entry 10). -/
def Obligations.StepTakesTheFront : Prop :=
  (∀ (c : Instr) (rest : List Instr) (s : State), s.pending = c :: rest → step s = exec c { s with pending := rest }) ∧
  (∀ s : State, s.pending = [] → step s = .next (tick s))

/-- Every command is carried out in every state: none of the table ends in a fault or a refusal. What each does is said by the
statements about it. -/
def Obligations.EveryCommandIsCarriedOut : Prop :=
  ∀ (i : Instr) (s : State), ∃ t, exec i s = .next t

/-- What reset leaves: the boot ROM runs, nothing is resident or allocated, the address space reads as zero, and the
registers with reset values hold them: the way masks all ones, REEVE_POLICY, TIER_POLICY, the refresh rate, the grace of
10 seconds, the power cap of 8.4 kW, the provisioning defaults (log entry 12 for what the manual leaves out). -/
def Obligations.ResetState : Prop :=
  State.reset.pending = [] ∧ State.reset.power.st = .boot ∧ (∀ g, State.reset.group? g = none) ∧
  (∀ c, State.reset.ctx? c = none) ∧ (∀ pa, State.reset.byte pa = 0) ∧
  (∀ p, (State.reset.part p).state = .unconfigured ∧ (State.reset.part p).reeve = 0x0108_8400_0406_8000#64 ∧
    (State.reset.part p).tier = 0x0105_1040_0210_0000#64) ∧
  (∀ h, (State.reset.slice h).wayMask = BitVec.ofNat 128 (2 ^ 112 - 1) ∧ (State.reset.slice h).binWays = 0) ∧
  (∀ e, (State.reset.epoch e).state = .free) ∧ (∀ n, (State.reset.tally n).alloc = false) ∧
  (∀ g, (State.reset.hbmEntry g).mode = 0 ∧ (State.reset.cellarEntry g).mode = 0) ∧
  State.reset.grace = 10 ∧ State.reset.flash.cap = 84 ∧ State.reset.capGen = 1 ∧
  (State.reset.port.rto = 20000 ∧ State.reset.port.retryLimit = 12 ∧ State.reset.port.violLimit = 64 ∧
    State.reset.port.violWindow = 1000 ∧ State.reset.port.keepalive = 10 ∧ State.reset.port.timeout = 100)

/-- Memory after reset is in its canonical form. -/
def Obligations.MemoryCanonicalAtReset : Prop := Memory.wf State.reset.mem = true

/-- Every step of the module keeps memory in its canonical form, whatever command it carries out: addresses strictly
rising, no byte listed that reads as an unlisted one. -/
def Obligations.StepKeepsMemoryCanonical : Prop :=
  ∀ s t : State, Memory.wf s.mem = true → step s = .next t → Memory.wf t.mem = true

/-- Every core instruction decodes from its own words, with every operand at every value its fields hold: no bit of an
encoding is dropped. The extension word stands where the table allows it, and a conversion names a source type of the
table. -/
def Obligations.CoreWordsRoundTrip : Prop :=
  ∀ (i : Instr) (w : BitVec 64) (x : Option (BitVec 64)), encodeCore i = some (w, x) →
    extOk (opcOf w) (fnOf w) x.isSome = true →
    (∀ (g : Grp) (t : BitVec 4) (f : RWord), i = .vcvt g t f → t.toNat < 7) →
    (∀ (g : Grp) (t : BitVec 4) (f : RWord), i = .vdcvt g t f → t.toNat < 11) →
    ∃ g : Grp, decodeCore g w x = some i

/-- The manual's own words decode to the instructions it names: LD with the mark acquire and scope partition, TLY.ADD,
TLY.WATCH; the word 0 is no instruction. -/
def Obligations.DecodedWords : Prop :=
  (∀ g : Grp, decodeCore g 0x2804_6100_4080_0000 none = some (.ld g
    { ext := none, gp := 0, gn := false, sz := 4, mark := 1, scope := 2, base := 4, index := 2, data := 8, scale := 0, imm := 0 })) ∧
  (∀ g : Grp, decodeCore g 0x3800_1FF8_5C2B_FF40 none = some (.tlyAdd g
    { ext := none, gp := 0, gn := false, c := 0x1FF, b := 0x10B, a := 0x10A, dst := 0x1FF, mod := 0x140 })) ∧
  (∀ g : Grp, decodeCore g 0x3800_9FF8_6C32_1CD0 none = some (.tlyWatch g
    { ext := none, gp := 0, gn := false, c := 0x1FF, b := 0x10D, a := 0x10C, dst := 0x10E, mod := 0x0D0 })) ∧
  (∀ g : Grp, decodeCore g 0 none = none)

/-- Frame of the register instructions of classes S, V and V64, on every path they can take (completed, faulted, parked,
waiting, in run-ahead mode): nothing in the module changes but the group in the slot, and of that group's registers only
the destination and, where MOD.FLG asks for it, s63. -/
def Obligations.RegisterInstructionsFrame : Prop :=
  (∀ op ∈ scalarRows.map (·.1) ++ scalarUnRows.map (·.1) ++ [.spset] ++ vecRows.map (·.1) ++ vecUnRows.map (·.1),
    ∀ (g : Grp) (f : RI) (s t : State), exec (op g f) s = .next t → OnlyGroup g (Ops3.of f).dst.toNat false s t) ∧
  (∀ op ∈ fpRows.map (·.1) ++ fp64Rows.map (·.1) ++ fpDivRows.map (·.1) ++ intDivRows.map (·.1) ++ moveRows.map (·.1) ++
      crossRows.map (·.1) ++ [Instr.vredFadd],
    ∀ (g : Grp) (f : RWord) (s t : State), exec (op g f) s = .next t → OnlyGroup g f.dst.toNat true s t) ∧
  (∀ (c : Cond) (g : Grp) (f : RWord) (s t : State),
    (exec (.vcmp g c f) s = .next t → OnlyGroup g f.dst.toNat true s t) ∧
    (exec (.vdcmp g c f) s = .next t → OnlyGroup g f.dst.toNat true s t)) ∧
  (∀ (ty : BitVec 4) (g : Grp) (f : RWord) (s t : State),
    (exec (.vcvt g ty f) s = .next t → OnlyGroup g f.dst.toNat true s t) ∧
    (exec (.vdcvt g ty f) s = .next t → OnlyGroup g f.dst.toNat true s t)) ∧
  (∀ (g : Grp) (f : IWord) (s t : State), exec (.srdcr g f) s = .next t → OnlyGroup g f.dst.toNat false s t)

/-- A predicate destination receives bits for the active lanes only; inactive lanes keep theirs; p0 stays all ones
whatever is written to it; SPSET writes the whole mask whenever at least one lane is active (R53, R86). -/
def Obligations.PredicateDestinations : Prop :=
  (∀ (k : Group) (p : Nat) (act m : W32) (i : Nat), 0 < p → p < 8 → i < 32 →
    ((k.putP (BitVec.ofNat 9 (0x140 + p)) act m).pred p).getLsbD i =
      if act.getLsbD i then m.getLsbD i else (k.pred p).getLsbD i) ∧
  (∀ (k : Group) (act m : W32), k.putP 0x140 act m = k ∧ k.setPred 0 m = k ∧ k.pred 0 = BitVec.allOnes 32) ∧
  (∀ (k : Group) (p q : Nat) (act m : W32), p < 8 → q ≠ p → (k.putP (BitVec.ofNat 9 (0x140 + p)) act m).pred q = k.pred q) ∧
  (∀ (g : Grp) (f : RI) (s s1 : State) (k : Group) (act : W32) (p : Nat), 0 < p → p < 8 →
    Issues (scalarIss s g f [.s, .p, .x, .z] [.z] [.p]) g s k s1 act → (Ops3.of f).dst = BitVec.ofNat 9 (0x140 + p) →
    ∃ t k', exec (.spset g f) s = .next t ∧ t.group? g = some k' ∧
      k'.pred p = (k.opS (Ops3.of f).ext (Ops3.of f).a).setWidth 32 ∧ ∀ q, q ≠ p → k'.pred q = k.pred q)

/-- The home slice of a line among n candidates, taken in increasing hall die number, is candidate ⌊H × n / 2³²⌋ with H the
bits [63:32] of L × 0x9E37_79B9_7F4A_7C15, for the hashed groups of both tiers; it depends on the configuration alone (R233).
At a slice the line's set is L[18:0] ⊕ L[37:19] ⊕ L[40:38], the last zero-extended (R238). -/
def Sys2Proof.Claims.HomeHashAndCacheSet : Prop :=
  (∀ (s : State) (pa : Nat), ∀ hs ∈ hashedOver s pa, hs ≠ [] →
    hs.Pairwise (· < ·) ∧
    nth? hs ((BitVec.ofNat 64 (pa / 128) * 0x9E37_79B9_7F4A_7C15#64).toNat / 2 ^ 32 * hs.length / 2 ^ 32) = some (s.homeOf pa)) ∧
  (∀ (s t : State) (pa : Nat), s.orderC = t.orderC → s.hbmGroups = t.hbmGroups → s.cellarGroups = t.cellarGroups →
    s.parts = t.parts → s.homeOf pa = t.homeOf pa) ∧
  (∀ l : BitVec 41, setOf l.toNat =
    (l.extractLsb' 0 19 ^^^ l.extractLsb' 19 19 ^^^ (l.extractLsb' 38 3).setWidth 19).toNat)

/-- A fill takes the lowest-numbered permitted way whose set holds no valid line in it; when every permitted way holds
one, the least recently used of the permitted (R239). The slice lists its lines most recently used first; no fill of the
set is outstanding. -/
def Sys2Proof.Claims.FillTakesAWay : Prop :=
  ∀ (s : State) (h l : Nat) (cls : RClass) (commons : Bool),
    (∀ f ∈ (s.slice h).fills, setOf f.line ≠ setOf l) →
    (∀ w v, pickWay (s.slice h) (s.fillWays h cls commons) l = some (w, v) → w ∈ s.fillWays h cls commons) ∧
    (∀ w ∈ s.fillWays h cls commons, (∀ x ∈ (s.slice h).lines, setOf x.line = setOf l → x.way ≠ w) →
      ∃ w', pickWay (s.slice h) (s.fillWays h cls commons) l = some (w', none) ∧ w' ≤ w ∧
        ∀ x ∈ (s.slice h).lines, setOf x.line = setOf l → x.way ≠ w') ∧
    ((∀ w ∈ s.fillWays h cls commons, ∃ x ∈ (s.slice h).lines, setOf x.line = setOf l ∧ x.way = w) →
      s.fillWays h cls commons ≠ [] →
      ∃ (a b : List CLine) (x : CLine), (s.slice h).lines = a ++ x :: b ∧ setOf x.line = setOf l ∧
        pickWay (s.slice h) (s.fillWays h cls commons) l = some (x.way, some x) ∧
        ∀ y ∈ b, setOf y.line = setOf l → y.way ∉ s.fillWays h cls commons)

namespace Sys2Proof.Claims

/-- `p` is the newest of the pool lines of its line that satisfy `q` and hold the byte. -/
def Newest (s : State) (pa : Nat) (q : PoolLine → Prop) (p : PoolLine) : Prop :=
  p ∈ s.poolOf pa ∧ q p ∧ p.mask.getLsbD (pa % 128) = true ∧
  ∀ r ∈ s.poolOf pa, q r → r.mask.getLsbD (pa % 128) = true → r = p ∨ r.seq < p.seq

/-- No pool line of the line that satisfies `q` holds the byte. -/
def NoneHolds (s : State) (pa : Nat) (q : PoolLine → Prop) : Prop :=
  ∀ r ∈ s.poolOf pa, q r → r.mask.getLsbD (pa % 128) = false

def TaggedCommitted (p : PoolLine) : Prop := ∃ n, p.tag = .committed n

/-- The home slice of an address still shows an epoch's own stores: it is OPEN, or CLOSING with the slice yet to apply the command. -/
def Shown (s : State) (pa n : Nat) : Prop :=
  (s.epoch n).state = .opened ∨
  ((s.epoch n).state = .closing ∧ ∃ c, (s.epoch n).cmd = some c ∧ s.homeOf pa ∈ c.apply)

end Sys2Proof.Claims

/-- A read in an OPEN epoch, or in a CLOSING one at a slice that has not applied its command yet, sees, for each byte, its own newest pool line that holds it, else the parent's newest when it
is a child, else the newest committed line still folding, else the committed line; a plain read, and any other one through the mapping of an epoch, sees committed lines still folding, then the committed line (R250, R256). That a CLOSING epoch's own stores show until the slice applies the command is the
model's reading (log entry 130). -/
def Obligations.EpochReadSees : Prop :=
  ∀ (s : State) (pa n : Nat),
    (Shown s pa n →
      (∀ p, Newest s pa (fun r => r.tag = .held n) p → s.readByte (some n) pa = lineByte p.data (pa % 128)) ∧
      (NoneHolds s pa (fun r => r.tag = .held n) →
        (∀ q p, (s.epoch n).parent = some q → Newest s pa (fun r => r.tag = .held (n / 64 * 64 + q)) p →
          s.readByte (some n) pa = lineByte p.data (pa % 128)) ∧
        ((∀ q, (s.epoch n).parent = some q → NoneHolds s pa (fun r => r.tag = .held (n / 64 * 64 + q))) →
          s.readByte (some n) pa = s.readByte none pa))) ∧
    (¬Shown s pa n → s.readByte (some n) pa = s.readByte none pa) ∧
    (∀ p, Newest s pa TaggedCommitted p → s.readByte none pa = lineByte p.data (pa % 128)) ∧
    (NoneHolds s pa TaggedCommitted → s.readByte none pa = s.cohByte pa)

/-! ## Statements of several parts -/

/-- Class S: every scalar operation that issues completes with the value the manual gives it, and so do SRDCR and WRCR. -/
def Obligations.ScalarResult : Prop := Claims.ScalarTwoSourceResult ∧ Claims.ScalarOneSourceAndControlResult

/-- Class V and V64 arithmetic: every integer and floating-point operation that issues writes its lanes and completes. -/
def Obligations.VectorArithmeticResult : Prop := Claims.VectorIntegerResult ∧ Claims.VectorFloatResult

/-- Moves, cross-lane operations, compares and conversions. -/
def Obligations.MoveCompareConvertResult : Prop := Claims.MoveAndCrossLaneResult ∧ Claims.CompareAndConvertResult

/-- Loads, prefetches and stores that issue complete: a load is under way with its snapshot, a store's bytes stand in the
store buffer. -/
def Obligations.LoadAndStoreResult : Prop := Claims.LoadResult ∧ Claims.StoreResult

/-- Atomics and the larder view's loads and stores. -/
def Obligations.AtomicAndLarderViewResult : Prop := Claims.AtomicResult ∧ Claims.LarderViewResult

/-- Branches, calls, returns, waits and EXIT. -/
def Obligations.BranchWaitAndExitResult : Prop := Claims.BranchResult ∧ Claims.WaitAndExitResult

/-- The events of a group's paths and of its loads. -/
def Obligations.PathAndLoadEventsResult : Prop := Claims.PathEventsResult ∧ Claims.LoadEventsResult

/-- Parks, replays and the answers that reach a group. -/
def Obligations.ParkAndStewardAnswersResult : Prop := Claims.ParkCompleteResult ∧ Claims.GroupAnswersResult

/-- The mill: operations start, drain, fault and complete; accumulators are read and written. -/
def Obligations.MillResult : Prop := Claims.MillStartResult ∧ Claims.MillEventsResult ∧ Claims.AccumulatorAccessResult

/-- The sieve: operations start, complete and fault. -/
def Obligations.SieveResult : Prop := Claims.SieveStartResult ∧ Claims.SieveEventsResult

/-- Reads at the home slice and the fills behind them. -/
def Obligations.HomeReadAndFillResult : Prop := Claims.HomeReadResult ∧ Claims.FillEventsResult

/-- Near-store atomics: what they compute and what the slice does with it. -/
def Obligations.NearStoreAtomicResult : Prop := Claims.NearStoreAtomicDone ∧ Claims.NearStoreAtomicValue

/-- Epoch commands and the work of the slices behind them. -/
def Obligations.EpochResult : Prop := Claims.EpochCommandResult ∧ Claims.EpochSliceResult

/-- Gating of units and the patrol scrub. -/
def Obligations.GatingAndPatrolResult : Prop := Claims.GatingResult ∧ Claims.PatrolScrubResult

/-- Page walks and shootdowns. -/
def Obligations.WalkAndShootdownResult : Prop := Claims.PageWalkResult ∧ Claims.ShootdownDropsEntries

/-- Refresh of the stacks and the bandwidth regulators. -/
def Obligations.RefreshAndRegulatorResult : Prop := Claims.RefreshResult ∧ Claims.RegulatorResult

/-- Coherence requests and the home's answers. -/
def Obligations.CoherenceRequestAndHomeResult : Prop := Claims.CoherenceRequestResult ∧ Claims.CoherenceHomeResult

/-- Coherence at a core: probes, data, completions. -/
def Obligations.CoherenceCoreAndMissResult : Prop := Claims.CoherenceCoreResult ∧ Claims.CoherenceMissResult

/-- The Steward's memory-object and commons commands. -/
def Obligations.MemoryAndCommonsCommandsResult : Prop := Claims.MemoryCommandsResult ∧ Claims.CommonsCommandsResult

/-- Tally instructions complete and leave their tally with the value and flags the manual gives. -/
def Obligations.TallyInstructionResult : Prop := Claims.TallyInstructionDone ∧ Claims.TallyOperationValue

/-- The queue engine: entries start and complete, doorbells and bells. -/
def Obligations.QueueEngineResult : Prop := Claims.QueueEntryStartResult ∧ Claims.QueueCompletionResult ∧ Claims.DoorbellAndBellResult

/-- Station commands and the placement of instances. -/
def Obligations.StationAndPlacementResult : Prop := Claims.StationCommandsResult ∧ Claims.PlacementResult

/-- The sideband's commands, those that read and those that write. -/
def Obligations.SidebandResult : Prop := Claims.SidebandReadResult ∧ Claims.SidebandWriteResult

/-- The Steward's module and context commands. -/
def Obligations.ModuleAndContextCommandsResult : Prop := Claims.ModuleCommandsResult ∧ Claims.ContextCommandsResult

/-- The port's timers and the frames it answers on its own. -/
def Obligations.PortTimersAndEventsResult : Prop := Claims.PortTimersResult ∧ Claims.PortEventsResult

/-- Context losses and page moves. -/
def Obligations.LossAndPageMoveResult : Prop := Claims.LossAndDestroyResult ∧ Claims.PageMoveResult

/-- Which slice a line is at home in, which set it falls into, and which way a fill takes. -/
def Obligations.HomeSliceAndWay : Prop := Claims.HomeHashAndCacheSet ∧ Claims.FillTakesAWay
end

