-- ==== Sys2Proof/Laws/Tables.lean ====
section
/-! SUPPORT. Tables: what is found after a value is put, deleted or set, and the canonical form. -/

namespace Sys2Proof.Machine

variable {α : Type}

theorem tfind_tput_self (t : Table α) (k : Nat) (v : α) : tfind (tput t k v) k = some v := by
  induction t with
  | nil => simp [tput, tfind]
  | cons e t ih =>
    obtain ⟨a, w⟩ := e
    by_cases h1 : a < k
    · simp [tput, h1, tfind, Nat.ne_of_lt h1, ih]
    · by_cases h2 : a = k <;> simp [tput, h1, h2, tfind]

theorem tfind_tput_other (t : Table α) {k n : Nat} (v : α) (h : n ≠ k) : tfind (tput t k v) n = tfind t n := by
  induction t with
  | nil => simp [tput, tfind, h.symm]
  | cons e t ih =>
    obtain ⟨a, w⟩ := e
    by_cases h1 : a < k
    · simp [tput, h1, tfind, ih]
    · by_cases h2 : a = k
      · subst h2; simp [tput, tfind, h.symm]
      · simp [tput, h1, h2, tfind, h.symm]

theorem tput_tput (t : Table α) (k : Nat) (v w : α) : tput (tput t k v) k w = tput t k w := by
  induction t with
  | nil => simp [tput]
  | cons e t ih =>
    obtain ⟨a, u⟩ := e
    by_cases h1 : a < k
    · simp [tput, h1, ih]
    · by_cases h2 : a = k
      · subst h2; simp [tput]
      · simp [tput, h1, h2]

theorem tfind_tdel_self (t : Table α) (k : Nat) : tfind (tdel t k) k = none := by
  induction t with
  | nil => simp [tdel, tfind]
  | cons e t ih =>
    obtain ⟨a, w⟩ := e
    by_cases h : a = k
    · simpa [tdel, List.filter, h] using ih
    · simpa [tdel, List.filter, h, tfind] using ih

theorem tfind_tdel_other (t : Table α) {k n : Nat} (h : n ≠ k) : tfind (tdel t k) n = tfind t n := by
  induction t with
  | nil => simp [tdel, tfind]
  | cons e t ih =>
    obtain ⟨a, w⟩ := e
    by_cases h2 : a = k
    · subst h2; simpa [tdel, List.filter, tfind, h.symm] using ih
    · simp only [tdel, List.filter, h2, ne_eq, not_false_eq_true, decide_true, tfind]
      split
      · rfl
      · exact ih

theorem tget_tset_self [DecidableEq α] (d : α) (t : Table α) (k : Nat) (v : α) : tget d (tset d t k v) k = v := by
  unfold tset; split
  · next h => simp [tget, tfind_tdel_self, h]
  · simp [tget, tfind_tput_self]

theorem tget_tset_other [DecidableEq α] (d : α) (t : Table α) {k n : Nat} (v : α) (h : n ≠ k) :
    tget d (tset d t k v) n = tget d t n := by
  unfold tset; split
  · simp [tget, tfind_tdel_other t h]
  · simp [tget, tfind_tput_other t v h]

/-! ## The canonical form -/

theorem rising_iff_pairwise (t : Table α) : Rising t ↔ t.Pairwise (fun a b => a.1 < b.1) := by
  induction t with
  | nil => simp [Rising]
  | cons a t ih =>
    cases t with
    | nil => simp [Rising]
    | cons b t =>
      simp only [Rising, ih, List.pairwise_cons]
      constructor
      · rintro ⟨h, hb, ht⟩
        refine ⟨?_, hb, ht⟩
        intro e he
        rcases List.mem_cons.1 he with rfl | he
        · exact h
        · exact Nat.lt_trans h (hb e he)
      · rintro ⟨h, hb, ht⟩
        exact ⟨h b (by simp), hb, ht⟩

theorem rising_filter {t : Table α} (p : Nat × α → Bool) (h : Rising t) : Rising (t.filter p) := by
  rw [rising_iff_pairwise] at *
  exact h.filter p

theorem rising_tdel {t : Table α} (k : Nat) (h : Rising t) : Rising (tdel t k) := rising_filter _ h

theorem mem_tput {t : Table α} {k : Nat} {v : α} {e : Nat × α} (h : e ∈ tput t k v) : e = (k, v) ∨ e ∈ t := by
  induction t with
  | nil => simp [tput] at h; exact .inl h
  | cons a t ih =>
    obtain ⟨a, w⟩ := a
    by_cases h1 : a < k
    · simp [tput, h1] at h
      rcases h with rfl | h
      · exact .inr (by simp)
      · rcases ih h with rfl | h
        · exact .inl rfl
        · exact .inr (by simp [h])
    · by_cases h2 : a = k
      · simp [tput, h2] at h
        rcases h with rfl | h
        · exact .inl rfl
        · exact .inr (by simp [h])
      · simp [tput, h1, h2] at h
        rcases h with rfl | rfl | h
        · exact .inl rfl
        · exact .inr (by simp)
        · exact .inr (by simp [h])

theorem rising_tput {t : Table α} (k : Nat) (v : α) (h : Rising t) : Rising (tput t k v) := by
  rw [rising_iff_pairwise] at *
  induction t with
  | nil => simp [tput]
  | cons a t ih =>
    obtain ⟨a, w⟩ := a
    rw [List.pairwise_cons] at h
    by_cases h1 : a < k
    · simp only [tput, h1, if_true, List.pairwise_cons]
      refine ⟨?_, ih h.2⟩
      intro e he
      rcases mem_tput he with rfl | he
      · exact h1
      · exact h.1 e he
    · by_cases h2 : a = k
      · subst h2
        simp only [tput, lt_irrefl, if_false, if_true, List.pairwise_cons]
        exact h
      · have h3 : k < a := by omega
        simp only [tput, h1, h2, if_false, List.pairwise_cons]
        refine ⟨?_, h.1, h.2⟩
        intro e he
        rcases List.mem_cons.1 he with rfl | he
        · exact h3
        · exact Nat.lt_trans h3 (h.1 e he)

/-- Setting a key keeps the canonical form. -/
theorem canonical_tset [DecidableEq α] {d : α} {t : Table α} (k : Nat) (v : α) (h : Rising t ∧ NoDefault d t) :
    Rising (tset d t k v) ∧ NoDefault d (tset d t k v) := by
  unfold tset; split
  · exact ⟨rising_tdel k h.1, fun e he => h.2 e (List.mem_of_mem_filter he)⟩
  · next hv =>
    refine ⟨rising_tput k v h.1, fun e he => ?_⟩
    rcases mem_tput he with rfl | he
    · exact hv
    · exact h.2 e he

/-- Dropping entries keeps the canonical form. -/
theorem canonical_filter {d : α} {t : Table α} (p : Nat × α → Bool) (h : Rising t ∧ NoDefault d t) :
    Rising (t.filter p) ∧ NoDefault d (t.filter p) :=
  ⟨rising_filter p h.1, fun e he => h.2 e (List.mem_of_mem_filter he)⟩

end Sys2Proof.Machine
end

