-- ==== Sys2Proof/Laws/State.lean ====
section
/-! SUPPORT. What the updates of `State` leave: one lemma for each field of each update, so that no proof unfolds a record
update; then what is read back. -/

namespace Sys2Proof.Machine

@[simp] theorem State.setGroup_pending (s : State) (g : Grp) (k : Group) : (s.setGroup g k).pending = s.pending := rfl
@[simp] theorem State.setGroup_time (s : State) (g : Grp) (k : Group) : (s.setGroup g k).time = s.time := rfl
@[simp] theorem State.setGroup_timeMilli (s : State) (g : Grp) (k : Group) : (s.setGroup g k).timeMilli = s.timeMilli := rfl
@[simp] theorem State.setGroup_spare (s : State) (g : Grp) (k : Group) : (s.setGroup g k).spare = s.spare := rfl
@[simp] theorem State.setGroup_out (s : State) (g : Grp) (k : Group) : (s.setGroup g k).out = s.out := rfl
@[simp] theorem State.setGroup_orderC (s : State) (g : Grp) (k : Group) : (s.setGroup g k).orderC = s.orderC := rfl
@[simp] theorem State.setGroup_serial (s : State) (g : Grp) (k : Group) : (s.setGroup g k).serial = s.serial := rfl
@[simp] theorem State.setGroup_mac (s : State) (g : Grp) (k : Group) : (s.setGroup g k).mac = s.mac := rfl
@[simp] theorem State.setGroup_disabled (s : State) (g : Grp) (k : Group) : (s.setGroup g k).disabled = s.disabled := rfl
@[simp] theorem State.setGroup_failedCores (s : State) (g : Grp) (k : Group) : (s.setGroup g k).failedCores = s.failedCores := rfl
@[simp] theorem State.setGroup_retired (s : State) (g : Grp) (k : Group) : (s.setGroup g k).retired = s.retired := rfl
@[simp] theorem State.setGroup_capGen (s : State) (g : Grp) (k : Group) : (s.setGroup g k).capGen = s.capGen := rfl
@[simp] theorem State.setGroup_mem (s : State) (g : Grp) (k : Group) : (s.setGroup g k).mem = s.mem := rfl
@[simp] theorem State.setGroup_poison (s : State) (g : Grp) (k : Group) : (s.setGroup g k).poison = s.poison := rfl
@[simp] theorem State.setGroup_cores (s : State) (g : Grp) (k : Group) : (s.setGroup g k).cores = s.cores := rfl
@[simp] theorem State.setGroup_groups (s : State) (g : Grp) (k : Group) : (s.setGroup g k).groups = tput s.groups (gkey g) k := rfl
@[simp] theorem State.setGroup_parked (s : State) (g : Grp) (k : Group) : (s.setGroup g k).parked = s.parked := rfl
@[simp] theorem State.setGroup_slices (s : State) (g : Grp) (k : Group) : (s.setGroup g k).slices = s.slices := rfl
@[simp] theorem State.setGroup_seals (s : State) (g : Grp) (k : Group) : (s.setGroup g k).seals = s.seals := rfl
@[simp] theorem State.setGroup_idle (s : State) (g : Grp) (k : Group) : (s.setGroup g k).idle = s.idle := rfl
@[simp] theorem State.setGroup_deadEps (s : State) (g : Grp) (k : Group) : (s.setGroup g k).deadEps = s.deadEps := rfl
@[simp] theorem State.setGroup_epochs (s : State) (g : Grp) (k : Group) : (s.setGroup g k).epochs = s.epochs := rfl
@[simp] theorem State.setGroup_epochQ (s : State) (g : Grp) (k : Group) : (s.setGroup g k).epochQ = s.epochQ := rfl
@[simp] theorem State.setGroup_hbmGroups (s : State) (g : Grp) (k : Group) : (s.setGroup g k).hbmGroups = s.hbmGroups := rfl
@[simp] theorem State.setGroup_cellarGroups (s : State) (g : Grp) (k : Group) : (s.setGroup g k).cellarGroups = s.cellarGroups := rfl
@[simp] theorem State.setGroup_excluded (s : State) (g : Grp) (k : Group) : (s.setGroup g k).excluded = s.excluded := rfl
@[simp] theorem State.setGroup_excludedDies (s : State) (g : Grp) (k : Group) : (s.setGroup g k).excludedDies = s.excludedDies := rfl
@[simp] theorem State.setGroup_tlb (s : State) (g : Grp) (k : Group) : (s.setGroup g k).tlb = s.tlb := rfl
@[simp] theorem State.setGroup_walkCache (s : State) (g : Grp) (k : Group) : (s.setGroup g k).walkCache = s.walkCache := rfl
@[simp] theorem State.setGroup_shoots (s : State) (g : Grp) (k : Group) : (s.setGroup g k).shoots = s.shoots := rfl
@[simp] theorem State.setGroup_nextShoot (s : State) (g : Grp) (k : Group) : (s.setGroup g k).nextShoot = s.nextShoot := rfl
@[simp] theorem State.setGroup_moves (s : State) (g : Grp) (k : Group) : (s.setGroup g k).moves = s.moves := rfl
@[simp] theorem State.setGroup_nextMove (s : State) (g : Grp) (k : Group) : (s.setGroup g k).nextMove = s.nextMove := rfl
@[simp] theorem State.setGroup_heat (s : State) (g : Grp) (k : Group) : (s.setGroup g k).heat = s.heat := rfl
@[simp] theorem State.setGroup_lastHeat (s : State) (g : Grp) (k : Group) : (s.setGroup g k).lastHeat = s.lastHeat := rfl
@[simp] theorem State.setGroup_cold (s : State) (g : Grp) (k : Group) : (s.setGroup g k).cold = s.cold := rfl
@[simp] theorem State.setGroup_demoted (s : State) (g : Grp) (k : Group) : (s.setGroup g k).demoted = s.demoted := rfl
@[simp] theorem State.setGroup_tiers (s : State) (g : Grp) (k : Group) : (s.setGroup g k).tiers = s.tiers := rfl
@[simp] theorem State.setGroup_regs (s : State) (g : Grp) (k : Group) : (s.setGroup g k).regs = s.regs := rfl
@[simp] theorem State.setGroup_refresh (s : State) (g : Grp) (k : Group) : (s.setGroup g k).refresh = s.refresh := rfl
@[simp] theorem State.setGroup_net (s : State) (g : Grp) (k : Group) : (s.setGroup g k).net = s.net := rfl
@[simp] theorem State.setGroup_dir (s : State) (g : Grp) (k : Group) : (s.setGroup g k).dir = s.dir := rfl
@[simp] theorem State.setGroup_dirClock (s : State) (g : Grp) (k : Group) : (s.setGroup g k).dirClock = s.dirClock := rfl
@[simp] theorem State.setGroup_tallies (s : State) (g : Grp) (k : Group) : (s.setGroup g k).tallies = s.tallies := rfl
@[simp] theorem State.setGroup_watches (s : State) (g : Grp) (k : Group) : (s.setGroup g k).watches = s.watches := rfl
@[simp] theorem State.setGroup_watchOrder (s : State) (g : Grp) (k : Group) : (s.setGroup g k).watchOrder = s.watchOrder := rfl
@[simp] theorem State.setGroup_bells (s : State) (g : Grp) (k : Group) : (s.setGroup g k).bells = s.bells := rfl
@[simp] theorem State.setGroup_mailboxes (s : State) (g : Grp) (k : Group) : (s.setGroup g k).mailboxes = s.mailboxes := rfl
@[simp] theorem State.setGroup_contexts (s : State) (g : Grp) (k : Group) : (s.setGroup g k).contexts = s.contexts := rfl
@[simp] theorem State.setGroup_lossQ (s : State) (g : Grp) (k : Group) : (s.setGroup g k).lossQ = s.lossQ := rfl
@[simp] theorem State.setGroup_repairs (s : State) (g : Grp) (k : Group) : (s.setGroup g k).repairs = s.repairs := rfl
@[simp] theorem State.setGroup_objs (s : State) (g : Grp) (k : Group) : (s.setGroup g k).objs = s.objs := rfl
@[simp] theorem State.setGroup_objTags (s : State) (g : Grp) (k : Group) : (s.setGroup g k).objTags = s.objTags := rfl
@[simp] theorem State.setGroup_leaves (s : State) (g : Grp) (k : Group) : (s.setGroup g k).leaves = s.leaves := rfl
@[simp] theorem State.setGroup_extents (s : State) (g : Grp) (k : Group) : (s.setGroup g k).extents = s.extents := rfl
@[simp] theorem State.setGroup_cursors (s : State) (g : Grp) (k : Group) : (s.setGroup g k).cursors = s.cursors := rfl
@[simp] theorem State.setGroup_queues (s : State) (g : Grp) (k : Group) : (s.setGroup g k).queues = s.queues := rfl
@[simp] theorem State.setGroup_queueTags (s : State) (g : Grp) (k : Group) : (s.setGroup g k).queueTags = s.queueTags := rfl
@[simp] theorem State.setGroup_stations (s : State) (g : Grp) (k : Group) : (s.setGroup g k).stations = s.stations := rfl
@[simp] theorem State.setGroup_stationTags (s : State) (g : Grp) (k : Group) : (s.setGroup g k).stationTags = s.stationTags := rfl
@[simp] theorem State.setGroup_insts (s : State) (g : Grp) (k : Group) : (s.setGroup g k).insts = s.insts := rfl
@[simp] theorem State.setGroup_notices (s : State) (g : Grp) (k : Group) : (s.setGroup g k).notices = s.notices := rfl
@[simp] theorem State.setGroup_noticeOut (s : State) (g : Grp) (k : Group) : (s.setGroup g k).noticeOut = s.noticeOut := rfl
@[simp] theorem State.setGroup_noticeTag (s : State) (g : Grp) (k : Group) : (s.setGroup g k).noticeTag = s.noticeTag := rfl
@[simp] theorem State.setGroup_noticeLost (s : State) (g : Grp) (k : Group) : (s.setGroup g k).noticeLost = s.noticeLost := rfl
@[simp] theorem State.setGroup_grace (s : State) (g : Grp) (k : Group) : (s.setGroup g k).grace = s.grace := rfl
@[simp] theorem State.setGroup_genNext (s : State) (g : Grp) (k : Group) : (s.setGroup g k).genNext = s.genNext := rfl
@[simp] theorem State.setGroup_genEnd (s : State) (g : Grp) (k : Group) : (s.setGroup g k).genEnd = s.genEnd := rfl
@[simp] theorem State.setGroup_lastGen (s : State) (g : Grp) (k : Group) : (s.setGroup g k).lastGen = s.lastGen := rfl
@[simp] theorem State.setGroup_mailOrder (s : State) (g : Grp) (k : Group) : (s.setGroup g k).mailOrder = s.mailOrder := rfl
@[simp] theorem State.setGroup_parts (s : State) (g : Grp) (k : Group) : (s.setGroup g k).parts = s.parts := rfl
@[simp] theorem State.setGroup_counters (s : State) (g : Grp) (k : Group) : (s.setGroup g k).counters = s.counters := rfl
@[simp] theorem State.setGroup_port (s : State) (g : Grp) (k : Group) : (s.setGroup g k).port = s.port := rfl
@[simp] theorem State.setGroup_flash (s : State) (g : Grp) (k : Group) : (s.setGroup g k).flash = s.flash := rfl
@[simp] theorem State.setGroup_reeve (s : State) (g : Grp) (k : Group) : (s.setGroup g k).reeve = s.reeve := rfl
@[simp] theorem State.setGroup_power (s : State) (g : Grp) (k : Group) : (s.setGroup g k).power = s.power := rfl

@[simp] theorem State.setCore_pending (s : State) (c : Nat) (k : Core) : (s.setCore c k).pending = s.pending := rfl
@[simp] theorem State.setCore_time (s : State) (c : Nat) (k : Core) : (s.setCore c k).time = s.time := rfl
@[simp] theorem State.setCore_timeMilli (s : State) (c : Nat) (k : Core) : (s.setCore c k).timeMilli = s.timeMilli := rfl
@[simp] theorem State.setCore_spare (s : State) (c : Nat) (k : Core) : (s.setCore c k).spare = s.spare := rfl
@[simp] theorem State.setCore_out (s : State) (c : Nat) (k : Core) : (s.setCore c k).out = s.out := rfl
@[simp] theorem State.setCore_orderC (s : State) (c : Nat) (k : Core) : (s.setCore c k).orderC = s.orderC := rfl
@[simp] theorem State.setCore_serial (s : State) (c : Nat) (k : Core) : (s.setCore c k).serial = s.serial := rfl
@[simp] theorem State.setCore_mac (s : State) (c : Nat) (k : Core) : (s.setCore c k).mac = s.mac := rfl
@[simp] theorem State.setCore_disabled (s : State) (c : Nat) (k : Core) : (s.setCore c k).disabled = s.disabled := rfl
@[simp] theorem State.setCore_failedCores (s : State) (c : Nat) (k : Core) : (s.setCore c k).failedCores = s.failedCores := rfl
@[simp] theorem State.setCore_retired (s : State) (c : Nat) (k : Core) : (s.setCore c k).retired = s.retired := rfl
@[simp] theorem State.setCore_capGen (s : State) (c : Nat) (k : Core) : (s.setCore c k).capGen = s.capGen := rfl
@[simp] theorem State.setCore_mem (s : State) (c : Nat) (k : Core) : (s.setCore c k).mem = s.mem := rfl
@[simp] theorem State.setCore_poison (s : State) (c : Nat) (k : Core) : (s.setCore c k).poison = s.poison := rfl
@[simp] theorem State.setCore_cores (s : State) (c : Nat) (k : Core) : (s.setCore c k).cores = tset Core.reset s.cores c k := rfl
@[simp] theorem State.setCore_groups (s : State) (c : Nat) (k : Core) : (s.setCore c k).groups = s.groups := rfl
@[simp] theorem State.setCore_parked (s : State) (c : Nat) (k : Core) : (s.setCore c k).parked = s.parked := rfl
@[simp] theorem State.setCore_slices (s : State) (c : Nat) (k : Core) : (s.setCore c k).slices = s.slices := rfl
@[simp] theorem State.setCore_seals (s : State) (c : Nat) (k : Core) : (s.setCore c k).seals = s.seals := rfl
@[simp] theorem State.setCore_idle (s : State) (c : Nat) (k : Core) : (s.setCore c k).idle = s.idle := rfl
@[simp] theorem State.setCore_deadEps (s : State) (c : Nat) (k : Core) : (s.setCore c k).deadEps = s.deadEps := rfl
@[simp] theorem State.setCore_epochs (s : State) (c : Nat) (k : Core) : (s.setCore c k).epochs = s.epochs := rfl
@[simp] theorem State.setCore_epochQ (s : State) (c : Nat) (k : Core) : (s.setCore c k).epochQ = s.epochQ := rfl
@[simp] theorem State.setCore_hbmGroups (s : State) (c : Nat) (k : Core) : (s.setCore c k).hbmGroups = s.hbmGroups := rfl
@[simp] theorem State.setCore_cellarGroups (s : State) (c : Nat) (k : Core) : (s.setCore c k).cellarGroups = s.cellarGroups := rfl
@[simp] theorem State.setCore_excluded (s : State) (c : Nat) (k : Core) : (s.setCore c k).excluded = s.excluded := rfl
@[simp] theorem State.setCore_excludedDies (s : State) (c : Nat) (k : Core) : (s.setCore c k).excludedDies = s.excludedDies := rfl
@[simp] theorem State.setCore_tlb (s : State) (c : Nat) (k : Core) : (s.setCore c k).tlb = s.tlb := rfl
@[simp] theorem State.setCore_walkCache (s : State) (c : Nat) (k : Core) : (s.setCore c k).walkCache = s.walkCache := rfl
@[simp] theorem State.setCore_shoots (s : State) (c : Nat) (k : Core) : (s.setCore c k).shoots = s.shoots := rfl
@[simp] theorem State.setCore_nextShoot (s : State) (c : Nat) (k : Core) : (s.setCore c k).nextShoot = s.nextShoot := rfl
@[simp] theorem State.setCore_moves (s : State) (c : Nat) (k : Core) : (s.setCore c k).moves = s.moves := rfl
@[simp] theorem State.setCore_nextMove (s : State) (c : Nat) (k : Core) : (s.setCore c k).nextMove = s.nextMove := rfl
@[simp] theorem State.setCore_heat (s : State) (c : Nat) (k : Core) : (s.setCore c k).heat = s.heat := rfl
@[simp] theorem State.setCore_lastHeat (s : State) (c : Nat) (k : Core) : (s.setCore c k).lastHeat = s.lastHeat := rfl
@[simp] theorem State.setCore_cold (s : State) (c : Nat) (k : Core) : (s.setCore c k).cold = s.cold := rfl
@[simp] theorem State.setCore_demoted (s : State) (c : Nat) (k : Core) : (s.setCore c k).demoted = s.demoted := rfl
@[simp] theorem State.setCore_tiers (s : State) (c : Nat) (k : Core) : (s.setCore c k).tiers = s.tiers := rfl
@[simp] theorem State.setCore_regs (s : State) (c : Nat) (k : Core) : (s.setCore c k).regs = s.regs := rfl
@[simp] theorem State.setCore_refresh (s : State) (c : Nat) (k : Core) : (s.setCore c k).refresh = s.refresh := rfl
@[simp] theorem State.setCore_net (s : State) (c : Nat) (k : Core) : (s.setCore c k).net = s.net := rfl
@[simp] theorem State.setCore_dir (s : State) (c : Nat) (k : Core) : (s.setCore c k).dir = s.dir := rfl
@[simp] theorem State.setCore_dirClock (s : State) (c : Nat) (k : Core) : (s.setCore c k).dirClock = s.dirClock := rfl
@[simp] theorem State.setCore_tallies (s : State) (c : Nat) (k : Core) : (s.setCore c k).tallies = s.tallies := rfl
@[simp] theorem State.setCore_watches (s : State) (c : Nat) (k : Core) : (s.setCore c k).watches = s.watches := rfl
@[simp] theorem State.setCore_watchOrder (s : State) (c : Nat) (k : Core) : (s.setCore c k).watchOrder = s.watchOrder := rfl
@[simp] theorem State.setCore_bells (s : State) (c : Nat) (k : Core) : (s.setCore c k).bells = s.bells := rfl
@[simp] theorem State.setCore_mailboxes (s : State) (c : Nat) (k : Core) : (s.setCore c k).mailboxes = s.mailboxes := rfl
@[simp] theorem State.setCore_contexts (s : State) (c : Nat) (k : Core) : (s.setCore c k).contexts = s.contexts := rfl
@[simp] theorem State.setCore_lossQ (s : State) (c : Nat) (k : Core) : (s.setCore c k).lossQ = s.lossQ := rfl
@[simp] theorem State.setCore_repairs (s : State) (c : Nat) (k : Core) : (s.setCore c k).repairs = s.repairs := rfl
@[simp] theorem State.setCore_objs (s : State) (c : Nat) (k : Core) : (s.setCore c k).objs = s.objs := rfl
@[simp] theorem State.setCore_objTags (s : State) (c : Nat) (k : Core) : (s.setCore c k).objTags = s.objTags := rfl
@[simp] theorem State.setCore_leaves (s : State) (c : Nat) (k : Core) : (s.setCore c k).leaves = s.leaves := rfl
@[simp] theorem State.setCore_extents (s : State) (c : Nat) (k : Core) : (s.setCore c k).extents = s.extents := rfl
@[simp] theorem State.setCore_cursors (s : State) (c : Nat) (k : Core) : (s.setCore c k).cursors = s.cursors := rfl
@[simp] theorem State.setCore_queues (s : State) (c : Nat) (k : Core) : (s.setCore c k).queues = s.queues := rfl
@[simp] theorem State.setCore_queueTags (s : State) (c : Nat) (k : Core) : (s.setCore c k).queueTags = s.queueTags := rfl
@[simp] theorem State.setCore_stations (s : State) (c : Nat) (k : Core) : (s.setCore c k).stations = s.stations := rfl
@[simp] theorem State.setCore_stationTags (s : State) (c : Nat) (k : Core) : (s.setCore c k).stationTags = s.stationTags := rfl
@[simp] theorem State.setCore_insts (s : State) (c : Nat) (k : Core) : (s.setCore c k).insts = s.insts := rfl
@[simp] theorem State.setCore_notices (s : State) (c : Nat) (k : Core) : (s.setCore c k).notices = s.notices := rfl
@[simp] theorem State.setCore_noticeOut (s : State) (c : Nat) (k : Core) : (s.setCore c k).noticeOut = s.noticeOut := rfl
@[simp] theorem State.setCore_noticeTag (s : State) (c : Nat) (k : Core) : (s.setCore c k).noticeTag = s.noticeTag := rfl
@[simp] theorem State.setCore_noticeLost (s : State) (c : Nat) (k : Core) : (s.setCore c k).noticeLost = s.noticeLost := rfl
@[simp] theorem State.setCore_grace (s : State) (c : Nat) (k : Core) : (s.setCore c k).grace = s.grace := rfl
@[simp] theorem State.setCore_genNext (s : State) (c : Nat) (k : Core) : (s.setCore c k).genNext = s.genNext := rfl
@[simp] theorem State.setCore_genEnd (s : State) (c : Nat) (k : Core) : (s.setCore c k).genEnd = s.genEnd := rfl
@[simp] theorem State.setCore_lastGen (s : State) (c : Nat) (k : Core) : (s.setCore c k).lastGen = s.lastGen := rfl
@[simp] theorem State.setCore_mailOrder (s : State) (c : Nat) (k : Core) : (s.setCore c k).mailOrder = s.mailOrder := rfl
@[simp] theorem State.setCore_parts (s : State) (c : Nat) (k : Core) : (s.setCore c k).parts = s.parts := rfl
@[simp] theorem State.setCore_counters (s : State) (c : Nat) (k : Core) : (s.setCore c k).counters = s.counters := rfl
@[simp] theorem State.setCore_port (s : State) (c : Nat) (k : Core) : (s.setCore c k).port = s.port := rfl
@[simp] theorem State.setCore_flash (s : State) (c : Nat) (k : Core) : (s.setCore c k).flash = s.flash := rfl
@[simp] theorem State.setCore_reeve (s : State) (c : Nat) (k : Core) : (s.setCore c k).reeve = s.reeve := rfl
@[simp] theorem State.setCore_power (s : State) (c : Nat) (k : Core) : (s.setCore c k).power = s.power := rfl

@[simp] theorem State.setCtx_pending (s : State) (c : Nat) (k : Context) : (s.setCtx c k).pending = s.pending := rfl
@[simp] theorem State.setCtx_time (s : State) (c : Nat) (k : Context) : (s.setCtx c k).time = s.time := rfl
@[simp] theorem State.setCtx_timeMilli (s : State) (c : Nat) (k : Context) : (s.setCtx c k).timeMilli = s.timeMilli := rfl
@[simp] theorem State.setCtx_spare (s : State) (c : Nat) (k : Context) : (s.setCtx c k).spare = s.spare := rfl
@[simp] theorem State.setCtx_out (s : State) (c : Nat) (k : Context) : (s.setCtx c k).out = s.out := rfl
@[simp] theorem State.setCtx_orderC (s : State) (c : Nat) (k : Context) : (s.setCtx c k).orderC = s.orderC := rfl
@[simp] theorem State.setCtx_serial (s : State) (c : Nat) (k : Context) : (s.setCtx c k).serial = s.serial := rfl
@[simp] theorem State.setCtx_mac (s : State) (c : Nat) (k : Context) : (s.setCtx c k).mac = s.mac := rfl
@[simp] theorem State.setCtx_disabled (s : State) (c : Nat) (k : Context) : (s.setCtx c k).disabled = s.disabled := rfl
@[simp] theorem State.setCtx_failedCores (s : State) (c : Nat) (k : Context) : (s.setCtx c k).failedCores = s.failedCores := rfl
@[simp] theorem State.setCtx_retired (s : State) (c : Nat) (k : Context) : (s.setCtx c k).retired = s.retired := rfl
@[simp] theorem State.setCtx_capGen (s : State) (c : Nat) (k : Context) : (s.setCtx c k).capGen = s.capGen := rfl
@[simp] theorem State.setCtx_mem (s : State) (c : Nat) (k : Context) : (s.setCtx c k).mem = s.mem := rfl
@[simp] theorem State.setCtx_poison (s : State) (c : Nat) (k : Context) : (s.setCtx c k).poison = s.poison := rfl
@[simp] theorem State.setCtx_cores (s : State) (c : Nat) (k : Context) : (s.setCtx c k).cores = s.cores := rfl
@[simp] theorem State.setCtx_groups (s : State) (c : Nat) (k : Context) : (s.setCtx c k).groups = s.groups := rfl
@[simp] theorem State.setCtx_parked (s : State) (c : Nat) (k : Context) : (s.setCtx c k).parked = s.parked := rfl
@[simp] theorem State.setCtx_slices (s : State) (c : Nat) (k : Context) : (s.setCtx c k).slices = s.slices := rfl
@[simp] theorem State.setCtx_seals (s : State) (c : Nat) (k : Context) : (s.setCtx c k).seals = s.seals := rfl
@[simp] theorem State.setCtx_idle (s : State) (c : Nat) (k : Context) : (s.setCtx c k).idle = s.idle := rfl
@[simp] theorem State.setCtx_deadEps (s : State) (c : Nat) (k : Context) : (s.setCtx c k).deadEps = s.deadEps := rfl
@[simp] theorem State.setCtx_epochs (s : State) (c : Nat) (k : Context) : (s.setCtx c k).epochs = s.epochs := rfl
@[simp] theorem State.setCtx_epochQ (s : State) (c : Nat) (k : Context) : (s.setCtx c k).epochQ = s.epochQ := rfl
@[simp] theorem State.setCtx_hbmGroups (s : State) (c : Nat) (k : Context) : (s.setCtx c k).hbmGroups = s.hbmGroups := rfl
@[simp] theorem State.setCtx_cellarGroups (s : State) (c : Nat) (k : Context) : (s.setCtx c k).cellarGroups = s.cellarGroups := rfl
@[simp] theorem State.setCtx_excluded (s : State) (c : Nat) (k : Context) : (s.setCtx c k).excluded = s.excluded := rfl
@[simp] theorem State.setCtx_excludedDies (s : State) (c : Nat) (k : Context) : (s.setCtx c k).excludedDies = s.excludedDies := rfl
@[simp] theorem State.setCtx_tlb (s : State) (c : Nat) (k : Context) : (s.setCtx c k).tlb = s.tlb := rfl
@[simp] theorem State.setCtx_walkCache (s : State) (c : Nat) (k : Context) : (s.setCtx c k).walkCache = s.walkCache := rfl
@[simp] theorem State.setCtx_shoots (s : State) (c : Nat) (k : Context) : (s.setCtx c k).shoots = s.shoots := rfl
@[simp] theorem State.setCtx_nextShoot (s : State) (c : Nat) (k : Context) : (s.setCtx c k).nextShoot = s.nextShoot := rfl
@[simp] theorem State.setCtx_moves (s : State) (c : Nat) (k : Context) : (s.setCtx c k).moves = s.moves := rfl
@[simp] theorem State.setCtx_nextMove (s : State) (c : Nat) (k : Context) : (s.setCtx c k).nextMove = s.nextMove := rfl
@[simp] theorem State.setCtx_heat (s : State) (c : Nat) (k : Context) : (s.setCtx c k).heat = s.heat := rfl
@[simp] theorem State.setCtx_lastHeat (s : State) (c : Nat) (k : Context) : (s.setCtx c k).lastHeat = s.lastHeat := rfl
@[simp] theorem State.setCtx_cold (s : State) (c : Nat) (k : Context) : (s.setCtx c k).cold = s.cold := rfl
@[simp] theorem State.setCtx_demoted (s : State) (c : Nat) (k : Context) : (s.setCtx c k).demoted = s.demoted := rfl
@[simp] theorem State.setCtx_tiers (s : State) (c : Nat) (k : Context) : (s.setCtx c k).tiers = s.tiers := rfl
@[simp] theorem State.setCtx_regs (s : State) (c : Nat) (k : Context) : (s.setCtx c k).regs = s.regs := rfl
@[simp] theorem State.setCtx_refresh (s : State) (c : Nat) (k : Context) : (s.setCtx c k).refresh = s.refresh := rfl
@[simp] theorem State.setCtx_net (s : State) (c : Nat) (k : Context) : (s.setCtx c k).net = s.net := rfl
@[simp] theorem State.setCtx_dir (s : State) (c : Nat) (k : Context) : (s.setCtx c k).dir = s.dir := rfl
@[simp] theorem State.setCtx_dirClock (s : State) (c : Nat) (k : Context) : (s.setCtx c k).dirClock = s.dirClock := rfl
@[simp] theorem State.setCtx_tallies (s : State) (c : Nat) (k : Context) : (s.setCtx c k).tallies = s.tallies := rfl
@[simp] theorem State.setCtx_watches (s : State) (c : Nat) (k : Context) : (s.setCtx c k).watches = s.watches := rfl
@[simp] theorem State.setCtx_watchOrder (s : State) (c : Nat) (k : Context) : (s.setCtx c k).watchOrder = s.watchOrder := rfl
@[simp] theorem State.setCtx_bells (s : State) (c : Nat) (k : Context) : (s.setCtx c k).bells = s.bells := rfl
@[simp] theorem State.setCtx_mailboxes (s : State) (c : Nat) (k : Context) : (s.setCtx c k).mailboxes = s.mailboxes := rfl
@[simp] theorem State.setCtx_contexts (s : State) (c : Nat) (k : Context) : (s.setCtx c k).contexts = tput s.contexts c k := rfl
@[simp] theorem State.setCtx_lossQ (s : State) (c : Nat) (k : Context) : (s.setCtx c k).lossQ = s.lossQ := rfl
@[simp] theorem State.setCtx_repairs (s : State) (c : Nat) (k : Context) : (s.setCtx c k).repairs = s.repairs := rfl
@[simp] theorem State.setCtx_objs (s : State) (c : Nat) (k : Context) : (s.setCtx c k).objs = s.objs := rfl
@[simp] theorem State.setCtx_objTags (s : State) (c : Nat) (k : Context) : (s.setCtx c k).objTags = s.objTags := rfl
@[simp] theorem State.setCtx_leaves (s : State) (c : Nat) (k : Context) : (s.setCtx c k).leaves = s.leaves := rfl
@[simp] theorem State.setCtx_extents (s : State) (c : Nat) (k : Context) : (s.setCtx c k).extents = s.extents := rfl
@[simp] theorem State.setCtx_cursors (s : State) (c : Nat) (k : Context) : (s.setCtx c k).cursors = s.cursors := rfl
@[simp] theorem State.setCtx_queues (s : State) (c : Nat) (k : Context) : (s.setCtx c k).queues = s.queues := rfl
@[simp] theorem State.setCtx_queueTags (s : State) (c : Nat) (k : Context) : (s.setCtx c k).queueTags = s.queueTags := rfl
@[simp] theorem State.setCtx_stations (s : State) (c : Nat) (k : Context) : (s.setCtx c k).stations = s.stations := rfl
@[simp] theorem State.setCtx_stationTags (s : State) (c : Nat) (k : Context) : (s.setCtx c k).stationTags = s.stationTags := rfl
@[simp] theorem State.setCtx_insts (s : State) (c : Nat) (k : Context) : (s.setCtx c k).insts = s.insts := rfl
@[simp] theorem State.setCtx_notices (s : State) (c : Nat) (k : Context) : (s.setCtx c k).notices = s.notices := rfl
@[simp] theorem State.setCtx_noticeOut (s : State) (c : Nat) (k : Context) : (s.setCtx c k).noticeOut = s.noticeOut := rfl
@[simp] theorem State.setCtx_noticeTag (s : State) (c : Nat) (k : Context) : (s.setCtx c k).noticeTag = s.noticeTag := rfl
@[simp] theorem State.setCtx_noticeLost (s : State) (c : Nat) (k : Context) : (s.setCtx c k).noticeLost = s.noticeLost := rfl
@[simp] theorem State.setCtx_grace (s : State) (c : Nat) (k : Context) : (s.setCtx c k).grace = s.grace := rfl
@[simp] theorem State.setCtx_genNext (s : State) (c : Nat) (k : Context) : (s.setCtx c k).genNext = s.genNext := rfl
@[simp] theorem State.setCtx_genEnd (s : State) (c : Nat) (k : Context) : (s.setCtx c k).genEnd = s.genEnd := rfl
@[simp] theorem State.setCtx_lastGen (s : State) (c : Nat) (k : Context) : (s.setCtx c k).lastGen = s.lastGen := rfl
@[simp] theorem State.setCtx_mailOrder (s : State) (c : Nat) (k : Context) : (s.setCtx c k).mailOrder = s.mailOrder := rfl
@[simp] theorem State.setCtx_parts (s : State) (c : Nat) (k : Context) : (s.setCtx c k).parts = s.parts := rfl
@[simp] theorem State.setCtx_counters (s : State) (c : Nat) (k : Context) : (s.setCtx c k).counters = s.counters := rfl
@[simp] theorem State.setCtx_port (s : State) (c : Nat) (k : Context) : (s.setCtx c k).port = s.port := rfl
@[simp] theorem State.setCtx_flash (s : State) (c : Nat) (k : Context) : (s.setCtx c k).flash = s.flash := rfl
@[simp] theorem State.setCtx_reeve (s : State) (c : Nat) (k : Context) : (s.setCtx c k).reeve = s.reeve := rfl
@[simp] theorem State.setCtx_power (s : State) (c : Nat) (k : Context) : (s.setCtx c k).power = s.power := rfl

@[simp] theorem State.setTally_pending (s : State) (n : Nat) (k : Tally) : (s.setTally n k).pending = s.pending := rfl
@[simp] theorem State.setTally_time (s : State) (n : Nat) (k : Tally) : (s.setTally n k).time = s.time := rfl
@[simp] theorem State.setTally_timeMilli (s : State) (n : Nat) (k : Tally) : (s.setTally n k).timeMilli = s.timeMilli := rfl
@[simp] theorem State.setTally_spare (s : State) (n : Nat) (k : Tally) : (s.setTally n k).spare = s.spare := rfl
@[simp] theorem State.setTally_out (s : State) (n : Nat) (k : Tally) : (s.setTally n k).out = s.out := rfl
@[simp] theorem State.setTally_orderC (s : State) (n : Nat) (k : Tally) : (s.setTally n k).orderC = s.orderC := rfl
@[simp] theorem State.setTally_serial (s : State) (n : Nat) (k : Tally) : (s.setTally n k).serial = s.serial := rfl
@[simp] theorem State.setTally_mac (s : State) (n : Nat) (k : Tally) : (s.setTally n k).mac = s.mac := rfl
@[simp] theorem State.setTally_disabled (s : State) (n : Nat) (k : Tally) : (s.setTally n k).disabled = s.disabled := rfl
@[simp] theorem State.setTally_failedCores (s : State) (n : Nat) (k : Tally) : (s.setTally n k).failedCores = s.failedCores := rfl
@[simp] theorem State.setTally_retired (s : State) (n : Nat) (k : Tally) : (s.setTally n k).retired = s.retired := rfl
@[simp] theorem State.setTally_capGen (s : State) (n : Nat) (k : Tally) : (s.setTally n k).capGen = s.capGen := rfl
@[simp] theorem State.setTally_mem (s : State) (n : Nat) (k : Tally) : (s.setTally n k).mem = s.mem := rfl
@[simp] theorem State.setTally_poison (s : State) (n : Nat) (k : Tally) : (s.setTally n k).poison = s.poison := rfl
@[simp] theorem State.setTally_cores (s : State) (n : Nat) (k : Tally) : (s.setTally n k).cores = s.cores := rfl
@[simp] theorem State.setTally_groups (s : State) (n : Nat) (k : Tally) : (s.setTally n k).groups = s.groups := rfl
@[simp] theorem State.setTally_parked (s : State) (n : Nat) (k : Tally) : (s.setTally n k).parked = s.parked := rfl
@[simp] theorem State.setTally_slices (s : State) (n : Nat) (k : Tally) : (s.setTally n k).slices = s.slices := rfl
@[simp] theorem State.setTally_seals (s : State) (n : Nat) (k : Tally) : (s.setTally n k).seals = s.seals := rfl
@[simp] theorem State.setTally_idle (s : State) (n : Nat) (k : Tally) : (s.setTally n k).idle = s.idle := rfl
@[simp] theorem State.setTally_deadEps (s : State) (n : Nat) (k : Tally) : (s.setTally n k).deadEps = s.deadEps := rfl
@[simp] theorem State.setTally_epochs (s : State) (n : Nat) (k : Tally) : (s.setTally n k).epochs = s.epochs := rfl
@[simp] theorem State.setTally_epochQ (s : State) (n : Nat) (k : Tally) : (s.setTally n k).epochQ = s.epochQ := rfl
@[simp] theorem State.setTally_hbmGroups (s : State) (n : Nat) (k : Tally) : (s.setTally n k).hbmGroups = s.hbmGroups := rfl
@[simp] theorem State.setTally_cellarGroups (s : State) (n : Nat) (k : Tally) : (s.setTally n k).cellarGroups = s.cellarGroups := rfl
@[simp] theorem State.setTally_excluded (s : State) (n : Nat) (k : Tally) : (s.setTally n k).excluded = s.excluded := rfl
@[simp] theorem State.setTally_excludedDies (s : State) (n : Nat) (k : Tally) : (s.setTally n k).excludedDies = s.excludedDies := rfl
@[simp] theorem State.setTally_tlb (s : State) (n : Nat) (k : Tally) : (s.setTally n k).tlb = s.tlb := rfl
@[simp] theorem State.setTally_walkCache (s : State) (n : Nat) (k : Tally) : (s.setTally n k).walkCache = s.walkCache := rfl
@[simp] theorem State.setTally_shoots (s : State) (n : Nat) (k : Tally) : (s.setTally n k).shoots = s.shoots := rfl
@[simp] theorem State.setTally_nextShoot (s : State) (n : Nat) (k : Tally) : (s.setTally n k).nextShoot = s.nextShoot := rfl
@[simp] theorem State.setTally_moves (s : State) (n : Nat) (k : Tally) : (s.setTally n k).moves = s.moves := rfl
@[simp] theorem State.setTally_nextMove (s : State) (n : Nat) (k : Tally) : (s.setTally n k).nextMove = s.nextMove := rfl
@[simp] theorem State.setTally_heat (s : State) (n : Nat) (k : Tally) : (s.setTally n k).heat = s.heat := rfl
@[simp] theorem State.setTally_lastHeat (s : State) (n : Nat) (k : Tally) : (s.setTally n k).lastHeat = s.lastHeat := rfl
@[simp] theorem State.setTally_cold (s : State) (n : Nat) (k : Tally) : (s.setTally n k).cold = s.cold := rfl
@[simp] theorem State.setTally_demoted (s : State) (n : Nat) (k : Tally) : (s.setTally n k).demoted = s.demoted := rfl
@[simp] theorem State.setTally_tiers (s : State) (n : Nat) (k : Tally) : (s.setTally n k).tiers = s.tiers := rfl
@[simp] theorem State.setTally_regs (s : State) (n : Nat) (k : Tally) : (s.setTally n k).regs = s.regs := rfl
@[simp] theorem State.setTally_refresh (s : State) (n : Nat) (k : Tally) : (s.setTally n k).refresh = s.refresh := rfl
@[simp] theorem State.setTally_net (s : State) (n : Nat) (k : Tally) : (s.setTally n k).net = s.net := rfl
@[simp] theorem State.setTally_dir (s : State) (n : Nat) (k : Tally) : (s.setTally n k).dir = s.dir := rfl
@[simp] theorem State.setTally_dirClock (s : State) (n : Nat) (k : Tally) : (s.setTally n k).dirClock = s.dirClock := rfl
@[simp] theorem State.setTally_tallies (s : State) (n : Nat) (k : Tally) : (s.setTally n k).tallies = tset Tally.reset s.tallies n k := rfl
@[simp] theorem State.setTally_watches (s : State) (n : Nat) (k : Tally) : (s.setTally n k).watches = s.watches := rfl
@[simp] theorem State.setTally_watchOrder (s : State) (n : Nat) (k : Tally) : (s.setTally n k).watchOrder = s.watchOrder := rfl
@[simp] theorem State.setTally_bells (s : State) (n : Nat) (k : Tally) : (s.setTally n k).bells = s.bells := rfl
@[simp] theorem State.setTally_mailboxes (s : State) (n : Nat) (k : Tally) : (s.setTally n k).mailboxes = s.mailboxes := rfl
@[simp] theorem State.setTally_contexts (s : State) (n : Nat) (k : Tally) : (s.setTally n k).contexts = s.contexts := rfl
@[simp] theorem State.setTally_lossQ (s : State) (n : Nat) (k : Tally) : (s.setTally n k).lossQ = s.lossQ := rfl
@[simp] theorem State.setTally_repairs (s : State) (n : Nat) (k : Tally) : (s.setTally n k).repairs = s.repairs := rfl
@[simp] theorem State.setTally_objs (s : State) (n : Nat) (k : Tally) : (s.setTally n k).objs = s.objs := rfl
@[simp] theorem State.setTally_objTags (s : State) (n : Nat) (k : Tally) : (s.setTally n k).objTags = s.objTags := rfl
@[simp] theorem State.setTally_leaves (s : State) (n : Nat) (k : Tally) : (s.setTally n k).leaves = s.leaves := rfl
@[simp] theorem State.setTally_extents (s : State) (n : Nat) (k : Tally) : (s.setTally n k).extents = s.extents := rfl
@[simp] theorem State.setTally_cursors (s : State) (n : Nat) (k : Tally) : (s.setTally n k).cursors = s.cursors := rfl
@[simp] theorem State.setTally_queues (s : State) (n : Nat) (k : Tally) : (s.setTally n k).queues = s.queues := rfl
@[simp] theorem State.setTally_queueTags (s : State) (n : Nat) (k : Tally) : (s.setTally n k).queueTags = s.queueTags := rfl
@[simp] theorem State.setTally_stations (s : State) (n : Nat) (k : Tally) : (s.setTally n k).stations = s.stations := rfl
@[simp] theorem State.setTally_stationTags (s : State) (n : Nat) (k : Tally) : (s.setTally n k).stationTags = s.stationTags := rfl
@[simp] theorem State.setTally_insts (s : State) (n : Nat) (k : Tally) : (s.setTally n k).insts = s.insts := rfl
@[simp] theorem State.setTally_notices (s : State) (n : Nat) (k : Tally) : (s.setTally n k).notices = s.notices := rfl
@[simp] theorem State.setTally_noticeOut (s : State) (n : Nat) (k : Tally) : (s.setTally n k).noticeOut = s.noticeOut := rfl
@[simp] theorem State.setTally_noticeTag (s : State) (n : Nat) (k : Tally) : (s.setTally n k).noticeTag = s.noticeTag := rfl
@[simp] theorem State.setTally_noticeLost (s : State) (n : Nat) (k : Tally) : (s.setTally n k).noticeLost = s.noticeLost := rfl
@[simp] theorem State.setTally_grace (s : State) (n : Nat) (k : Tally) : (s.setTally n k).grace = s.grace := rfl
@[simp] theorem State.setTally_genNext (s : State) (n : Nat) (k : Tally) : (s.setTally n k).genNext = s.genNext := rfl
@[simp] theorem State.setTally_genEnd (s : State) (n : Nat) (k : Tally) : (s.setTally n k).genEnd = s.genEnd := rfl
@[simp] theorem State.setTally_lastGen (s : State) (n : Nat) (k : Tally) : (s.setTally n k).lastGen = s.lastGen := rfl
@[simp] theorem State.setTally_mailOrder (s : State) (n : Nat) (k : Tally) : (s.setTally n k).mailOrder = s.mailOrder := rfl
@[simp] theorem State.setTally_parts (s : State) (n : Nat) (k : Tally) : (s.setTally n k).parts = s.parts := rfl
@[simp] theorem State.setTally_counters (s : State) (n : Nat) (k : Tally) : (s.setTally n k).counters = s.counters := rfl
@[simp] theorem State.setTally_port (s : State) (n : Nat) (k : Tally) : (s.setTally n k).port = s.port := rfl
@[simp] theorem State.setTally_flash (s : State) (n : Nat) (k : Tally) : (s.setTally n k).flash = s.flash := rfl
@[simp] theorem State.setTally_reeve (s : State) (n : Nat) (k : Tally) : (s.setTally n k).reeve = s.reeve := rfl
@[simp] theorem State.setTally_power (s : State) (n : Nat) (k : Tally) : (s.setTally n k).power = s.power := rfl

@[simp] theorem State.emit_pending (s : State) (o : Out) : (s.emit o).pending = s.pending := rfl
@[simp] theorem State.emit_time (s : State) (o : Out) : (s.emit o).time = s.time := rfl
@[simp] theorem State.emit_timeMilli (s : State) (o : Out) : (s.emit o).timeMilli = s.timeMilli := rfl
@[simp] theorem State.emit_spare (s : State) (o : Out) : (s.emit o).spare = s.spare := rfl
@[simp] theorem State.emit_out (s : State) (o : Out) : (s.emit o).out = o :: s.out := rfl
@[simp] theorem State.emit_orderC (s : State) (o : Out) : (s.emit o).orderC = s.orderC := rfl
@[simp] theorem State.emit_serial (s : State) (o : Out) : (s.emit o).serial = s.serial := rfl
@[simp] theorem State.emit_mac (s : State) (o : Out) : (s.emit o).mac = s.mac := rfl
@[simp] theorem State.emit_disabled (s : State) (o : Out) : (s.emit o).disabled = s.disabled := rfl
@[simp] theorem State.emit_failedCores (s : State) (o : Out) : (s.emit o).failedCores = s.failedCores := rfl
@[simp] theorem State.emit_retired (s : State) (o : Out) : (s.emit o).retired = s.retired := rfl
@[simp] theorem State.emit_capGen (s : State) (o : Out) : (s.emit o).capGen = s.capGen := rfl
@[simp] theorem State.emit_mem (s : State) (o : Out) : (s.emit o).mem = s.mem := rfl
@[simp] theorem State.emit_poison (s : State) (o : Out) : (s.emit o).poison = s.poison := rfl
@[simp] theorem State.emit_cores (s : State) (o : Out) : (s.emit o).cores = s.cores := rfl
@[simp] theorem State.emit_groups (s : State) (o : Out) : (s.emit o).groups = s.groups := rfl
@[simp] theorem State.emit_parked (s : State) (o : Out) : (s.emit o).parked = s.parked := rfl
@[simp] theorem State.emit_slices (s : State) (o : Out) : (s.emit o).slices = s.slices := rfl
@[simp] theorem State.emit_seals (s : State) (o : Out) : (s.emit o).seals = s.seals := rfl
@[simp] theorem State.emit_idle (s : State) (o : Out) : (s.emit o).idle = s.idle := rfl
@[simp] theorem State.emit_deadEps (s : State) (o : Out) : (s.emit o).deadEps = s.deadEps := rfl
@[simp] theorem State.emit_epochs (s : State) (o : Out) : (s.emit o).epochs = s.epochs := rfl
@[simp] theorem State.emit_epochQ (s : State) (o : Out) : (s.emit o).epochQ = s.epochQ := rfl
@[simp] theorem State.emit_hbmGroups (s : State) (o : Out) : (s.emit o).hbmGroups = s.hbmGroups := rfl
@[simp] theorem State.emit_cellarGroups (s : State) (o : Out) : (s.emit o).cellarGroups = s.cellarGroups := rfl
@[simp] theorem State.emit_excluded (s : State) (o : Out) : (s.emit o).excluded = s.excluded := rfl
@[simp] theorem State.emit_excludedDies (s : State) (o : Out) : (s.emit o).excludedDies = s.excludedDies := rfl
@[simp] theorem State.emit_tlb (s : State) (o : Out) : (s.emit o).tlb = s.tlb := rfl
@[simp] theorem State.emit_walkCache (s : State) (o : Out) : (s.emit o).walkCache = s.walkCache := rfl
@[simp] theorem State.emit_shoots (s : State) (o : Out) : (s.emit o).shoots = s.shoots := rfl
@[simp] theorem State.emit_nextShoot (s : State) (o : Out) : (s.emit o).nextShoot = s.nextShoot := rfl
@[simp] theorem State.emit_moves (s : State) (o : Out) : (s.emit o).moves = s.moves := rfl
@[simp] theorem State.emit_nextMove (s : State) (o : Out) : (s.emit o).nextMove = s.nextMove := rfl
@[simp] theorem State.emit_heat (s : State) (o : Out) : (s.emit o).heat = s.heat := rfl
@[simp] theorem State.emit_lastHeat (s : State) (o : Out) : (s.emit o).lastHeat = s.lastHeat := rfl
@[simp] theorem State.emit_cold (s : State) (o : Out) : (s.emit o).cold = s.cold := rfl
@[simp] theorem State.emit_demoted (s : State) (o : Out) : (s.emit o).demoted = s.demoted := rfl
@[simp] theorem State.emit_tiers (s : State) (o : Out) : (s.emit o).tiers = s.tiers := rfl
@[simp] theorem State.emit_regs (s : State) (o : Out) : (s.emit o).regs = s.regs := rfl
@[simp] theorem State.emit_refresh (s : State) (o : Out) : (s.emit o).refresh = s.refresh := rfl
@[simp] theorem State.emit_net (s : State) (o : Out) : (s.emit o).net = s.net := rfl
@[simp] theorem State.emit_dir (s : State) (o : Out) : (s.emit o).dir = s.dir := rfl
@[simp] theorem State.emit_dirClock (s : State) (o : Out) : (s.emit o).dirClock = s.dirClock := rfl
@[simp] theorem State.emit_tallies (s : State) (o : Out) : (s.emit o).tallies = s.tallies := rfl
@[simp] theorem State.emit_watches (s : State) (o : Out) : (s.emit o).watches = s.watches := rfl
@[simp] theorem State.emit_watchOrder (s : State) (o : Out) : (s.emit o).watchOrder = s.watchOrder := rfl
@[simp] theorem State.emit_bells (s : State) (o : Out) : (s.emit o).bells = s.bells := rfl
@[simp] theorem State.emit_mailboxes (s : State) (o : Out) : (s.emit o).mailboxes = s.mailboxes := rfl
@[simp] theorem State.emit_contexts (s : State) (o : Out) : (s.emit o).contexts = s.contexts := rfl
@[simp] theorem State.emit_lossQ (s : State) (o : Out) : (s.emit o).lossQ = s.lossQ := rfl
@[simp] theorem State.emit_repairs (s : State) (o : Out) : (s.emit o).repairs = s.repairs := rfl
@[simp] theorem State.emit_objs (s : State) (o : Out) : (s.emit o).objs = s.objs := rfl
@[simp] theorem State.emit_objTags (s : State) (o : Out) : (s.emit o).objTags = s.objTags := rfl
@[simp] theorem State.emit_leaves (s : State) (o : Out) : (s.emit o).leaves = s.leaves := rfl
@[simp] theorem State.emit_extents (s : State) (o : Out) : (s.emit o).extents = s.extents := rfl
@[simp] theorem State.emit_cursors (s : State) (o : Out) : (s.emit o).cursors = s.cursors := rfl
@[simp] theorem State.emit_queues (s : State) (o : Out) : (s.emit o).queues = s.queues := rfl
@[simp] theorem State.emit_queueTags (s : State) (o : Out) : (s.emit o).queueTags = s.queueTags := rfl
@[simp] theorem State.emit_stations (s : State) (o : Out) : (s.emit o).stations = s.stations := rfl
@[simp] theorem State.emit_stationTags (s : State) (o : Out) : (s.emit o).stationTags = s.stationTags := rfl
@[simp] theorem State.emit_insts (s : State) (o : Out) : (s.emit o).insts = s.insts := rfl
@[simp] theorem State.emit_notices (s : State) (o : Out) : (s.emit o).notices = s.notices := rfl
@[simp] theorem State.emit_noticeOut (s : State) (o : Out) : (s.emit o).noticeOut = s.noticeOut := rfl
@[simp] theorem State.emit_noticeTag (s : State) (o : Out) : (s.emit o).noticeTag = s.noticeTag := rfl
@[simp] theorem State.emit_noticeLost (s : State) (o : Out) : (s.emit o).noticeLost = s.noticeLost := rfl
@[simp] theorem State.emit_grace (s : State) (o : Out) : (s.emit o).grace = s.grace := rfl
@[simp] theorem State.emit_genNext (s : State) (o : Out) : (s.emit o).genNext = s.genNext := rfl
@[simp] theorem State.emit_genEnd (s : State) (o : Out) : (s.emit o).genEnd = s.genEnd := rfl
@[simp] theorem State.emit_lastGen (s : State) (o : Out) : (s.emit o).lastGen = s.lastGen := rfl
@[simp] theorem State.emit_mailOrder (s : State) (o : Out) : (s.emit o).mailOrder = s.mailOrder := rfl
@[simp] theorem State.emit_parts (s : State) (o : Out) : (s.emit o).parts = s.parts := rfl
@[simp] theorem State.emit_counters (s : State) (o : Out) : (s.emit o).counters = s.counters := rfl
@[simp] theorem State.emit_port (s : State) (o : Out) : (s.emit o).port = s.port := rfl
@[simp] theorem State.emit_flash (s : State) (o : Out) : (s.emit o).flash = s.flash := rfl
@[simp] theorem State.emit_reeve (s : State) (o : Out) : (s.emit o).reeve = s.reeve := rfl
@[simp] theorem State.emit_power (s : State) (o : Out) : (s.emit o).power = s.power := rfl

@[simp] theorem State.withPending_pending (s : State) (q : List Instr) : (s.withPending q).pending = q := rfl
@[simp] theorem State.withPending_time (s : State) (q : List Instr) : (s.withPending q).time = s.time := rfl
@[simp] theorem State.withPending_timeMilli (s : State) (q : List Instr) : (s.withPending q).timeMilli = s.timeMilli := rfl
@[simp] theorem State.withPending_spare (s : State) (q : List Instr) : (s.withPending q).spare = s.spare := rfl
@[simp] theorem State.withPending_out (s : State) (q : List Instr) : (s.withPending q).out = s.out := rfl
@[simp] theorem State.withPending_orderC (s : State) (q : List Instr) : (s.withPending q).orderC = s.orderC := rfl
@[simp] theorem State.withPending_serial (s : State) (q : List Instr) : (s.withPending q).serial = s.serial := rfl
@[simp] theorem State.withPending_mac (s : State) (q : List Instr) : (s.withPending q).mac = s.mac := rfl
@[simp] theorem State.withPending_disabled (s : State) (q : List Instr) : (s.withPending q).disabled = s.disabled := rfl
@[simp] theorem State.withPending_failedCores (s : State) (q : List Instr) : (s.withPending q).failedCores = s.failedCores := rfl
@[simp] theorem State.withPending_retired (s : State) (q : List Instr) : (s.withPending q).retired = s.retired := rfl
@[simp] theorem State.withPending_capGen (s : State) (q : List Instr) : (s.withPending q).capGen = s.capGen := rfl
@[simp] theorem State.withPending_mem (s : State) (q : List Instr) : (s.withPending q).mem = s.mem := rfl
@[simp] theorem State.withPending_poison (s : State) (q : List Instr) : (s.withPending q).poison = s.poison := rfl
@[simp] theorem State.withPending_cores (s : State) (q : List Instr) : (s.withPending q).cores = s.cores := rfl
@[simp] theorem State.withPending_groups (s : State) (q : List Instr) : (s.withPending q).groups = s.groups := rfl
@[simp] theorem State.withPending_parked (s : State) (q : List Instr) : (s.withPending q).parked = s.parked := rfl
@[simp] theorem State.withPending_slices (s : State) (q : List Instr) : (s.withPending q).slices = s.slices := rfl
@[simp] theorem State.withPending_seals (s : State) (q : List Instr) : (s.withPending q).seals = s.seals := rfl
@[simp] theorem State.withPending_idle (s : State) (q : List Instr) : (s.withPending q).idle = s.idle := rfl
@[simp] theorem State.withPending_deadEps (s : State) (q : List Instr) : (s.withPending q).deadEps = s.deadEps := rfl
@[simp] theorem State.withPending_epochs (s : State) (q : List Instr) : (s.withPending q).epochs = s.epochs := rfl
@[simp] theorem State.withPending_epochQ (s : State) (q : List Instr) : (s.withPending q).epochQ = s.epochQ := rfl
@[simp] theorem State.withPending_hbmGroups (s : State) (q : List Instr) : (s.withPending q).hbmGroups = s.hbmGroups := rfl
@[simp] theorem State.withPending_cellarGroups (s : State) (q : List Instr) : (s.withPending q).cellarGroups = s.cellarGroups := rfl
@[simp] theorem State.withPending_excluded (s : State) (q : List Instr) : (s.withPending q).excluded = s.excluded := rfl
@[simp] theorem State.withPending_excludedDies (s : State) (q : List Instr) : (s.withPending q).excludedDies = s.excludedDies := rfl
@[simp] theorem State.withPending_tlb (s : State) (q : List Instr) : (s.withPending q).tlb = s.tlb := rfl
@[simp] theorem State.withPending_walkCache (s : State) (q : List Instr) : (s.withPending q).walkCache = s.walkCache := rfl
@[simp] theorem State.withPending_shoots (s : State) (q : List Instr) : (s.withPending q).shoots = s.shoots := rfl
@[simp] theorem State.withPending_nextShoot (s : State) (q : List Instr) : (s.withPending q).nextShoot = s.nextShoot := rfl
@[simp] theorem State.withPending_moves (s : State) (q : List Instr) : (s.withPending q).moves = s.moves := rfl
@[simp] theorem State.withPending_nextMove (s : State) (q : List Instr) : (s.withPending q).nextMove = s.nextMove := rfl
@[simp] theorem State.withPending_heat (s : State) (q : List Instr) : (s.withPending q).heat = s.heat := rfl
@[simp] theorem State.withPending_lastHeat (s : State) (q : List Instr) : (s.withPending q).lastHeat = s.lastHeat := rfl
@[simp] theorem State.withPending_cold (s : State) (q : List Instr) : (s.withPending q).cold = s.cold := rfl
@[simp] theorem State.withPending_demoted (s : State) (q : List Instr) : (s.withPending q).demoted = s.demoted := rfl
@[simp] theorem State.withPending_tiers (s : State) (q : List Instr) : (s.withPending q).tiers = s.tiers := rfl
@[simp] theorem State.withPending_regs (s : State) (q : List Instr) : (s.withPending q).regs = s.regs := rfl
@[simp] theorem State.withPending_refresh (s : State) (q : List Instr) : (s.withPending q).refresh = s.refresh := rfl
@[simp] theorem State.withPending_net (s : State) (q : List Instr) : (s.withPending q).net = s.net := rfl
@[simp] theorem State.withPending_dir (s : State) (q : List Instr) : (s.withPending q).dir = s.dir := rfl
@[simp] theorem State.withPending_dirClock (s : State) (q : List Instr) : (s.withPending q).dirClock = s.dirClock := rfl
@[simp] theorem State.withPending_tallies (s : State) (q : List Instr) : (s.withPending q).tallies = s.tallies := rfl
@[simp] theorem State.withPending_watches (s : State) (q : List Instr) : (s.withPending q).watches = s.watches := rfl
@[simp] theorem State.withPending_watchOrder (s : State) (q : List Instr) : (s.withPending q).watchOrder = s.watchOrder := rfl
@[simp] theorem State.withPending_bells (s : State) (q : List Instr) : (s.withPending q).bells = s.bells := rfl
@[simp] theorem State.withPending_mailboxes (s : State) (q : List Instr) : (s.withPending q).mailboxes = s.mailboxes := rfl
@[simp] theorem State.withPending_contexts (s : State) (q : List Instr) : (s.withPending q).contexts = s.contexts := rfl
@[simp] theorem State.withPending_lossQ (s : State) (q : List Instr) : (s.withPending q).lossQ = s.lossQ := rfl
@[simp] theorem State.withPending_repairs (s : State) (q : List Instr) : (s.withPending q).repairs = s.repairs := rfl
@[simp] theorem State.withPending_objs (s : State) (q : List Instr) : (s.withPending q).objs = s.objs := rfl
@[simp] theorem State.withPending_objTags (s : State) (q : List Instr) : (s.withPending q).objTags = s.objTags := rfl
@[simp] theorem State.withPending_leaves (s : State) (q : List Instr) : (s.withPending q).leaves = s.leaves := rfl
@[simp] theorem State.withPending_extents (s : State) (q : List Instr) : (s.withPending q).extents = s.extents := rfl
@[simp] theorem State.withPending_cursors (s : State) (q : List Instr) : (s.withPending q).cursors = s.cursors := rfl
@[simp] theorem State.withPending_queues (s : State) (q : List Instr) : (s.withPending q).queues = s.queues := rfl
@[simp] theorem State.withPending_queueTags (s : State) (q : List Instr) : (s.withPending q).queueTags = s.queueTags := rfl
@[simp] theorem State.withPending_stations (s : State) (q : List Instr) : (s.withPending q).stations = s.stations := rfl
@[simp] theorem State.withPending_stationTags (s : State) (q : List Instr) : (s.withPending q).stationTags = s.stationTags := rfl
@[simp] theorem State.withPending_insts (s : State) (q : List Instr) : (s.withPending q).insts = s.insts := rfl
@[simp] theorem State.withPending_notices (s : State) (q : List Instr) : (s.withPending q).notices = s.notices := rfl
@[simp] theorem State.withPending_noticeOut (s : State) (q : List Instr) : (s.withPending q).noticeOut = s.noticeOut := rfl
@[simp] theorem State.withPending_noticeTag (s : State) (q : List Instr) : (s.withPending q).noticeTag = s.noticeTag := rfl
@[simp] theorem State.withPending_noticeLost (s : State) (q : List Instr) : (s.withPending q).noticeLost = s.noticeLost := rfl
@[simp] theorem State.withPending_grace (s : State) (q : List Instr) : (s.withPending q).grace = s.grace := rfl
@[simp] theorem State.withPending_genNext (s : State) (q : List Instr) : (s.withPending q).genNext = s.genNext := rfl
@[simp] theorem State.withPending_genEnd (s : State) (q : List Instr) : (s.withPending q).genEnd = s.genEnd := rfl
@[simp] theorem State.withPending_lastGen (s : State) (q : List Instr) : (s.withPending q).lastGen = s.lastGen := rfl
@[simp] theorem State.withPending_mailOrder (s : State) (q : List Instr) : (s.withPending q).mailOrder = s.mailOrder := rfl
@[simp] theorem State.withPending_parts (s : State) (q : List Instr) : (s.withPending q).parts = s.parts := rfl
@[simp] theorem State.withPending_counters (s : State) (q : List Instr) : (s.withPending q).counters = s.counters := rfl
@[simp] theorem State.withPending_port (s : State) (q : List Instr) : (s.withPending q).port = s.port := rfl
@[simp] theorem State.withPending_flash (s : State) (q : List Instr) : (s.withPending q).flash = s.flash := rfl
@[simp] theorem State.withPending_reeve (s : State) (q : List Instr) : (s.withPending q).reeve = s.reeve := rfl
@[simp] theorem State.withPending_power (s : State) (q : List Instr) : (s.withPending q).power = s.power := rfl

/-! ## Reading back -/

@[simp] theorem State.group?_setGroup (s : State) (g : Grp) (k : Group) : (s.setGroup g k).group? g = some k :=
  tfind_tput_self _ _ _

theorem State.group?_setGroup_other (s : State) {g g' : Grp} (k : Group) (h : gkey g' ≠ gkey g) :
    (s.setGroup g k).group? g' = s.group? g' := tfind_tput_other _ _ h

@[simp] theorem State.setGroup_setGroup (s : State) (g : Grp) (k k' : Group) :
    (s.setGroup g k).setGroup g k' = s.setGroup g k' := by
  simp [State.setGroup, tput_tput]

theorem State.modGroup_some {s : State} {g : Grp} {k : Group} (f : Group → Group) (h : s.group? g = some k) :
    s.modGroup g f = s.setGroup g (f k) := by simp [State.modGroup, h]

@[simp] theorem State.modGroup_setGroup (s : State) (g : Grp) (k : Group) (f : Group → Group) :
    (s.setGroup g k).modGroup g f = s.setGroup g (f k) := by
  rw [State.modGroup_some f (State.group?_setGroup s g k), State.setGroup_setGroup]

@[simp] theorem State.core_setCore (s : State) (c : Nat) (k : Core) : (s.setCore c k).core c = k :=
  tget_tset_self _ _ _ _

theorem State.core_setCore_other (s : State) {c c' : Nat} (k : Core) (h : c' ≠ c) :
    (s.setCore c k).core c' = s.core c' := tget_tset_other _ _ _ h

@[simp] theorem State.ctx?_setCtx (s : State) (c : Nat) (k : Context) : (s.setCtx c k).ctx? c = some k :=
  tfind_tput_self _ _ _

@[simp] theorem State.tally_setTally (s : State) (n : Nat) (t : Tally) : (s.setTally n t).tally n = t :=
  tget_tset_self _ _ _ _

theorem State.tally_setTally_other (s : State) {n m : Nat} (t : Tally) (h : m ≠ n) :
    (s.setTally n t).tally m = s.tally m := tget_tset_other _ _ _ h

@[simp] theorem State.core_setGroup (s : State) (g : Grp) (k : Group) (c : Nat) : (s.setGroup g k).core c = s.core c := rfl

/-! ## Registers of a group (R53) -/

@[simp] theorem Group.s_setS (k : Group) (r : Nat) (v : W64) : (k.setS r v).s r = v := tget_tset_self _ _ _ _

theorem Group.s_setS_other (k : Group) {r n : Nat} (v : W64) (h : n ≠ r) : (k.setS r v).s n = k.s n :=
  tget_tset_other _ _ _ h

@[simp] theorem Group.v_setV (k : Group) (r : Nat) (x : Line) : (k.setV r x).v r = x := tget_tset_self _ _ _ _

theorem Group.v_setV_other (k : Group) {r n : Nat} (x : Line) (h : n ≠ r) : (k.setV r x).v n = k.v n :=
  tget_tset_other _ _ _ h

/-- p0 reads as true whatever is written to it. -/
@[simp] theorem Group.pred_zero (k : Group) : k.pred 0 = allOnes32 := rfl

@[simp] theorem Group.setPred_zero (k : Group) (m : W32) : k.setPred 0 m = k := rfl

theorem Group.pred_setPred (k : Group) {i : Nat} (m : W32) (h : i ≠ 0) : (k.setPred i m).pred i = m := by
  simp [Group.setPred, Group.pred, h, tget_tset_self]

/-- ZERO as a destination discards (R84). -/
@[simp] theorem Group.putS_zero (k : Group) (x : W64) : k.putS opZero x = k := rfl

end Sys2Proof.Machine
end

