-- ==== Sys2Proof/Laws/Translate.lean ====
section
/-! SUPPORT. What a translation, a fetch and the checks of an access's lanes can change. -/

namespace Sys2Proof.Machine

theorem SameSlices.refl (a : Table Slice) : SameSlices a a := fun _ => ⟨_, _, rfl⟩

theorem SameSlices.trans {a b c : Table Slice} (h : SameSlices a b) (h' : SameSlices b c) : SameSlices a c := fun n => by
  obtain ⟨_, _, e⟩ := h n
  obtain ⟨x, y, e'⟩ := h' n
  exact ⟨x, y, by rw [e', e]⟩

/-- A slice whose lines and fills change is the only one that changes. -/
theorem SameSlices.set (a : Table Slice) (h : Nat) (lines : List CLine) (fills : List Fill) :
    SameSlices a (tset Slice.reset a h { tget Slice.reset a h with lines := lines, fills := fills }) := fun n => by
  by_cases e : n = h
  · subst e; exact ⟨lines, fills, tget_tset_self _ _ _ _⟩
  · exact ⟨_, _, tget_tset_other _ _ _ e⟩

theorem OnlyTranslated.refl (s : State) : OnlyTranslated s s := ⟨_, _, _, _, _, _, _, _, _, _, _, rfl, .refl _⟩

theorem OnlyTranslated.trans {a b c : State} (h : OnlyTranslated a b) (h' : OnlyTranslated b c) : OnlyTranslated a c := by
  obtain ⟨_, _, _, _, _, _, _, _, _, _, _, rfl, e⟩ := h
  obtain ⟨_, _, _, _, _, _, _, _, _, _, _, rfl, e'⟩ := h'
  exact ⟨_, _, _, _, _, _, _, _, _, _, _, rfl, e.trans e'⟩

/-- A record in the event log changes nothing but the log. -/
theorem logEvent_only (s : State) (r : EventRec) : OnlyTranslated s (logEvent s r) := by
  unfold logEvent
  extract_lets merge
  clear_value merge
  cases merge with
  | some p => exact ⟨s.spare, s.tlb, s.walkCache, s.slices, s.heat, s.counters, s.regs, _, _, _, _, rfl, .refl _⟩
  | none => exact ⟨s.spare, s.tlb, s.walkCache, s.slices, s.heat, s.counters, s.regs, _, _, _, _, rfl, .refl _⟩

/-- Counting changes the counters and, on a wrap, the log. -/
theorem countUp_only (s : State) (kind unit num n : Nat) : OnlyTranslated s (countUp s kind unit num n) := by
  unfold countUp
  extract_lets k c v c1 s1
  have h : OnlyTranslated s s1 := ⟨_, _, _, _, _, _, _, _, _, _, _, rfl, .refl _⟩
  split
  · exact h.trans (logEvent_only ..)
  · exact h

/-! ## What reading a table entry leaves in its home slice (R282) -/

theorem setLines_only (s : State) (h : Nat) (lines : List CLine) (fills : List Fill) :
    OnlyTranslated s (s.setSlice h { s.slice h with lines := lines, fills := fills }) :=
  ⟨_, _, _, _, _, _, _, _, _, _, _, rfl, .set _ h lines fills⟩

theorem chargePart_only (s : State) (part pa n : Nat) : OnlyTranslated s (chargePart s part pa n) := by
  unfold chargePart
  split
  · exact ⟨_, _, _, _, _, _, _, _, _, _, _, rfl, .refl _⟩
  · exact .refl s

theorem charge_only (s : State) (core pa n : Nat) : OnlyTranslated s (charge s core pa n) := by
  unfold charge
  split
  · exact chargePart_only ..
  · split
    · exact chargePart_only ..
    · exact .refl s

theorem addHeat_only (s : State) (h pa : Nat) : OnlyTranslated s (addHeat s h pa) := by
  unfold addHeat
  split
  · exact .refl s
  · exact ⟨_, _, _, _, _, _, _, _, _, _, _, rfl, .refl _⟩

theorem touchLine_only (s : State) (h l : Nat) (dirty : Bool) : OnlyTranslated s (touchLine s h l dirty) := by
  unfold touchLine
  dsimp only
  split
  · exact setLines_only s h _ (s.slice h).fills
  · exact .refl s

theorem dropLine_only (s : State) (h l : Nat) : OnlyTranslated s (dropLine s h l) := by
  unfold dropLine
  extract_lets sl s1
  have e : OnlyTranslated s s1 := setLines_only s h _ (s.slice h).fills
  split
  · exact e.trans (charge_only ..)
  · exact e

theorem startFill_only (s : State) (h l : Nat) (way : Nat × Option CLine) (first : Nat) (joined : List Joined) (dirty : Bool) :
    OnlyTranslated s (startFill s h l way first joined dirty) := by
  unfold startFill
  extract_lets sl f lines s1
  have e : OnlyTranslated s s1 :=
    ((setLines_only s h lines (sl.fills ++ [f])).trans (countUp_only ..)).trans (addHeat_only ..)
  split
  · exact e.trans (countUp_only ..)
  · exact e

/-- A read of a page-table entry meets its home slice as a read of class WALK. -/
theorem homeRead_walk_only (s : State) (core attr pa : Nat) : OnlyTranslated s (homeRead s .walk core attr pa) := by
  have m : ∀ u l, missNotice u .walk core l = u := fun u l => by simp [missNotice]
  unfold homeRead
  extract_lets h l sl far
  have e : ∀ u, OnlyTranslated s (far u) := by
    intro u
    show OnlyTranslated s (match sl.hit l with
      | some _ => _
      | none => _)
    split
    · split
      · exact dropLine_only ..
      · exact (touchLine_only ..).trans (countUp_only ..)
    · split
      · split
        · exact .refl s
        · rw [m]; exact .refl s
      · split
        · rw [m]; exact (startFill_only ..).trans (charge_only ..)
        · exact (addHeat_only ..).trans (charge_only ..)
  split
  · exact e ()
  · exact e ()
  · exact .refl s

theorem walkInstall_only (s : State) (e : WalkEntry) : OnlyTranslated s (walkInstall s e) := by
  unfold walkInstall
  dsimp only
  split
  · exact ⟨_, _, _, _, _, _, _, _, _, _, _, rfl, .refl _⟩
  · split <;> exact ⟨_, _, _, _, _, _, _, _, _, _, _, rfl, .refl _⟩

theorem walkerFrom_only (s : State) (hall ctx v : Nat) (levels : List Nat) (table : Nat) :
    OnlyTranslated s (walkerFrom s hall ctx v levels table).1 := by
  induction levels generalizing s table with
  | nil => exact .refl s
  | cons level rest ih =>
    unfold walkerFrom
    split
    · exact ih ..
    · extract_lets pa u e x
      have hu : OnlyTranslated s u := homeRead_walk_only ..
      split
      · exact .refl s
      split
      · exact hu
      split
      · exact hu
      split
      · exact hu
      split
      · exact hu
      · exact hu.trans ((walkInstall_only ..).trans (ih ..))

theorem walker_only (s : State) (st : TlbStruct) (ctx v : Nat) : OnlyTranslated s (walker s st ctx v).1 := by
  unfold walker
  split
  · exact .refl s
  · split
    · exact .refl s
    · exact walkerFrom_only ..

theorem tlbInstall_only (s : State) (st : TlbStruct) (fetch : Bool) (e : TlbEntry) : OnlyTranslated s (tlbInstall s st fetch e) := by
  unfold tlbInstall
  dsimp only
  split
  · exact ⟨_, _, _, _, _, _, _, _, _, _, _, rfl, .refl _⟩
  · split <;> exact ⟨_, _, _, _, _, _, _, _, _, _, _, rfl, .refl _⟩

theorem tlbFill_only (s : State) (st : TlbStruct) (fetch : Bool) (c v level : Nat) (e : W64) :
    OnlyTranslated s (tlbFill s st fetch c v level e) := by
  unfold tlbFill
  dsimp only
  split
  · exact .refl s
  · split
    · exact tlbInstall_only ..
    · exact (tlbInstall_only ..).trans (tlbInstall_only ..)
  · exact tlbInstall_only ..

/-- What a translation can change. -/
theorem translate_only (s : State) (st : TlbStruct) (fetch : Bool) (c v : Nat) (need : Need) :
    OnlyTranslated s (translate s st fetch c v need).1 := by
  unfold translate
  have hw := walker_only s st c v
  extract_lets check
  have hc : ∀ (u : State) (level : Nat) (e : W64), (check u level e).1 = u := fun u level e => by
    show (if permitted need e then (u, Tr.ok (leafAddr level v e) e) else (u, Tr.fault 0x0402)).1 = u
    split <;> rfl
  clear_value check
  split
  · exact .refl s
  split
  · rw [hc]; exact .refl s
  dsimp only
  split
  · split
    · exact hw
    · rw [hc]; exact hw.trans (tlbFill_only ..)
  · exact hw
  · exact hw.trans (logEvent_only ..)
  · exact hw
  · exact hw

theorem fetch_only (s : State) (g : Grp) (k : Group) (n : Nat) : OnlyTranslated s (fetch s g k n).1 := by
  unfold fetch
  dsimp only
  have h := translate_only s (.core g.core) true k.ctx k.pc.toNat .x
  split
  · exact h
  · exact h
  · split
    · exact h
    · split <;> exact h

theorem laneAccess_only (s : State) (g : Grp) (k : Group) (need : Need) (n : Nat) (attr : W64 → Nat → Bool) (i v : Nat) :
    OnlyTranslated s (laneAccess s g k need n attr i v).1 := by
  unfold laneAccess
  split
  · exact .refl s
  have h := translate_only s (.core g.core) false k.ctx v need
  split
  · next heq => rw [heq] at h; exact h
  · next heq => rw [heq] at h; exact h
  · next heq =>
    rw [heq] at h
    split
    · exact h
    · split <;> exact h

theorem lanesAccess_only (s : State) (g : Grp) (k : Group) (need : Need) (n : Nat) (attr : W64 → Nat → Bool)
    (as : List (Nat × Nat)) : OnlyTranslated s (lanesAccess s g k need n attr as).1 := by
  unfold lanesAccess
  have h : ∀ (as : List (Nat × Nat)) (acc : State × List Lane), OnlyTranslated s acc.1 →
      OnlyTranslated s (as.foldl (fun (acc : State × List Lane) a =>
        ((laneAccess acc.1 g k need n attr a.1 a.2).1, acc.2 ++ [(laneAccess acc.1 g k need n attr a.1 a.2).2])) acc).1 := by
    intro as
    induction as with
    | nil => exact fun _ h => h
    | cons a t ih => exact fun acc h => ih _ (h.trans (laneAccess_only ..))
  exact h as (s, []) (.refl s)

/-- Nothing but translation: groups, cores and memory stand. -/
theorem OnlyTranslated.groups {s t : State} (h : OnlyTranslated s t) : t.groups = s.groups := by
  obtain ⟨_, _, _, _, _, _, _, _, _, _, _, rfl, -⟩ := h; rfl
theorem OnlyTranslated.cores {s t : State} (h : OnlyTranslated s t) : t.cores = s.cores := by
  obtain ⟨_, _, _, _, _, _, _, _, _, _, _, rfl, -⟩ := h; rfl
theorem OnlyTranslated.mem {s t : State} (h : OnlyTranslated s t) : t.mem = s.mem := by
  obtain ⟨_, _, _, _, _, _, _, _, _, _, _, rfl, -⟩ := h; rfl
theorem OnlyTranslated.group? {s t : State} (h : OnlyTranslated s t) (g : Grp) : t.group? g = s.group? g := by
  unfold State.group?; rw [h.groups]

end Sys2Proof.Machine
end

