-- ==== Sys2Proof/Laws/Homes.lean ====
section
/-! SUPPORT. Every byte of a line has the same home slice (R232), and what a write leaves in it. -/

namespace Sys2Proof.Machine

/-- What the home slice depends on, of the place of an address. -/
def placeKey : Place → Nat × Nat
  | .hbm g _ => (0, g)
  | .cellar g _ _ => (1, g)
  | .bin h _ => (2, h)
  | _ => (3, 0)

theorem placeKey_line (c : Bool) (pa : Nat) : placeKey (placeOf c (128 * lineNo pa)) = placeKey (placeOf c pa) := by
  have hm : 128 * lineNo pa = pa - pa % 128 := by unfold lineNo; omega
  rw [hm]
  have e : ∀ n, n % 128 = 0 → (pa - pa % 128 < n ↔ pa < n) := fun n h => by omega
  have e' : ∀ n, n % 128 = 0 → (n ≤ pa - pa % 128 ↔ n ≤ pa) := fun n h => by omega
  unfold placeOf
  cases c <;>
  · simp only [Bool.and_eq_true, decide_eq_true_eq, e _ (by decide : 0x0120_0000_0000 % 128 = 0),
      e _ (by decide : 0x0580_0000_0000 % 128 = 0), e _ (by decide : 0x0700_0000_0000 % 128 = 0),
      e _ (by decide : 0x0803_0000_0000 % 128 = 0), e _ (by decide : 0x0C00_0100_0000 % 128 = 0),
      e _ (by decide : 0x0C00_2000_0000 % 128 = 0), e _ (by decide : 0x0C00_3000_0000 % 128 = 0),
      e _ (by decide : 0x0C00_3009_0000 % 128 = 0), e' _ (by decide : 0x0400_0000_0000 % 128 = 0),
      e' _ (by decide : 0x0800_0000_0000 % 128 = 0), e' _ (by decide : 0x0C00_0000_0000 % 128 = 0),
      e' _ (by decide : 0x0C00_1000_0000 % 128 = 0), e' _ (by decide : 0x0C00_2000_0000 % 128 = 0),
      e' _ (by decide : 0x0C00_3000_0000 % 128 = 0), if_true, Bool.false_eq_true, if_false]
    split_ifs <;> simp only [placeKey, Prod.mk.injEq, true_and] <;> omega

/-- The home slice of a byte is that of its line. -/
theorem homeOf_line (s : State) (pa : Nat) : s.homeOf (128 * lineNo pa) = s.homeOf pa := by
  have hl : lineNo (128 * lineNo pa) = lineNo pa := by unfold lineNo; omega
  have hk := placeKey_line s.orderC pa
  unfold State.homeOf State.placeOf
  dsimp only
  rw [hl]
  generalize placeOf s.orderC (128 * lineNo pa) = p at hk ⊢
  generalize placeOf s.orderC pa = q at hk ⊢
  cases p <;> cases q <;> simp_all [placeKey]

/-! ## What a write leaves in its home slice (*Table 9-4*) -/

theorem installWhole_only (s : State) (h l : Nat) (way : Nat × Option CLine) (dirty : Bool) :
    OnlyTranslated s (installWhole s h l way dirty) := by
  unfold installWhole
  dsimp only
  split
  · exact (setLines_only s h (s.slice h).lines _).trans (countUp_only ..)
  · exact setLines_only s h _ (s.slice h).fills

theorem writeMiss_only (s : State) (cls : RClass) (attr pa n : Nat) : OnlyTranslated s (writeMiss s cls attr pa n) := by
  unfold writeMiss
  extract_lets h l sl wb s1
  split
  · exact charge_only ..
  split
  · exact setLines_only s h sl.lines _
  split
  · exact charge_only ..
  · have h1 : OnlyTranslated s s1 := by
      show OnlyTranslated s (if wb then s else charge s 0 pa n)
      split
      · exact .refl s
      · exact charge_only ..
    split
    · exact h1.trans (installWhole_only ..)
    · exact h1.trans ((startFill_only ..).trans (charge_only ..))

/-- A write changes the lines and fills of its home slice, the heat table, the counters, the regulators and the log. -/
theorem homeWrite_only (s : State) (cls : RClass) (attr pa n : Nat) : OnlyTranslated s (homeWrite s cls attr pa n) := by
  unfold homeWrite
  extract_lets h l wb s1 far
  have e : OnlyTranslated s (far ()) := by
    show OnlyTranslated s (match (s.slice h).hit l with
      | some _ => _
      | none => _)
    split
    · split
      · exact (dropLine_only ..).trans (charge_only ..)
      split
      · exact (dropLine_only ..).trans (writeMiss_only ..)
      · split
        · exact (touchLine_only ..).trans (countUp_only ..)
        · exact ((touchLine_only ..).trans (countUp_only ..)).trans (charge_only ..)
    · exact writeMiss_only ..
  split
  · exact e
  · exact e
  · exact .refl s

end Sys2Proof.Machine
end

