-- ==== Sys2Proof/Laws/Issue.lean ====
section
/-! SUPPORT. What issuing an instruction can do, once for every instruction that goes through `issue`. -/

namespace Sys2Proof.Machine

/-- An instruction that issues answers what its body answers, applied. -/
theorem issue_eq {x : Iss} {g : Grp} {s s1 : State} {k : Group} {act : W32} (body : State → Group → W32 → Res)
    (h : Issues x g s k s1 act) : issue x g body s = .next (applyRes s s1 g x.ext (body s1 k act)) := by
  unfold issue issuePf
  simp only [h.slot, h.can, h.noRunAhead, h.fetched, h.legal, h.free, h.lanes, Bool.true_eq_false, Bool.false_eq_true, if_false,
    if_neg h.active]

theorem issuePf_eq {x : Iss} {g : Grp} {s s1 : State} {k : Group} {act : W32} (body : State → Group → W32 → Res)
    (pf : State → Grp → Group → W32 → State × Ahead) (h : Issues x g s k s1 act) :
    issuePf x g body pf s = applyRes s s1 g x.ext (body s1 k act) := by
  unfold issuePf
  simp only [h.slot, h.can, h.noRunAhead, h.fetched, h.legal, h.free, h.lanes, Bool.true_eq_false, Bool.false_eq_true, if_false,
    if_neg h.active]

/-- A body that only changes the group completes the instruction with that group. -/
theorem issue_group {x : Iss} {g : Grp} {s s1 : State} {k k' : Group} {act : W32} {body : State → Group → W32 → Res}
    (h : Issues x g s k s1 act) (hb : body s1 k act = .done (s1.setGroup g k')) :
    issue x g body s = .next (completed x g s1 k') := by
  rw [issue_eq body h, hb]
  simp [applyRes, completed]

/-- A body that changes the module and leaves the group as `k'`. -/
theorem issue_done {x : Iss} {g : Grp} {s s1 s2 : State} {k k' : Group} {act : W32} {body : State → Group → W32 → Res}
    (h : Issues x g s k s1 act) (hb : body s1 k act = .done s2) (hg : s2.group? g = some k') :
    issue x g body s = .next (completed x g s2 k') := by
  rw [issue_eq body h, hb]
  simp [applyRes, completed, State.modGroup_some _ hg]

theorem issue_jump {x : Iss} {g : Grp} {s s1 s2 : State} {k : Group} {act : W32} {body : State → Group → W32 → Res}
    (h : Issues x g s k s1 act) (hb : body s1 k act = .jump s2) : issue x g body s = .next s2 := by
  rw [issue_eq body h, hb]; rfl

/-- A decode fault parks the group with reason FAULT at the instruction (R85, R116). -/
theorem issue_bad {x : Iss} {g : Grp} {s s1 : State} {k : Group} {st : W16} (body : State → Group → W32 → Res)
    (hs : s.group? g = some k) (hc : canIssue s k = true) (hr : k.ra = none)
    (hf : fetch s g k (instrLen x.ext) = (s1, none)) (hb : x.bad = some st) :
    issue x g body s = .next (s1.modGroup g fun k' => beginPark k' 6 st k.pc.toNat 0) := by
  unfold issue issuePf
  simp [hs, hc, hr, hf, hb, applyRes]

end Sys2Proof.Machine
end

