-- ==== Sys2Proof/Laws/Memory.lean ====
section
/-! SUPPORT. Memory: a byte read after a write, and the canonical form under every operation that writes memory. -/

namespace Sys2Proof.Machine

theorem Memory.wf_iff (m : List Host.Cell) : Memory.wf m = true ↔ Rising m ∧ NoDefault 0 m := by
  induction m with
  | nil => simp [Memory.wf, Rising, NoDefault]
  | cons a t ih =>
    cases t with
    | nil => simp [Memory.wf, Rising, NoDefault]
    | cons b t =>
      simp only [Memory.wf, Bool.and_eq_true, decide_eq_true_eq, ih, Rising, NoDefault, List.forall_mem_cons]
      tauto

theorem State.byte_setByte_self (s : State) (pa : Nat) (b : Byte) : (s.setByte pa b).byte pa = b := tget_tset_self _ _ _ _

theorem State.byte_setByte_other (s : State) {pa n : Nat} (b : Byte) (h : n ≠ pa) : (s.setByte pa b).byte n = s.byte n :=
  tget_tset_other _ _ _ h

/-- A written byte reads as written, every other one as before. -/
theorem tget_putBytes (m : List Host.Cell) (pa : Nat) (bs : List Byte) (n : Nat) :
    tget 0 (putBytes m pa bs) n = if pa ≤ n ∧ n < pa + bs.length then bs.getD (n - pa) 0 else tget 0 m n := by
  induction bs generalizing m pa with
  | nil =>
    rw [putBytes, if_neg]
    simp only [List.length_nil]
    omega
  | cons b t ih =>
    rw [putBytes]
    by_cases h : n = pa
    · subst h
      simp [tget_tset_self]
    · rw [tget_tset_other _ _ _ h, ih]
      by_cases hr : pa + 1 ≤ n ∧ n < pa + 1 + t.length
      · have e : n - pa = (n - (pa + 1)) + 1 := by omega
        rw [if_pos hr, if_pos (by simp only [List.length_cons]; omega), e, List.getD_cons_succ]
      · rw [if_neg hr, if_neg (by simp only [List.length_cons]; omega)]

/-! ## Every operation keeps the canonical form -/

theorem wf_tset {m : List Host.Cell} (pa : Nat) (b : Byte) (h : Memory.wf m = true) : Memory.wf (tset 0 m pa b) = true :=
  (Memory.wf_iff _).2 (canonical_tset pa b ((Memory.wf_iff _).1 h))

theorem wf_filter {m : List Host.Cell} (p : Host.Cell → Bool) (h : Memory.wf m = true) : Memory.wf (m.filter p) = true :=
  (Memory.wf_iff _).2 (canonical_filter p ((Memory.wf_iff _).1 h))

theorem wf_setByte {s : State} (pa : Nat) (b : Byte) (h : Memory.wf s.mem = true) : Memory.wf (s.setByte pa b).mem = true :=
  wf_tset pa b h

theorem wf_putBytes {m : List Host.Cell} (pa : Nat) (bs : List Byte) (h : Memory.wf m = true) :
    Memory.wf (putBytes m pa bs) = true := by
  induction bs generalizing m pa with
  | nil => exact h
  | cons b t ih => exact wf_tset pa b (ih _ h)

theorem wf_foldl_tset {α : Type} (l : List α) (a : α → Nat) (b : α → Byte) {m : List Host.Cell} (h : Memory.wf m = true) :
    Memory.wf (l.foldl (fun m x => tset 0 m (a x) (b x)) m) = true := by
  induction l generalizing m with
  | nil => exact h
  | cons x t ih => exact ih (wf_tset _ _ h)

/-- A fold of operations that each keep the form keeps it. -/
theorem wf_foldl {α : Type} (f : State → α → State) (hf : ∀ s x, Memory.wf s.mem = true → Memory.wf (f s x).mem = true) (l : List α)
    {s : State} (h : Memory.wf s.mem = true) : Memory.wf (l.foldl f s).mem = true := by
  induction l generalizing s with
  | nil => exact h
  | cons x t ih => exact ih (hf s x h)

theorem mem_dropCopy (l : Nat) (s : State) (c : Nat) : (dropCopy l s c).mem = s.mem := by
  unfold dropCopy; split <;> rfl

theorem mem_foldl_dropCopy (l : Nat) (cs : List Nat) (s : State) : (cs.foldl (dropCopy l) s).mem = s.mem := by
  induction cs generalizing s with
  | nil => rfl
  | cons c t ih => rw [List.foldl_cons, ih, mem_dropCopy]

theorem wf_recallLine {s : State} (l : Nat) (h : Memory.wf s.mem = true) : Memory.wf (recallLine s l).mem = true := by
  unfold recallLine
  split
  · dsimp only
    split
    · exact wf_putBytes _ _ h
    · simp only [State.setDir, mem_foldl_dropCopy]
      exact wf_putBytes _ _ h
  · exact h

theorem wf_foldOne {s : State} (p : PoolLine) (h : Memory.wf s.mem = true) : Memory.wf (foldOne s p).mem = true :=
  wf_foldl_tset _ _ _ (wf_recallLine p.line h)

theorem mem_sweepEpochs (s : State) : (sweepEpochs s).mem = s.mem := rfl

theorem wf_foldCommitted {s : State} (n l : Nat) (h : Memory.wf s.mem = true) : Memory.wf (foldCommitted s n l).mem = true := by
  unfold foldCommitted
  dsimp only
  split
  · exact wf_foldl _ (fun _ p => wf_foldOne p) _ h
  · rw [mem_sweepEpochs]
    exact wf_foldl foldOne (fun _ p => wf_foldOne p) _ h

theorem mem_wakeSpins (s : State) (c l : Nat) : (wakeSpins s c l).mem = s.mem := by
  unfold wakeSpins; rfl

theorem mem_refreshFlight (s : State) (l : Nat) : (refreshFlight s l).mem = s.mem := by
  have fold : ∀ (es : List (Nat × Core)) (u : State), (es.foldl (fun s e => wakeSpins s e.1 l) u).mem = u.mem := by
    intro es
    induction es with
    | nil => intro u; rfl
    | cons e t ih => intro u; rw [List.foldl_cons, ih, mem_wakeSpins]
  unfold refreshFlight
  split
  · dsimp only
    rw [fold]
  · rfl

theorem wf_write {s : State} (pa : Nat) (bs : List Byte) (h : Memory.wf s.mem = true) : Memory.wf (s.write pa bs).mem = true := by
  unfold State.write
  dsimp only
  refine wf_foldl _ (fun u x hu => (mem_refreshFlight u x).symm ▸ hu) _ ?_
  exact wf_putBytes _ _ (wf_foldl _ (fun u x => wf_foldCommitted _ x) _ (wf_foldl _ (fun u x => wf_recallLine x) _ h))

theorem mem_countUp (s : State) (kind unit num n : Nat) : (countUp s kind unit num n).mem = s.mem := (countUp_only ..).mem

theorem mem_homeWrite (s : State) (cls : RClass) (attr pa n : Nat) : (homeWrite s cls attr pa n).mem = s.mem :=
  (homeWrite_only ..).mem

theorem wf_poolWriteLine {s : State} (e l : Nat) (mask : BitVec 128) (d : Line) (h : Memory.wf s.mem = true) :
    Memory.wf (poolWriteLine s e l mask d).1.mem = true := by
  have hs : Memory.wf (if s.isHeld (128 * l) then s else recallLine s l).mem = true := by
    split
    · exact h
    · exact wf_recallLine l h
  unfold poolWriteLine
  dsimp only
  generalize (if s.isHeld (128 * l) then s else recallLine s l) = s1 at hs ⊢
  split
  · exact h
  · split
    · rw [mem_countUp]; exact hs
    · split
      · rw [mem_countUp]; exact h
      · rw [mem_countUp]; exact hs

theorem wf_poolWrite {s : State} (e pa : Nat) (bs : List Byte) (h : Memory.wf s.mem = true) :
    Memory.wf (s.poolWrite e pa bs).1.mem = true := by
  unfold State.poolWrite
  generalize hl : linesOf pa bs.length = ls
  have go : ∀ (ls : List Nat) (acc : State × W16) (f : State × W16 → Nat → State × W16),
      (∀ a x, Memory.wf a.1.mem = true → Memory.wf (f a x).1.mem = true) → Memory.wf acc.1.mem = true →
      Memory.wf (ls.foldl f acc).1.mem = true := by
    intro ls
    induction ls with
    | nil => intro acc f _ ha; exact ha
    | cons x t ih => intro acc f hf ha; exact ih _ f hf (hf acc x ha)
  refine go ls _ _ ?_ h
  intro a x ha
  dsimp only
  split
  · exact ha
  · exact wf_poolWriteLine _ _ _ _ ha

theorem wf_unitWrite {s : State} (e : Option Nat) (pa : Nat) (bs : List Byte) (h : Memory.wf s.mem = true) :
    Memory.wf (s.unitWrite e pa bs).1.mem = true := by
  cases e with
  | none => exact wf_write pa bs h
  | some n => exact wf_poolWrite n pa bs h

theorem wf_entryWrite {s : State} (e : SbEntry) (h : Memory.wf s.mem = true) : Memory.wf (entryWrite s e).mem = true := by
  unfold entryWrite
  dsimp only
  rw [mem_refreshFlight]
  exact wf_foldl_tset _ _ _ (wf_foldCommitted _ _ (wf_recallLine _ ((mem_homeWrite ..).symm ▸ h)))

theorem wf_zeroRange {s : State} (base n : Nat) (h : Memory.wf s.mem = true) : Memory.wf (zeroRange s base n).mem = true :=
  wf_filter _ h

theorem wf_ungateUnit {s : State} (u : GateUnit) (h : Memory.wf s.mem = true) : Memory.wf (ungateUnit s u).mem = true :=
  wf_filter _ h

theorem wf_sliceTakes {s : State} (l : Nat) (d : Line) (h : Memory.wf s.mem = true) : Memory.wf (sliceTakes s l d).mem = true := by
  unfold sliceTakes
  dsimp only
  rw [mem_homeWrite]
  exact wf_putBytes _ _ h

theorem wf_reset : Memory.wf State.reset.mem = true := rfl

end Sys2Proof.Machine
end

