-- ==== Sys2Proof/Laws/Mesh.lean ====
section
/-! SUPPORT. The hall mesh: its links join the adjacent hall dies and no others, and every route follows links (R17, R19). -/

namespace Sys2Proof.Machine

/-- The links 0 to 8 join the hall dies that are adjacent in a row, the links 9 to 16 those that are adjacent in a column (R17). -/
theorem linkOf_halls : ∀ a < 12, ∀ b < 12, (hops a b = 1 ↔ ∃ n < 17, linkOf (.hall a) (.hall b) = some n) ∧
    (hops a b = 1 → ((linkOf (.hall a) (.hall b)).any fun n => decide (n < 9)) = decide (hallRow a = hallRow b)) := by decide +kernel

/-- A packet between two hall dies passes as many links as it makes hops, all within the mesh (R19). -/
theorem route_halls : ∀ a < 12, ∀ b < 12, (route (.hall a) (.hall b)).length = hops a b ∧ ∀ n ∈ route (.hall a) (.hall b), n < 17 := by
  decide +kernel

/-- Each edge die has its own links to its hall dies (*Table 1-2*). -/
theorem linkOf_edges : linkOf .gate (.hall 1) = some 17 ∧ linkOf .gate (.hall 2) = some 18 ∧ linkOf (.cellar 0) (.hall 4) = some 19 ∧
    linkOf (.cellar 1) (.hall 7) = some 20 ∧ linkOf .reeve (.hall 10) = some 21 := by decide +kernel

end Sys2Proof.Machine
end

