-- ==== Sys2Proof/Laws/Steward.lean ====
section
/-! SUPPORT. A command of the Steward runs its body when its request passes the checks of R354. -/

namespace Sys2Proof.Laws

open Sys2Proof.Machine

/-- A command that names no context. -/
theorem runCmd_noCtx {s : State} {mb cmd : Nat} {pl : List Byte} {mask : List Nat}
    (body : State → Nat → List Byte → State) (hs : cmdSpec cmd = some (.noCtx, mask)) (h : Asks s mb cmd pl) :
    runCmd cmd mb s body = .next (body s 0 pl) := by
  obtain ⟨⟨m, ha, rfl⟩, hp⟩ := h
  simp only [runCmd, ha.box, ha.command, ha.idle, ha.unanswered, ha.turn, hs]
  simp
  intro a b
  exact absurd (hp.resolve_right b) (by simp [a])

/-- A command in the name of a context. -/
theorem runCmd_ctx {s : State} {mb cmd c : Nat} {pl : List Byte} {x : Context} {need : CtxNeed} {mask : List Nat}
    (body : State → Nat → List Byte → State) (hs : cmdSpec cmd = some (need, mask)) (hn : need ≠ .noCtx)
    (h : AsksFor s mb cmd pl c x) : runCmd cmd mb s body = .next (body s c pl) := by
  obtain ⟨⟨m, ha, rfl, rfl, hg⟩, hp, hx, hst, hup⟩ := h
  have h1 : x.state ≠ .destroying := by rcases hst with h | h <;> simp [h]
  have h2 : ¬(x.state = .lost ∧ need = .active) := by
    rcases hst with h | ⟨-, h⟩
    · simp [h]
    · rw [hs] at h
      rintro ⟨-, rfl⟩
      simp at h
  simp [runCmd, ha.box, ha.command, ha.idle, ha.unanswered, ha.turn, hs, hp, hn, hx, hg, h1, h2, hup]

end Sys2Proof.Laws
end

