-- ==== Sys2Proof/Tests/Slice0.lean ====
section
/-! SUPPORT. Tests: the decoder on words of the manual, the ranges of operands, single commands on small states with values
from the manual's tables and examples, and for each statement concrete states that meet its hypotheses. -/

set_option Elab.async false

namespace Sys2Proof.Tests

open Sys2Proof.Machine Sys2Proof.Claims

/-! ## A small module: one group of context 1 in slot 3 of core 5, its code and data page mapped -/

def g0 : Grp := { core := 5, slot := 3 }

/-- A leaf of a 64 KiB page: frame, R, W, X. -/
def leaf0 (frame attr : Nat) : W64 := BitVec.ofNat 64 (5 + frame + 7 * 2 ^ 48 + attr * 2 ^ 51)

def path0 : Path := { pc := 0x10000, mask := 0xFFFF_FFFF, parent := none, kind := .run, wait := 0, turn := .go }

def k0 : Group :=
  { ctx := 1, gen := 1, station := 0, inst := 0, index := 0, vregs := 64, live := 0xFFFF_FFFF, barWdog := 24,
    runAheadMax := 0x200, bars := [], preds := [(1, 0x0F)], sregs := [(1, 7), (2, 5), (3, 0x10080), (4, 0x10020)],
    vfile := [(1, lanes fun i => BitVec.ofNat 32 (i + 1)), (2, lanes fun _ => 3)], stack := [(0, path0)], active := some 0,
    opp := 0, mode := .running, debug := false, bell := false, raEnded := false, ra := none, loads := [], units := [],
    reqs := [], nextId := 0, seq := 0, ordSeq := 0 }

def tlb0 : List TlbEntry :=
  [{ st := .core 5, fetch := true, asid := 1, level := 0, vpn := 1, leaf := leaf0 0x10000 0 },
   { st := .core 5, fetch := false, asid := 1, level := 0, vpn := 1, leaf := leaf0 0x10000 0 }]

def c0 : Context :=
  { gen := 1, part := 0, state := .active, resident := true, residentSince := 0, pinned := false, prio := 0, root := 0x8000,
    capPage := 0, lossStatus := 0, lossCore := 0, lossStation := 0, lossTime := 0, lossAddr := 0, bellCount := 0, bellLog := [],
    refStatus := 0, refCount := 0, refEpoch := 0, evCount := 0, evDropped := 0, evFlag := false, destroyMb := none,
    escalated := false }

def part0 : Partition := { Partition.reset with state := .running, halls := 1 }

/-- The module with the group `k`. -/
def sWith (k : Group) : State :=
  { State.reset with
    power := { Power.reset with st := .ready }, tlb := tlb0, groups := [(gkey g0, k)], contexts := [(1, c0)], parts := [(0, part0)]
    hbmGroups := [(0, { mode := 1, part := 0 })] }

def s0 : State := sWith k0

/-! ## When an instruction issues, as a test -/

def ready (x : Iss) (g : Grp) (s : State) : Bool :=
  match s.group? g with
  | none => false
  | some k => canIssue s k && k.ra.isNone && (fetch s g k (instrLen x.ext)).2.isNone && x.bad.isNone && !mustWait x s g k &&
      decide (k.lanesOn x.gp x.gn ≠ 0)

/-- What `ready` says. -/
theorem ready_issues {x : Iss} {g : Grp} {s : State} {k : Group} (hk : s.group? g = some k) (h : ready x g s = true) :
    Issues x g s k (fetch s g k (instrLen x.ext)).1 (k.lanesOn x.gp x.gn) := by
  simp only [ready, hk, Bool.and_eq_true, Bool.not_eq_true', Option.isNone_iff_eq_none, decide_eq_true_eq] at h
  obtain ⟨⟨⟨⟨⟨h1, h2⟩, h3⟩, h4⟩, h5⟩, h6⟩ := h
  exact ⟨hk, h1, h2, Prod.ext rfl h3, h4, h5, rfl, h6⟩

theorem ready_exists {x : Iss} {g : Grp} {s : State} (h : ready x g s = true) : ∃ k s1 act, Issues x g s k s1 act := by
  cases hk : s.group? g with
  | none => simp [ready, hk] at h
  | some k => exact ⟨k, _, _, ready_issues hk h⟩

/-- A format-R word. -/
def rw (a b c dst mod : Nat) : RWord :=
  { ext := none, gp := 0, gn := false, c := BitVec.ofNat 9 c, b := BitVec.ofNat 9 b, a := BitVec.ofNat 9 a,
    dst := BitVec.ofNat 9 dst, mod := BitVec.ofNat 9 mod }

/-- A format-I word. -/
def iw (a dst mod : Nat) (imm : Int) : IWord :=
  { ext := none, gp := 0, gn := false, imm := BitVec.ofInt 18 imm, a := BitVec.ofNat 9 a, dst := BitVec.ofNat 9 dst, mod := BitVec.ofNat 9 mod }

/-- The group after a command. -/
def after (c : Instr) (s : State) : Option Group :=
  match exec c s with
  | .next t => t.group? g0
  | _ => none

/-- A scalar register of the group after a command, and its pc. -/
def sAfter (c : Instr) (s : State) (r : Nat) : Option (W64 × VAddr) := (after c s).map fun k => (k.s r, k.pc)
/-- A lane of a vector register after a command. -/
def vAfter (c : Instr) (s : State) (r i : Nat) : Option W32 := (after c s).map fun k => laneOf (k.v r) i


/-! ## Words and forms -/

/-- The words the manual writes out (*Tables 4-2*, 12-2 and 12-3 read bit by bit) and the zero word. -/
theorem test_manual_words : (decodeCore g0 0x2804_6100_4080_0000 none).map encodeCore = some (some (0x2804_6100_4080_0000, none)) ∧
    (decodeCore g0 0x3800_1FF8_5C2B_FF40 none).map encodeCore = some (some (0x3800_1FF8_5C2B_FF40, none)) ∧
    (decodeCore g0 0x3800_9FF8_6C32_1CD0 none).map encodeCore = some (some (0x3800_9FF8_6C32_1CD0, none)) ∧ decodeCore g0 0 none = none := by
  decide +kernel
/-- SHA-256 of "abc" (FIPS 180-4, example 1). -/
theorem test_sha256 : sha256 [0x61, 0x62, 0x63] =
    [0xba, 0x78, 0x16, 0xbf, 0x8f, 0x01, 0xcf, 0xea, 0x41, 0x41, 0x40, 0xde, 0x5d, 0xae, 0x22, 0x23,
      0xb0, 0x03, 0x61, 0xa3, 0x96, 0x17, 0x7a, 0x9c, 0xb4, 0x10, 0xff, 0x61, 0xf2, 0x00, 0x15, 0xad] := by decide +kernel

def rz : RWord := { ext := none, gp := 0, gn := false, c := 0, b := 0, a := 0, dst := 0, mod := 0 }
def gBad : Grp := { core := 4224, slot := 0 }

/-- One ill-formed term for each check of WellFormed.lean, at the first value outside the range; each is refused. -/
theorem test_ill_formed : ∀ i ∈ ([Instr.sadd gBad (.r rz), .sadd { core := 0, slot := 48 } (.r rz), .barrierStall { core := 0, slot := 0 } 8, .barrierStall gBad 0,
    .replay 0 0 48 { core := 0, slot := 0 }, .replay 0 0 0 gBad, .coreRetire 4224, .nearStoreAtomic 4224 0, .nearStoreAtomic 0 12, .contextEvict 4096,
    .fillSectorArrival 12 0 0 .clean, .fillSectorArrival 0 0 4 .clean, .poolFold 12, .poolWrite 4096 0 0 [], .poolWrite 0 64 0 [], .tierInterval 12,
    .epochSliceApply 12 0 0, .epochSliceApply 0 64 0, .epochSliceApply 0 0 12, .unitSeal (.binBank 12 0), .unitSeal (.binBank 0 128),
    .unitSeal (.cacheWay 12 0), .unitSeal (.cacheWay 0 128), .unitSeal (.poolWay 12), .unitSeal (.hbmGroup 96), .pageWalk (.core 4224) 0 0,
    .pageWalk (.island 528) 0 0, .pageWalk (.hall 12) 0 0, .pageWalk .folest 4096 0, .shootdown 0 (.hall 12), .refreshAdjust 24,
    .regulatorWindow 26 0 false, .regulatorWindow 0 12 false, .capRead 64, .endpointDead (.hbmGroup 96), .endpointDead (.cellarDevice 2 0),
    .endpointDead (.cellarDevice 0 16), .endpointDead (.binBank 12 0), .endpointDead (.binBank 0 128), .endpointDead (.tallySlice 12)] : List Instr), i.wellFormed = false := by decide +kernel
/-- The last values inside the ranges pass. -/
theorem test_well_formed : ∀ i ∈ ([.sadd { core := 4223, slot := 47 } (.r rz), .barrierStall { core := 4223, slot := 47 } 7, .coreRetire 4223,
    .contextEvict 4095, .poolWrite 4095 63 0 [], .epochSliceApply 11 63 11, .unitSeal (.cacheWay 11 127), .unitSeal (.hbmGroup 95),
    .pageWalk (.island 527) 4095 0, .refreshAdjust 23, .regulatorWindow 25 11 false, .capRead 63, .endpointDead (.cellarDevice 1 15)] : List Instr),
    i.wellFormed = true := by decide +kernel

/-! One word of each family, field by field from *Tables 4-2* to 4-5, with OPC and FN of *Table 4-12* -/

def wordR (opc fn : Nat) : BitVec 64 :=
  BitVec.ofNat 64 (opc * 2 ^ 56 + 6 * 2 ^ 52 + 1 * 2 ^ 51 + fn * 2 ^ 45 + 3 * 2 ^ 36 + 2 * 2 ^ 27 + 1 * 2 ^ 18 + 4 * 2 ^ 9 + 0x155)
def wordI (opc fn : Nat) : BitVec 64 :=
  BitVec.ofNat 64 (opc * 2 ^ 56 + 6 * 2 ^ 52 + 1 * 2 ^ 51 + fn * 2 ^ 45 + 0x3FFFE * 2 ^ 27 + 1 * 2 ^ 18 + 4 * 2 ^ 9 + 0x155)
def wordM (opc : Nat) : BitVec 64 :=
  BitVec.ofNat 64 (opc * 2 ^ 56 + 6 * 2 ^ 52 + 5 * 2 ^ 48 + 2 * 2 ^ 46 + 1 * 2 ^ 44 + 33 * 2 ^ 38 + 0x101 * 2 ^ 29 + 7 * 2 ^ 20 + 3 * 2 ^ 18 + 0x3FFFF)
def wordB (opc : Nat) : BitVec 64 := BitVec.ofNat 64 (opc * 2 ^ 56 + 6 * 2 ^ 52 + 0x3FFFFD * 2 ^ 23 + 9 * 2 ^ 1)
def fR : RWord := { ext := none, gp := 6, gn := true, c := 3, b := 2, a := 1, dst := 4, mod := 0x155 }
def fI : IWord := { ext := none, gp := 6, gn := true, imm := 0x3FFFE, a := 1, dst := 4, mod := 0x155 }
def fM : MWord := { ext := none, gp := 6, gn := false, sz := 5, mark := 2, scope := 1, base := 33, index := 0x101, data := 7, scale := 3, imm := 0x3FFFF }

theorem test_words_r : ([(0x01, 7, .sremu g0 (.r fR)), (0x02, 3, .sandn g0 (.r fR)), (0x03, 6, .sseq g0 (.r fR)), (0x04, 5, .spset g0 (.r fR)),
    (0x10, 4, .vmulhs g0 (.r fR)), (0x11, 9, .vbrev g0 (.r fR)), (0x12, 8, .vfcpys g0 fR), (0x13, 9, .vcmp g0 .ord fR), (0x14, 6, .vcvt g0 6 fR),
    (0x15, 3, .vget g0 fR), (0x16, 6, .vredFadd g0 fR), (0x20, 3, .vdfma g0 fR), (0x21, 5, .vidivs g0 fR), (0x22, 0x0A, .vdcvt g0 0xA fR),
    (0x22, 0x12, .vdcmp g0 .lt fR), (0x34, 9, .maccWr g0 fR), (0x35, 5, .sivScatter g0 fR), (0x38, 5, .tlyCancel g0 fR), (0x3B, 6, .barG g0 fR),
    (0x3C, 2, .fenceDone g0 fR), (0x3E, 0, .brk g0 fR)] : List (Nat × Nat × Instr)).all
      (fun r => decide (decodeCore g0 (wordR r.1 r.2.1) none = some r.2.2)) = true := by decide +kernel
theorem test_words_i : ([(0x41, 0, .sadd g0 (.i fI)), (0x44, 0, .smov g0 (.i fI)), (0x50, 8, .vmaxu g0 (.i fI)), (0x51, 6, .vsar g0 (.i fI)),
    (0x05, 0, .srdcr g0 fI), (0x3D, 0, .wrcr g0 fI)] : List (Nat × Nat × Instr)).all
      (fun r => decide (decodeCore g0 (wordI r.1 r.2.1) none = some r.2.2)) = true := by decide +kernel
theorem test_words_m : ([(0x28, .ld g0 fM), (0x29, .st g0 fM), (0x2A, .sld g0 fM), (0x2B, .sst g0 fM), (0x2E, .pf g0 fM), (0x2F, .lld g0 fM),
    (0x30, .lst g0 fM), (0x31, .lldR g0 fM), (0x32, .lstR g0 fM)] : List (Nat × Instr)).all
      (fun r => decide (decodeCore g0 (wordM r.1) none = some r.2)) = true := by decide +kernel
/-- An atomic has its operation in an extension word (*Table 4-7*); a word without one is no instruction (R83). -/
theorem test_words_atomic : decodeCore g0 (wordM 0x2C) none = none ∧
    decodeCore g0 (wordM 0x2C ||| (1#64 <<< 55)) (some 9) = some (.atom g0 { fM with ext := some 9 }) ∧
    decodeCore g0 (wordM 0x2D ||| (1#64 <<< 55)) (some 9) = some (.satom g0 { fM with ext := some 9 }) := by decide +kernel
theorem test_words_b : (match decodeCore g0 (wordB 0x39) none, decodeCore g0 (wordB 0x3A) none with
    | some (.bra _ f), some (.call _ h) => [f.gp.toNat, f.tgt.toNat, f.rcv.toNat, h.tgt.toNat]
    | _, _ => []) = [6, 0x3FFFFD, 9, 0x3FFFFD] := by decide +kernel
/-! ## Class S: SRC_A s1 = 7, SRC_B s2 = 5 -/

theorem witness_scalar : ∃ k s1 act, Issues (scalarIss s0 g0 (.r (rw 0x101 0x102 0x1FF 0x105 0)) [.s, .x, .z] [.s, .x, .z] [.s, .z])
    g0 s0 k s1 act := ready_exists (by decide +kernel)

theorem witness_scalar_twin : ∃ k s1 act, Issues (scalarIss s0 g0 (.i (iw 0x101 0x105 0 (-3))) [.s, .x, .z] [.s, .x, .z] [.s, .z])
    g0 s0 k s1 act := ready_exists (by decide +kernel)

theorem witness_scalar_one_source : ∀ row ∈ scalarUnRows, ∃ k s1 act,
    Issues (scalarIss s0 g0 (.r (rw 0x141 0x1FF 0x1FF 0x105 0)) row.2.1 [.z] row.2.2.1) g0 s0 k s1 act := by
  simp only [scalarUnRows, List.forall_mem_cons, List.not_mem_nil, false_imp_iff, implies_true, and_true]
  refine ⟨?_, ?_, ?_, ?_, ?_⟩ <;> exact ready_exists (by decide +kernel)

theorem witness_spset : ∃ k s1 act, Issues (scalarIss s0 g0 (.r (rw 0x101 0x1FF 0x1FF 0x147 0)) [.s, .p, .x, .z] [.z] [.p])
    g0 s0 k s1 act := ready_exists (by decide +kernel)

theorem witness_srdcr : ∀ row ∈ crRows, (∃ k s1 act, Issues (srdcrIss s0 g0 (iw 0x1FF 0x105 0 row.1)) g0 s0 k s1 act) ∧
    crNumber (iw 0x1FF 0x105 0 row.1) = row.1 := by
  simp only [crRows, List.forall_mem_cons, List.not_mem_nil, false_imp_iff, implies_true, and_true]
  refine ⟨?_, ?_, ?_, ?_, ?_, ?_, ?_, ?_, ?_⟩ <;> exact ⟨ready_exists (by decide +kernel), by decide⟩

theorem witness_wrcr : (∃ k s1 act, Issues (wrcrIss s0 g0 (iw 0x102 0x1FF 0 1)) g0 s0 k s1 act) ∧ (k0.opS none 0x102).toNat < 64 ∧
    (∃ k s1 act, Issues (wrcrIss s0 g0 (iw 0x102 0x1FF 0 2)) g0 s0 k s1 act) :=
  ⟨ready_exists (by decide +kernel), by decide +kernel, ready_exists (by decide +kernel)⟩

theorem test_ssub : sAfter (.ssub g0 (.r (rw 0x102 0x101 0x1FF 0x105 0))) s0 5 = some (BitVec.ofInt 64 (-2), 0x10008) := by decide +kernel
theorem test_sdivs_min : sAfter (.sdivs g0 (.i (iw 0x106 0x105 0 (-1)))) (sWith { k0 with sregs := [(6, 0x8000_0000_0000_0000)] }) 5 =
    some (0x8000_0000_0000_0000, 0x10008) := by decide +kernel
theorem test_sdivu_zero : sAfter (.sdivu g0 (.r (rw 0x101 0x1FF 0x1FF 0x105 0))) s0 5 = some (BitVec.allOnes 64, 0x10008) := by decide +kernel
theorem test_srems_sign : sAfter (.srems g0 (.i (iw 0x106 0x105 0 3))) (sWith { k0 with sregs := [(6, BitVec.ofInt 64 (-7))] }) 5 =
    some (BitVec.ofInt 64 (-1), 0x10008) := by decide +kernel
theorem test_ssar : sAfter (.ssar g0 (.i (iw 0x106 0x105 0 65))) (sWith { k0 with sregs := [(6, BitVec.ofInt 64 (-8))] }) 5 =
    some (BitVec.ofInt 64 (-4), 0x10008) := by decide +kernel
theorem test_sclz : sAfter (.sclz g0 (.r (rw 0x101 0x1FF 0x1FF 0x105 0))) s0 5 = some (61, 0x10008) := by decide +kernel
theorem test_wrcr_clamps : (after (.wrcr g0 (iw 0x102 0x1FF 0 1)) s0).map (·.barWdog) = some 12 := by decide +kernel
theorem test_srdcr_group : sAfter (.srdcr g0 (iw 0x1FF 0x105 0 4)) s0 5 = some (0x0000_0005_0000_0000, 0x10008) := by decide +kernel
/-- An unused SRC_C that is not ZERO is illegal: the group parks with reason FAULT and 0x0504 (R85). -/
theorem test_unused_field : (after (.sadd g0 (.r (rw 0x101 0x102 0 0x105 0))) s0).map (·.mode) =
    some (.parking { reason := 6, status := 0x0504, addr := 0x10000, aux := 0 }) := by decide +kernel

/-! ## Classes V and V64: v1 holds lane + 1, v2 holds 3 in every lane -/

theorem witness_vector_integer :
    (∃ k s1 act, Issues (vecIss s0 g0 (.r (rw 1 2 0x1FF 5 0)) [.v, .s, .x, .z]) g0 s0 k s1 act) ∧
    (∃ k s1 act, Issues (vecIss s0 g0 (.i (iw 1 5 0 4)) [.v, .s, .x, .z]) g0 s0 k s1 act) ∧
    (∃ k s1 act, Issues (vecIss s0 g0 (.r (rw 1 0x1FF 0x1FF 5 0)) [.z]) g0 s0 k s1 act) ∧
    (∃ k s1 act, Issues (rIss s0 g0 (rw 1 2 0x1FF 5 0) true [.v] [.v] [.z] [.v] 1 1 (decide ((rw 1 2 0x1FF 5 0).mod = 0))) g0 s0 k s1 act) :=
  ⟨ready_exists (by decide +kernel), ready_exists (by decide +kernel), ready_exists (by decide +kernel), ready_exists (by decide +kernel)⟩

/-- FP32 is TYPE 4, FP64 TYPE 8 (*Table 4-13*). -/
theorem witness_vector_float :
    (∀ row ∈ fpRows, ∃ f k s1 act, Issues (rIss s0 g0 f false [.v, .s, .x] row.2.1 row.2.2.1 [.v] 1 1 (isFp32 f.mod)) g0 s0 k s1 act) ∧
    (∀ row ∈ fpDivRows, ∃ f k s1 act, Issues (rIss s0 g0 f true [.v] row.2.1 [.z] [.v] 1 1 (isFp32 f.mod)) g0 s0 k s1 act) ∧
    (∀ row ∈ fp64Rows, ∃ f k s1 act, Issues (rIss s0 g0 f true [.pr] row.2.1 row.2.2.1 [.pr] 2 2 (modFpOk f.mod && modType f.mod == 8))
      g0 s0 k s1 act) := by
  simp only [fpRows, fpDivRows, fp64Rows, List.forall_mem_cons, List.not_mem_nil, false_imp_iff, implies_true, and_true]
  refine ⟨⟨?_, ?_, ?_, ?_, ?_, ?_, ?_, ?_, ?_⟩, ⟨?_, ?_⟩, ⟨?_, ?_, ?_, ?_, ?_, ?_, ?_, ?_, ?_, ?_⟩⟩ <;> first
    | exact ⟨rw 1 2 2 5 128, ready_exists (by decide +kernel)⟩
    | exact ⟨rw 1 2 0x1FF 5 128, ready_exists (by decide +kernel)⟩
    | exact ⟨rw 1 0x1FF 0x1FF 5 128, ready_exists (by decide +kernel)⟩
    | exact ⟨rw 2 4 6 8 256, ready_exists (by decide +kernel)⟩
    | exact ⟨rw 2 4 0x1FF 8 256, ready_exists (by decide +kernel)⟩
    | exact ⟨rw 2 0x1FF 0x1FF 8 256, ready_exists (by decide +kernel)⟩

theorem witness_move_and_cross_lane :
    (∀ row ∈ moveRows, ∃ f k s1 act, Issues (rIss s0 g0 f false row.2.1 row.2.2.1 row.2.2.2.1 [.v] 1 1 (decide (f.mod = 0))) g0 s0 k s1 act) ∧
    (∀ row ∈ crossRows, ∃ f k s1 act, Issues (rIss s0 g0 f false row.2.1 row.2.2.1 [.z] [.s] 1 1 (row.2.2.2.1 f.mod)) g0 s0 k s1 act) ∧
    (∃ f k s1 act, Issues (rIss s0 g0 f false [.v] [.z] [.z] [.s] 1 1 (modFpOk f.mod && modType f.mod == 4)) g0 s0 k s1 act) := by
  simp only [moveRows, crossRows, List.forall_mem_cons, List.not_mem_nil, false_imp_iff, implies_true, and_true]
  refine ⟨⟨?_, ?_, ?_, ?_, ?_⟩, ⟨?_, ?_, ?_, ?_, ?_⟩, ?_⟩ <;> first
    | exact ⟨rw 1 2 0x141 5 0, ready_exists (by decide +kernel)⟩
    | exact ⟨rw 1 2 0x1FF 5 0, ready_exists (by decide +kernel)⟩
    | exact ⟨rw 1 0x1FF 0x1FF 5 0, ready_exists (by decide +kernel)⟩
    | exact ⟨rw 0x1FF 0x1FF 0x1FF 5 0, ready_exists (by decide +kernel)⟩
    | exact ⟨rw 1 0x102 0x1FF 5 0, ready_exists (by decide +kernel)⟩
    | exact ⟨rw 1 0x102 0x1FF 0x105 0, ready_exists (by decide +kernel)⟩
    | exact ⟨rw 0x141 0x1FF 0x1FF 0x105 0, ready_exists (by decide +kernel)⟩
    | exact ⟨rw 1 0x1FF 0x1FF 0x105 288, ready_exists (by decide +kernel)⟩
    | exact ⟨rw 1 0x1FF 0x1FF 0x105 128, ready_exists (by decide +kernel)⟩

theorem witness_compare_and_convert :
    (∃ k s1 act, Issues (rIss s0 g0 (rw 1 2 0x1FF 0x142 0) false [.v, .s, .x] [.v, .s, .x] [.z] [.p] 1 1
      (cmpTypeOk .lt (rw 1 2 0x1FF 0x142 0).mod)) g0 s0 k s1 act) ∧
    (∃ k s1 act, Issues (rIss s0 g0 (rw 2 4 0x1FF 0x142 256) true [.pr] [.pr] [.z] [.p] 2 1
      (modFpOk 256 && modType 256 == 8 && decide (Cond.lt ≠ .ltu) && decide (Cond.lt ≠ .geu))) g0 s0 k s1 act) ∧
    (∃ k s1 act, Issues (rIss s0 g0 (rw 1 0x1FF 0x1FF 5 128) true [.v, .s] [.z] [.z] [.v] 1 1
      (type32 0 && type32 (modType 128) && decide (0 ≠ modType 128) && modFpOk 128)) g0 s0 k s1 act) ∧
    (∃ k s1 act, Issues (rIss s0 g0 (rw 1 0x1FF 0x1FF 6 256) true [if type64 4 then .pr else .v] [.z] [.z]
      [if type64 (modType 256) then .pr else .v] (if type64 4 then 2 else 1) (if type64 (modType 256) then 2 else 1)
      ((type32 4 || type64 4) && (type32 (modType 256) || type64 (modType 256)) && (type64 4 || type64 (modType 256)) &&
        decide (4 ≠ modType 256) && modFpOk 256)) g0 s0 k s1 act) :=
  ⟨ready_exists (by decide +kernel), ready_exists (by decide +kernel), ready_exists (by decide +kernel), ready_exists (by decide +kernel)⟩

/-- Lane 31 holds 32, and 32 + 3 = 35. -/
theorem test_vadd : vAfter (.vadd g0 (.r (rw 1 2 0x1FF 5 0))) s0 5 31 = some 35 := by decide +kernel
/-- Only the lanes of p1, 0 to 3, are written. -/
theorem test_vmul_guard : (vAfter (.vmul g0 (.r { rw 1 2 0x1FF 2 0 with gp := 1 })) s0 2 3, vAfter (.vmul g0 (.r { rw 1 2 0x1FF 2 0 with gp := 1 })) s0 2 4) =
    (some 12, some 3) := by decide +kernel
/-- A shift count is taken modulo the element width, 8 for TYPE 2 (R105, *Table 4-13*). -/
theorem test_vshl_modulo : vAfter (.vshl g0 (.i (iw 1 5 0 33))) s0 5 0 = some 2 := by decide +kernel
/-- 1.0 + 2.0 = 3.0 in FP32, the operands from scalar registers. -/
theorem test_vfadd : vAfter (.vfadd g0 (rw 0x101 0x102 0x1FF 5 128)) (sWith { k0 with sregs := [(1, 0x3F80_0000), (2, 0x4000_0000)] }) 5 7 =
    some 0x4040_0000 := by decide +kernel
/-- 2.0 / 3.0 rounded to nearest: 0x3F2AAAAB. -/
theorem test_vfdiv : vAfter (.vfdiv g0 (rw 3 4 0x1FF 5 128))
    (sWith { k0 with vfile := [(3, lanes fun _ => 0x4000_0000), (4, lanes fun _ => 0x4040_0000)] }) 5 0 = some 0x3F2A_AAAB := by decide +kernel
/-- √2 in FP32: 0x3FB504F3. -/
theorem test_vfsqrt : vAfter (.vfsqrt g0 (rw 3 0x1FF 0x1FF 5 128)) (sWith { k0 with vfile := [(3, lanes fun _ => 0x4000_0000)] }) 5 0 =
    some 0x3FB5_04F3 := by decide +kernel
/-- 0.1 + 0.2 in FP64 is 0x3FD3333333333334. -/
theorem test_vdadd : (vAfter (.vdadd g0 (rw 4 6 0x1FF 8 256)) (sWith { k0 with vfile := [(4, lanes fun _ => 0x9999_999A),
      (5, lanes fun _ => 0x3FB9_9999), (6, lanes fun _ => 0x9999_999A), (7, lanes fun _ => 0x3FC9_9999)] }) 8 0,
    vAfter (.vdadd g0 (rw 4 6 0x1FF 8 256)) (sWith { k0 with vfile := [(4, lanes fun _ => 0x9999_999A), (5, lanes fun _ => 0x3FB9_9999),
      (6, lanes fun _ => 0x9999_999A), (7, lanes fun _ => 0x3FC9_9999)] }) 9 0) = (some 0x3333_3334, some 0x3FD3_3333) := by decide +kernel
/-- VCVT of 16777217 to FP32 rounds to even, 16777216 = 0x4B800000. -/
theorem test_vcvt : vAfter (.vcvt g0 0 (rw 0x101 0x1FF 0x1FF 5 128)) (sWith { k0 with sregs := [(1, 16777217)] }) 5 0 = some 0x4B80_0000 := by
  decide +kernel
theorem test_vballot : sAfter (.vballot g0 (rw 0x141 0x1FF 0x1FF 0x105 0)) s0 5 = some (0xF, 0x10008) := by decide +kernel
theorem test_vred_add : sAfter (.vredAdd g0 (rw 1 0x1FF 0x1FF 0x105 288)) s0 5 = some (528, 0x10008) := by decide +kernel
theorem test_vshfl : vAfter (.vshfl g0 (rw 1 0x102 0x1FF 5 0)) s0 5 0 = some 6 := by decide +kernel
theorem test_vcmp : (after (.vcmp g0 .lt (rw 1 2 0x1FF 0x142 0)) s0).map (fun k => k.pred 2) = some 3 := by decide +kernel
/-- -0 equals +0 and NaN is unordered (R103). -/
theorem test_vdcmp_nan : (after (.vdcmp g0 .un (rw 4 4 0x1FF 0x142 256)) (sWith { k0 with vfile := [(5, lanes fun _ => 0x7FF8_0000)] })).map
    (fun k => k.pred 2) = some 0xFFFF_FFFF := by decide +kernel

/-! ## Class M: the page at 0x10000 maps to physical 0x10000 of HBM group 0 -/

/-- A format-M word of 32-bit accesses. -/
def mw (base index data : Nat) (scale imm : Nat) : MWord :=
  { ext := none, gp := 0, gn := false, sz := 4, mark := 0, scope := 0, base := BitVec.ofNat 6 base, index := BitVec.ofNat 9 index,
    data := BitVec.ofNat 9 data, scale := BitVec.ofNat 2 scale, imm := BitVec.ofNat 18 imm }

def fetched (s : State) (k : Group) (f : MWord) : State := (fetch s g0 k (instrLen f.ext)).1

def checks (f : MWord) (atom scalar : Bool) (need : Need) (attr : W64 → Nat → Bool) (s : State) (k : Group) : State × List Lane :=
  lanesAccess (fetched s k f) g0 k need (szBytes f.sz) attr (memAddrs k (k.lanesOn f.gp f.gn) atom scalar f)

theorem aims_of {f : MWord} {atom scalar : Bool} {need : Need} {attr : W64 → Nat → Bool} {s : State} {k : Group}
    (h : (lanesRes (checks f atom scalar need attr s k).2).isNone = true) :
    Aims g0 f atom scalar need attr (fetched s k f) k (k.lanesOn f.gp f.gn) (checks f atom scalar need attr s k).1
      (lanesOk (checks f atom scalar need attr s k).2) := ⟨rfl, Option.isNone_iff_eq_none.1 h, rfl⟩

/-- The core holds the line of 0x10080 in state `st`, with the bytes 1, 2, 3, … -/
def core0 (st : Mesi) : Core := { Core.reset with l1 := [(513, { st := st, data := lineOf fun i => BitVec.ofNat 8 (i + 1), commons := false })] }
def sL1 (st : Mesi) : State := { s0 with cores := [(5, core0 st)], dir := if st = .s then [] else [(513, { DirEntry.reset with st := .owned 5 })] }

def ldF : MWord := mw 3 0x102 5 0 0
/-- The load of word s2 = 5 bytes further is misaligned; index ZERO is not. -/
def ldZ : MWord := mw 3 0x1FF 5 0 4
def sldZ : MWord := mw 3 0x1FF 0x105 0 4

def loadPremises (f : MWord) (scalar : Bool) (s : State) (k : Group) : Bool :=
  let c := checks f false scalar .r (attrPlain (szBytes f.sz)) s k
  let as := lanesOk c.2
  !(as.any fun a => c.1.onDevice a.2.2.1) && !sameLine k as

theorem witness_load_present : ∃ k s1 act s2 as, Issues (loadIss ldZ g0 false (sL1 .s)) g0 (sL1 .s) k s1 act ∧
    Aims g0 ldZ false false .r (attrPlain 4) s1 k act s2 as ∧ as.any (fun a => s2.onDevice a.2.2.1) = false ∧ sameLine k as = false ∧
    (k.loads.any fun l => readsSame l as 4) = false ∧ loadMissing (demandRead s2 5 (as.map fun a => lineNo a.2.2.1)) g0 k as 4 = [] ∧
    loadPoison (demandRead s2 5 (as.map fun a => lineNo a.2.2.1)) g0 k as 4 = none ∧
    (readHomes (demandRead s2 5 (as.map fun a => lineNo a.2.2.1)) 5
      (homeLanes (demandRead s2 5 (as.map fun a => lineNo a.2.2.1)) (fun _ _ => false) as 4) 4).2 = true :=
  ⟨k0, fetched (sL1 .s) k0 ldZ, _, _, _, ready_issues (by decide +kernel) (by decide +kernel), aims_of (by decide +kernel),
    by decide +kernel, by decide +kernel, by decide +kernel, by decide +kernel, by decide +kernel, by decide +kernel⟩

/-- The page of attribute uncached, its line owned by core 6: the home asks for it, and the load waits. -/
def sUc : State :=
  { s0 with
    tlb := tlb0.map fun e => if e.fetch then e else { e with leaf := leaf0 0x10000 3 }
    dir := [(513, { DirEntry.reset with st := .owned 6 })] }

theorem witness_load_home_busy : ∃ k s1 act s2 as, Issues (loadIss sldZ g0 true sUc) g0 sUc k s1 act ∧
    Aims g0 sldZ false true .r (attrPlain 4) s1 k act s2 as ∧ as.any (fun a => s2.onDevice a.2.2.1) = false ∧ sameLine k as = false ∧
    loadMissing s2 g0 k as 4 = [] ∧ loadPoison s2 g0 k as 4 = none ∧
    (readHomes s2 5 (homeLanes s2 (fun _ _ => false) as 4) 4).2 = false :=
  ⟨k0, fetched sUc k0 sldZ, _, _, _, ready_issues (by decide +kernel) (by decide +kernel), aims_of (by decide +kernel),
    by decide +kernel, by decide +kernel, by decide +kernel, by decide +kernel, by decide +kernel⟩

/-- The home forwards a FwdGetS to the owner, and the path stays at the load. -/
theorem test_load_home_busy : (match exec (.sld g0 sldZ) sUc with
    | .next t => (t.net.map fun m => (m.kind, m.dst), (t.group? g0).map (·.pc))
    | _ => ([], none)) = ([(.fwdGetS, some 6)], some 0x10000) := by decide +kernel

theorem witness_load_missing : ∃ k s1 act s2 as, Issues (loadIss sldZ g0 true s0) g0 s0 k s1 act ∧
    Aims g0 sldZ false true .r (attrPlain 4) s1 k act s2 as ∧ as.any (fun a => s2.onDevice a.2.2.1) = false ∧ sameLine k as = false ∧
    loadMissing s2 g0 k as 4 ≠ [] :=
  ⟨k0, fetched s0 k0 sldZ, _, _, _, ready_issues (by decide +kernel) (by decide +kernel), aims_of (by decide +kernel),
    by decide +kernel, by decide +kernel, by decide +kernel⟩

/-- A page of the tally window: attribute device. -/
def sDev : State := { s0 with tlb := tlb0.map fun e => if e.fetch then e else { e with leaf := BitVec.ofNat 64 (5 + 0x0C00_3000_0000 + 3 * 2 ^ 48 + 4 * 2 ^ 51) } }
def ldD : MWord := { mw 3 0x1FF 0x105 0 0 with sz := 5 }

theorem witness_load_device : ∃ k s1 act s2 as, Issues (loadIss ldD g0 true sDev) g0 sDev k s1 act ∧
    Aims g0 ldD false true .r (attrPlain 8) s1 k act s2 as ∧ as.any (fun a => s2.onDevice a.2.2.1) = true ∧ k.memBusy = false ∧
    s2.sbOf g0 = [] :=
  ⟨k0, fetched sDev k0 ldD, _, _, _, ready_issues (by decide +kernel) (by decide +kernel), aims_of (by decide +kernel),
    by decide +kernel, by decide +kernel, by decide +kernel⟩

theorem witness_prefetch : ∃ k s1 act, Issues (pfIss (mw 3 0x1FF 0x1FF 0 4) g0 s0) g0 s0 k s1 act := ready_exists (by decide +kernel)

theorem witness_store : ∃ k s1 act s2 as, Issues (storeIss ldZ g0 false s0) g0 s0 k s1 act ∧
    Aims g0 ldZ false false .w (attrPlain 4) s1 k act s2 as ∧
    (as.any (fun a => s2.onDevice a.2.2.1) = true → k.memBusy = false ∧ s2.sbOf g0 = []) ∧ sameLine k as = false ∧
    (isRel ldZ.mark ldZ.scope = true → k.reqs = []) ∧ (s2.core 5).sb.length + (storeLines as).length ≤ Config.sbEntries :=
  ⟨k0, fetched s0 k0 ldZ, _, _, _, ready_issues (by decide +kernel) (by decide +kernel), aims_of (by decide +kernel),
    by decide +kernel, by decide +kernel, by decide +kernel, by decide +kernel⟩

/-- The atomic operation word: AOP, LOC, VAL, CMP (*Table 4-7*). -/
def aw (aop loc val cmp : Nat) : W64 := BitVec.ofNat 64 (aop * 2 ^ 56 + loc * 2 ^ 54 + val * 2 ^ 9 + cmp)
def atF (loc : Nat) (base : Nat) : MWord := { mw base 0x1FF 0x105 0 0 with ext := some (aw 0 loc 0x102 0x1FF) }

theorem witness_atomic_larder : ∃ k s1 act, Issues (atomIss s0 g0 (atF 2 0) true) g0 s0 k s1 act ∧ isRel (atF 2 0).mark (atF 2 0).scope = false ∧
    lanesRes ((memAddrs k act true true (atF 2 0)).map fun a => larderLane (szBytes (atF 2 0).sz) a.1 a.2) = none ∧
    (∀ a ∈ lanesOk ((memAddrs k act true true (atF 2 0)).map fun a => larderLane (szBytes (atF 2 0).sz) a.1 a.2),
        scoreHolds (s1.core 5) a.2.1 (szBytes (atF 2 0).sz) true = false ∧ larderPoisoned (s1.core 5) a.2.1 (szBytes (atF 2 0).sz) = false) :=
  ⟨k0, fetched s0 k0 (atF 2 0), k0.lanesOn 0 false, ready_issues (by decide +kernel) (by decide +kernel), by decide +kernel,
    Option.isNone_iff_eq_none.1 (by decide +kernel), by decide +kernel⟩

theorem witness_atomic_l1 : ∃ k s1 act s2 as, Issues (atomIss (sL1 .m) g0 (atF 0 3) true) g0 (sL1 .m) k s1 act ∧
    Aims g0 (atF 0 3) true true .rw (attrAtom 0) s1 k act s2 as ∧ (∀ a ∈ as, ∀ e ∈ s2.sbOf g0, e.line ≠ lineNo a.2.2.1) ∧
    (∀ a ∈ as, ownsLine s2 5 (lineNo a.2.2.1) = true ∧ s2.poisoned none a.2.2.1 (szBytes (atF 0 3).sz) = false) :=
  ⟨k0, fetched (sL1 .m) k0 (atF 0 3), _, _, _, ready_issues (by decide +kernel) (by decide +kernel), aims_of (by decide +kernel),
    by decide +kernel, by decide +kernel⟩

theorem witness_atomic_l1_asks : ∃ k s1 act s2 as, Issues (atomIss s0 g0 (atF 0 3) true) g0 s0 k s1 act ∧
    Aims g0 (atF 0 3) true true .rw (attrAtom 0) s1 k act s2 as ∧ (∀ a ∈ as, ∀ e ∈ s2.sbOf g0, e.line ≠ lineNo a.2.2.1) ∧
    (∃ a ∈ as, ownsLine s2 5 (lineNo a.2.2.1) = false) :=
  ⟨k0, fetched s0 k0 (atF 0 3), _, _, _, ready_issues (by decide +kernel) (by decide +kernel), aims_of (by decide +kernel),
    by decide +kernel, (0, 0x10080, 0x10080, leaf0 0x10000 0), by decide +kernel, by decide +kernel⟩

theorem witness_atomic_near : ∃ k s1 act s2 as, Issues (atomIss s0 g0 (atF 1 3) true) g0 s0 k s1 act ∧
    Aims g0 (atF 1 3) true true .rw (attrAtom 1) s1 k act s2 as ∧ (∀ a ∈ as, ∀ e ∈ s2.sbOf g0, e.line ≠ lineNo a.2.2.1) ∧
    scatterAhead s2 g0 k = false :=
  ⟨k0, fetched s0 k0 (atF 1 3), _, _, _, ready_issues (by decide +kernel) (by decide +kernel), aims_of (by decide +kernel), by decide +kernel,
    by decide +kernel⟩

def lldF : MWord := mw 0 1 5 2 0
def rowF (data : Nat) : MWord := { mw 0 0x1FF data 0 512 with sz := 6 }

theorem witness_larder_view :
    (∃ k s1 act, Issues (larderIss s0 g0 lldF .load false false) g0 s0 k s1 act ∧
      (lanesRes ((memAddrs k act false false lldF).map fun a => larderLane 4 a.1 a.2)).isNone = true) ∧
    (∃ k s1 act, Issues (larderIss s0 g0 lldF .store false true) g0 s0 k s1 act ∧ larderRel s1 g0 k lldF = false) ∧
    (∃ k s1 act, Issues (larderIss s0 g0 (rowF 8) .load true false) g0 s0 k s1 act ∧ effAddr k false (rowF 8) 0 = 512) ∧
    (∃ k s1 act, Issues (larderIss s0 g0 (rowF 8) .store true true) g0 s0 k s1 act ∧ larderRel s1 g0 k (rowF 8) = false) :=
  ⟨⟨k0, _, _, ready_issues (by decide +kernel) (by decide +kernel), by decide +kernel⟩,
   ⟨k0, _, _, ready_issues (by decide +kernel) (by decide +kernel), by decide +kernel⟩,
   ⟨k0, _, _, ready_issues (by decide +kernel) (by decide +kernel), by decide +kernel⟩,
   ⟨k0, _, _, ready_issues (by decide +kernel) (by decide +kernel), by decide +kernel⟩⟩

/-- The word at byte 4 of the line is 08 07 06 05. -/
theorem test_ld : vAfter (.ld g0 ldZ) (sL1 .s) 5 9 = some 0x0807_0605 := by decide +kernel
/-- A store changes no byte of memory and leaves one entry. -/
theorem test_st : (match exec (.st g0 { ldZ with data := 1 }) s0 with
    | .next t => (t.mem, (t.core 5).sb.map fun e => (e.line, e.mask, entryWord e))
    | _ => ([], [])) = ([], [(513, 0xF0#128, 32)]) := by decide +kernel
/-- A misaligned lane faults with 0x0403 at its address. -/
theorem test_ld_misaligned : (after (.ld g0 ldF) s0).map (·.mode) =
    some (.parking { reason := 6, status := 0x0403, addr := 0x10085, aux := 0 }) := by decide +kernel
/-- ADD on an owned line: the old word 0x04030201 goes to s5, the line holds 0x04030206. -/
theorem test_satom_l1 : (match exec (.satom g0 (atF 0 3)) (sL1 .m) with
    | .next t => (((t.group? g0).map fun k => k.s 5), leNat ((t.read none 0x10080 4)))
    | _ => (none, 0)) = (some 0x0403_0201, 0x0403_0206) := by decide +kernel

/-! ## Classes T, C and Y: s6 names tally 1, whose value is 10; s7 holds 12, s8 names the watch 0 -/

def tal1 : Tally := { Tally.reset with alloc := true, tag := 1, value := 10, owner := some 1 }
def kT : Group := { k0 with sregs := [(2, 5), (3, 0x10080), (6, 32769), (7, 12), (8, 1)] }
def watch0 : Watch := { Watch.reset with alloc := true, tag := 1, tally := 1, ctx := 1, threshold := 40 }
def sT : State := { sWith kT with tallies := [(1, tal1)], parts := [(0, { part0 with watchQuota := 8, tallyQuota := 8 })] }
/-- With watch 0 registered for the Steward. -/
def sTW : State := { sT with watches := [(0, watch0)] }

theorem names1 {s1 : State} {k : Group} {f : RWord} (h : s1.tallyOf k.ctx (k.opS f.ext f.a).toNat = some 1)
    (hd : s1.deadEps = []) (hr : isRel (tlyMark f.mod) (tlyScope f.mod) = false) : Names g0 f s1 k 1 :=
  ⟨h, by rw [hd]; rfl, by rw [hr]; exact nofun⟩

theorem witness_tally_add : ∃ k s1 act n, Issues (tlyIss sT g0 (rw 0x106 0x107 0x1FF 0x105 0) [.s, .x] [.z] [.s, .z] true true false 1)
    g0 sT k s1 act ∧ Names g0 (rw 0x106 0x107 0x1FF 0x105 0) s1 k n :=
  ⟨kT, _, _, 1, ready_issues (by decide +kernel) (by decide +kernel), names1 (by decide +kernel) (by decide +kernel) (by decide +kernel)⟩

theorem witness_tally_read : ∃ k s1 act n, Issues (tlyReadIss sT g0 (rw 0x106 0x1FF 0x1FF 0x105 0)) g0 sT k s1 act ∧
    Names g0 (rw 0x106 0x1FF 0x1FF 0x105 0) s1 k n :=
  ⟨kT, _, _, 1, ready_issues (by decide +kernel) (by decide +kernel), names1 (by decide +kernel) (by decide +kernel) (by decide +kernel)⟩

/-- RCV 0: the path waits, or is told at once when the watch is met; RCV 1: an index that names no NOTIFY queue; RCV 2. -/
theorem witness_tally_watch :
    (∃ k s1 act, Issues (tlyWatchIss sT g0 (rw 0x106 0x107 0x1FF 0x105 0)) g0 sT k s1 act ∧ Names g0 (rw 0x106 0x107 0x1FF 0x105 0) s1 k 1 ∧
      (register s1 1 k.ctx 12 false (.path 0 0 0) 0).2 = some 0 ∧
      ((register s1 1 k.ctx 12 false (.path 0 0 0) 0).1.watch 0).bell = none) ∧
    (∃ k s1 act, Issues (tlyWatchIss sT g0 (rw 0x106 0x102 0x1FF 0x105 0)) g0 sT k s1 act ∧
      ((register s1 1 k.ctx 5 false (.path 0 0 0) 0).1.watch 0).bell ≠ none) ∧
    (∃ k s1 act, Issues (tlyWatchIss sT g0 (rw 0x106 0x107 0x102 0x105 4)) g0 sT k s1 act ∧ s1.notifyQueue k.ctx 5 = none) ∧
    (∃ k s1 act, Issues (tlyWatchIss sT g0 (rw 0x106 0x107 0x1FF 0x105 8)) g0 sT k s1 act ∧ tlyRcv (8 : BitVec 9) = 2) :=
  ⟨⟨kT, _, _, ready_issues (by decide +kernel) (by decide +kernel), names1 (by decide +kernel) (by decide +kernel) (by decide +kernel),
      by decide +kernel, by decide +kernel⟩,
    ⟨kT, _, _, ready_issues (by decide +kernel) (by decide +kernel), by decide +kernel⟩,
    ⟨kT, _, _, ready_issues (by decide +kernel) (by decide +kernel), by decide +kernel⟩,
    ⟨kT, _, _, ready_issues (by decide +kernel) (by decide +kernel), by decide +kernel⟩⟩

theorem witness_tally_cancel : ∃ k s1 act, Issues (tlyIss sTW g0 (rw 0x108 0x1FF 0x1FF 0x105 0) [.z] [.z] [.s, .z] false false false 1)
    g0 sTW k s1 act ∧ cancellable s1 k.ctx 1 = true ∧ cancellable s1 k.ctx 2 = false :=
  ⟨kT, _, _, ready_issues (by decide +kernel) (by decide +kernel), by decide +kernel, by decide +kernel⟩

def bw (tgt rcv : Int) : BWord :=
  { ext := none, gp := 0, gn := false, hi := 0, tgt := BitVec.ofInt 22 tgt, rcv := BitVec.ofInt 22 rcv, lo := 0 }
def xw (a dst ext : Nat) : RWord := { rw a 0x1FF 0x1FF dst 0 with ext := some (BitVec.ofNat 64 ext) }

/-- Uniform, and divergent under the guard p1, with and without a reconvergence address. -/
theorem witness_bra :
    (∃ k s1 act, Issues (bIss (bw 4 0) [] true) g0 s0 k s1 act ∧
      diverges k act (fun _ => bTarget k (bw 4 0)) (nextPc k none) = false) ∧
    (∃ k s1 act, Issues (bIss { bw 4 4 with gp := 1 } [] true) g0 s0 k s1 act ∧
      diverges k act (fun _ => bTarget k (bw 4 4)) (nextPc k none) = true ∧ (bw 4 4).rcv ≠ 0 ∧ (bw 4 0).rcv = 0) :=
  ⟨⟨k0, _, _, ready_issues (by decide +kernel) (by decide +kernel), by decide +kernel⟩,
    ⟨k0, _, _, ready_issues (by decide +kernel) (by decide +kernel), by decide +kernel, by decide +kernel, by decide +kernel⟩⟩

theorem witness_call : ∃ k s1 act, Issues (bIss (bw 4 0) (regsOf ((bw 4 0).rcv.extractLsb' 13 9) 2)
    (accepts (s0.vregsOf g0) false [.pr] ((bw 4 0).rcv.extractLsb' 13 9) && decide (bits (bw 4 0).rcv 12 0 = 0))) g0 s0 k s1 act :=
  ready_exists (by decide +kernel)

def kX : Group := { k0 with sregs := [(5, 0x10100)], vfile := [(6, lanes fun _ => 0x10100)] }
theorem no_target_fault {k : Group} {f : RWord} {act : W32} (h : ((maskList act).all fun i => (targetFault k f i).isNone) = true) :
    ∀ i ∈ maskList act, targetFault k f i = none := fun i hi => Option.isNone_iff_eq_none.1 (List.all_eq_true.1 h i hi)

theorem witness_brx_callx_ret :
    (∃ k s1 act, Issues (xIss (sWith kX) g0 (xw 0x105 0x1FF 0x10200) [.s, .pr] [.z] true) g0 (sWith kX) k s1 act ∧
      ∀ i ∈ maskList act, targetFault k (xw 0x105 0x1FF 0x10200) i = none) ∧
    (∃ k s1 act, Issues (xIss (sWith kX) g0 (rw 0x105 0x1FF 0x1FF 8 0) [.s, .pr] [.pr] false) g0 (sWith kX) k s1 act ∧
      ∀ i ∈ maskList act, targetFault k (rw 0x105 0x1FF 0x1FF 8 0) i = none) ∧
    (∃ k s1 act, Issues (xIss (sWith kX) g0 (xw 6 0x1FF 0x10200) [.pr] [.z] true) g0 (sWith kX) k s1 act ∧
      ∀ i ∈ maskList act, targetFault k (xw 6 0x1FF 0x10200) i = none) := by
  exact ⟨⟨kX, _, kX.lanesOn 0 false, ready_issues (by decide +kernel) (by decide +kernel), no_target_fault (by decide +kernel)⟩,
    ⟨kX, _, kX.lanesOn 0 false, ready_issues (by decide +kernel) (by decide +kernel), no_target_fault (by decide +kernel)⟩,
    ⟨kX, _, kX.lanesOn 0 false, ready_issues (by decide +kernel) (by decide +kernel), no_target_fault (by decide +kernel)⟩⟩

theorem witness_uniform_branch : k0.active = some 0 ∧ k0.path? 0 = some path0 ∧ path0.parent = none ∧ path0.kind = .run ∧
    path0.mask ≠ 0 ∧ path0.mask &&& ~~~(0xFFFF_FFFF : W32) = 0 := by decide +kernel

def noMod (f : RWord) : Bool := decide (f.mod = 0)
def rwZ : RWord := rw 0x1FF 0x1FF 0x1FF 0x1FF 0

/-- All threads end, or under p1 only threads 0 to 3. -/
theorem witness_exit :
    (∃ k s1 act, Issues (sysIss s0 g0 rwZ [.z] [.z] .ender false (decide (rwZ.mod = 0))) g0 s0 k s1 act ∧
      (endThreads (useTurn k) act).live = 0 ∧ s1.quiet g0 k = true) ∧
    (∃ k s1 act, Issues (sysIss s0 g0 { rwZ with gp := 1 } [.z] [.z] .ender false (decide (rwZ.mod = 0))) g0 s0 k s1 act ∧
      (endThreads (useTurn k) act).live ≠ 0 ∧
      (k.active.bind (endThreads (useTurn k) act).path?).isSome = true) :=
  ⟨⟨k0, _, _, ready_issues (by decide +kernel) (by decide +kernel), by decide +kernel, by decide +kernel⟩,
    ⟨k0, _, _, ready_issues (by decide +kernel) (by decide +kernel), by decide +kernel, by decide +kernel⟩⟩

/-- Two paths: when the active one's threads all end, no entry is left of it. -/
def k2 : Group := { k0 with
  stack := [(0, { path0 with mask := 0x0000_FFFF }), (1, { path0 with mask := 0xFFFF_0000, pc := 0x10040 })] }
theorem witness_exit_path : ∃ k s1 act, Issues (sysIss (sWith k2) g0 rwZ [.z] [.z] .ender false (decide (rwZ.mod = 0))) g0 (sWith k2) k s1 act ∧
    (endThreads (useTurn k) act).live ≠ 0 ∧
    (k.active.bind (endThreads (useTurn k) act).path?).isNone = true :=
  ⟨k2, _, _, ready_issues (by decide +kernel) (by decide +kernel), by decide +kernel, by decide +kernel⟩

/-- The active of two paths has had 96 opportunities and stands at a backward branch. -/
def k96 : Group := { k2 with opp := 96, sregs := [(5, 0x10000)], vfile := [(6, lanes fun _ => 0x10000)] }
theorem witness_backward_turn :
    (∃ k s1 act, Issues (bIss (bw (-1) 4) [] true) g0 (sWith k96) k s1 act ∧ backTurn k [bTarget k (bw (-1) 4)] = true) ∧
    (∃ k s1 act, Issues (bIss (bw (-1) 0) (regsOf ((bw (-1) 0).rcv.extractLsb' 13 9) 2)
      (accepts ((sWith k96).vregsOf g0) false [.pr] ((bw (-1) 0).rcv.extractLsb' 13 9) && decide (bits (bw (-1) 0).rcv 12 0 = 0))) g0
      (sWith k96) k s1 act ∧ backTurn k [bTarget k (bw (-1) 0)] = true) ∧
    (∃ k s1 act, Issues (xIss (sWith k96) g0 (xw 6 0x1FF 0x10200) [.pr] [.z] true) g0 (sWith k96) k s1 act ∧
      (∀ i ∈ maskList act, targetFault k (xw 6 0x1FF 0x10200) i = none) ∧
      backTurn k ((maskList act).map fun i => va (xTarget k (xw 6 0x1FF 0x10200) i)) = true) :=
  ⟨⟨k96, _, _, ready_issues (by decide +kernel) (by decide +kernel), by decide +kernel⟩,
    ⟨k96, _, _, ready_issues (by decide +kernel) (by decide +kernel), by decide +kernel⟩,
    ⟨k96, _, k96.lanesOn 0 false, ready_issues (by decide +kernel) (by decide +kernel), no_target_fault (by decide +kernel), by decide +kernel⟩⟩
/-- The branch does not issue, and its path is marked; it keeps its pc. -/
theorem test_backward_turn : (after (.bra g0 (bw (-1) 4)) (sWith k96)).map (fun k => k.stack.map fun e => (e.2.pc, e.2.turn)) =
    some [(0x10000, .backward), (0x10040, .go)] := by decide +kernel

theorem witness_barrier : ∃ k s1 act, Issues (sysIss s0 g0 { rwZ with mod := 7 } [.z] [.z] .ender false (decide (bits (7 : BitVec 9) 8 3 = 0)))
    g0 s0 k s1 act := ready_exists (by decide +kernel)

def spinF : RWord := rw 0x103 0x102 0x1FF 0x1FF 0
/-- Is `f` a SPIN on a present word that equals its comparand, differs from it, or lacks its line? -/
def spinCase (s : State) (k : Group) (f : RWord) : Option Bool :=
  match laneAccess (fetch s g0 k 8).1 g0 k .r 4 attrSpin 0 0x10080 with
  | (s2, .ok 0 v pa leaf) =>
    if sameLine k [(0, v, pa, leaf)] || (k.loads.any fun l => readsSame l [(0, v, pa, leaf)] 4) || k.incomplete k.ordSeq ||
        (loadPoison s2 g0 k [(0, v, pa, leaf)] 4).isSome then none
    else if (loadMissing s2 g0 k [(0, v, pa, leaf)] 4).length = 1 then some false
    else if loadMissing s2 g0 k [(0, v, pa, leaf)] 4 = [] ∧
        (readHomes s2 5 (homeLanes s2 (fun a pa => (forwarded s2 g0 k a pa).isSome) [(0, v, pa, leaf)] 4) 4).2 = true then
      some (decide (spinWord s2 g0 k v pa leaf = bits (k.opS none f.b) 31 0))
    else none
  | _ => none

theorem witness_spin_cases : spinCase (sL1 .s) k0 spinF = some false ∧ spinCase s0 k0 spinF = some false ∧
    spinCase (sL1 .s) { k0 with sregs := [(2, 0x0403_0201), (3, 0x10080)] } spinF = some true ∧
    ready (sysIss (sL1 .s) g0 spinF [.s] [.s] .ender true (decide (spinF.mod = 0))) g0 (sL1 .s) = true := by decide +kernel

theorem witness_spin : ∃ k s1 act, Issues (sysIss s0 g0 spinF [.s] [.s] .ender true (decide (spinF.mod = 0))) g0 s0 k s1 act ∧
    (match laneAccess s1 g0 k .r 4 attrSpin 0 0x10080 with
     | (s2, .ok 0 v pa leaf) => decide (v = 0x10080) && decide (pa = 0x10080) && !sameLine k [(0, v, pa, leaf)] &&
        (loadPoison s2 g0 k [(0, v, pa, leaf)] 4).isNone && decide (spinWord s2 g0 k v pa leaf ≠ bits (k.opS none spinF.b) 31 0)
     | _ => false) = true :=
  ⟨k0, _, _, ready_issues (by decide +kernel) (by decide +kernel), by decide +kernel⟩

theorem witness_fence : ∃ k s1 act, Issues (sysIss s0 g0 { rwZ with mod := 0x40 } [.z] [.z] .ender true (fenceModOk { rwZ with mod := 0x40 })) g0 s0 k s1 act ∧
    s1.unitOps g0 = false ∧ fenceScope { rwZ with mod := 0x40 } ≠ 0 ∧ s1.sbOf g0 = [] ∧ k.reqs = [] ∧
    ((s1.core 5).nsa.any fun r => decide (r.slot = 3)) = false :=
  ⟨k0, _, _, ready_issues (by decide +kernel) (by decide +kernel), by decide +kernel, by decide +kernel, by decide +kernel, by decide +kernel,
    by decide +kernel⟩

theorem witness_illegal : s0.group? g0 = some k0 ∧ canIssue s0 k0 = true ∧ k0.ra = none ∧ decodeCore g0 0 none = none ∧
    (fetch s0 g0 k0 (instrLen none)).2.isNone = true := by decide +kernel

/-- 10 + 12 = 22; the value before is 10. -/
theorem test_tally_add : (match exec (.tlyAdd g0 (rw 0x106 0x107 0x1FF 0x105 0)) sT with
    | .next t => ((t.tally 1).value, (t.group? g0).map fun k => k.s 5)
    | _ => (0, none)) = (22, some 10) := by decide +kernel
/-- SUB below zero: the value is 0 and UNDER is set. -/
theorem test_tally_sub_under : (match exec (.tlySub g0 (rw 0x106 0x107 0x1FF 0x105 0)) sT with
    | .next t => ((t.tally 1).value, (t.tally 1).under)
    | _ => (0, false)) = (0, true) := by decide +kernel
/-- The reading context owns the tally: flags 0. -/
theorem test_tally_read : (after (.tlyRead g0 (rw 0x106 0x1FF 0x1FF 0x105 0)) sT).map (fun k => (k.s 5, k.s 6)) = some (10, 0) := by decide +kernel
theorem test_bra_diverges : (after (.bra g0 { bw 4 8 with gp := 1 }) s0).map (fun k => k.stack.map fun e => (e.2.pc, e.2.mask)) =
    some [(0x10040, 0xFFFF_FFFF), (0x10020, 0xF), (0x10008, 0xFFFF_FFF0)] := by decide +kernel
theorem test_call_link : (after (.call g0 (bw (-2) (6 * 2 ^ 13))) s0).map (fun k => (k.pc, laneOf (k.v 6) 4, laneOf (k.v 7) 4)) =
    some (0xFFF0, 0x10008, 0) := by decide +kernel
theorem test_exit_all : after (.exitOp g0 rwZ) s0 = none := by decide +kernel
theorem test_brk : (after (.brk g0 rwZ) s0).map (fun k => (k.debug, k.pc)) = some (true, 0x10008) := by decide +kernel

/-! ## Events at a core -/

/-- The active path has used its 128 opportunities and path 1 is runnable. -/
def kSw : Group := { k2 with opp := 128 }
theorem witness_path_switch : (sWith kSw).group? g0 = some kSw ∧ kSw.mode = .running ∧ 128 ≤ kSw.opp ∧
    longestWait (kSw.stack.filter fun e => decide (kSw.active ≠ some e.1)) runnable =
      some (1, { path0 with mask := 0xFFFF_0000, pc := 0x10040 }) := by decide +kernel
def withTurn (u : Turn) : Group := { k2 with stack := tput k2.stack 0 { path0 with mask := 0x0000_FFFF, turn := u } }
/-- The active path waits for a value and the other path is ready; or it stands at a backward branch. -/
theorem witness_path_switch_early :
    ((withTurn (.stalled [0x105])).activePath.map (·.turn) = some (.stalled [0x105]) ∧ otherReady (withTurn (.stalled [0x105])) = true) ∧
    (withTurn .backward).activePath.map (·.turn) = some .backward := by decide +kernel

def kSpin : Group := { k0 with active := none, stack := [(0, { path0 with kind := .spin (some 513) })] }
theorem witness_spin_timeout : (sWith kSpin).group? g0 = some kSpin ∧ kSpin.mode = .running ∧
    kSpin.path? 0 = some { path0 with kind := .spin (some 513) } := by decide +kernel

def kBar : Group := { k0 with bars := [(7, { arrived := 0xF, count := 0, since := 0 })] }
/-- The island has counted 2^24 cycles, or none yet. -/
def sStall : State := { sWith kBar with reeve := { Reeve.reset with islands := [(0, { Island.reset with cycles := 2 ^ 24 })] } }
theorem witness_barrier_stall : sStall.group? g0 = some kBar ∧ kBar.mode = .running ∧
    tfind kBar.bars 7 = some { arrived := 0xF, count := 0, since := 0 } ∧
    2 ^ kBar.barWdog ≤ Barrier.at { arrived := 0xF, count := 0, since := 0 } (islandCycles sStall 5) ∧
    Barrier.at { arrived := 0xF, count := 0, since := 0 } (islandCycles (sWith kBar) 5) < 2 ^ kBar.barWdog := by decide +kernel

def ra0 : RunAhead :=
  { load := 0, resume := 0x10000, sregs := [], vregs := [], preds := [], stack := [(0, path0)], active := some 0, writtenS := [], writtenV := [],
    invalid := [], issued := 512 }
def kRa : Group := { k0 with ra := some ra0 }
theorem witness_run_ahead_limit : (sWith kRa).group? g0 = some kRa ∧ kRa.ra = some ra0 ∧ raSpent ra0 (raLimit (sWith kRa) g0 kRa) = true := by
  decide +kernel

def load0 : PendingLoad :=
  { id := 0, seq := 0, pc := 0x10000, dst := 0x105, sz := 4, scalar := true, addrs := [(0, 0x10084, 0x10084)], known := [], acq := false, noticed := false,
    snap := { live := 0, barWdog := 24, runAheadMax := 0, bars := [], preds := [], sregs := [], vfile := [], stack := [], active := none, opp := 0 } }
def kLoad : Group := { k0 with loads := [load0], seq := 1 }
def sLoad : State := { sWith kLoad with cores := [(5, core0 .s)] }

/-- The path waits for s5, the notice for the load's line has come, and nothing else is ready. -/
def kMiss : Group := { kLoad with stack := [(0, { path0 with turn := .stalled [0x105] })] }
def kMiss1 : Group := { kMiss with loads := [{ load0 with noticed := true }] }
def sMiss : State := { sWith kMiss with cores := [(5, { Core.reset with notes := [513] })] }
theorem witness_miss_notice : sMiss.group? g0 = some kMiss ∧ (kMiss.loads.find? fun x => decide (x.id = 0)) = some load0 ∧
    (load0.addrs.any fun a => (sMiss.core 5).notes.contains (lineNo a.2.2.toNat)) = true := by decide +kernel
theorem witness_starved : Starved (sMiss.setGroup g0 kMiss1) g0 kMiss1 { load0 with noticed := true } :=
  ⟨by decide +kernel, by decide +kernel, by decide +kernel, by decide +kernel, by decide +kernel, by decide +kernel⟩
/-- The path does not wait for the load: no run-ahead. -/
theorem witness_not_starved : ∀ l s1, ¬Starved s1 g0 { kLoad with loads := [{ load0 with noticed := true }] } l := by
  intro l s1 h
  have h1 := h.missed
  rw [show missedLoad { kLoad with loads := [{ load0 with noticed := true }] } = none by decide +kernel] at h1
  exact nomatch h1
theorem test_miss_notice : (match exec (.missNotice g0 0) sMiss with
    | .next t => (t.group? g0).map fun k => (k.ra.map fun r => (r.load, r.resume, r.issued))
    | _ => none) = some (some (0, 0x10000, 0)) := by decide +kernel

theorem witness_load_arrives : arrivalMissing sLoad g0 kLoad load0 = [] ∧ arrivalPoison sLoad g0 kLoad load0 = none ∧
    arrivalMissing (sWith kLoad) g0 kLoad load0 ≠ [] ∧ olderSame kLoad load0 = false ∧
    (readHomes sLoad 5 (homeLanes sLoad (fun _ pa => (load0.knownByte pa).isSome) (arrivalLanes sLoad g0 kLoad load0) 4) 4).2 = true := by
  decide +kernel
/-- An older load of the same word is still pending (R302). -/
theorem witness_load_older : let k := { kLoad with loads := [load0, { load0 with id := 1, seq := 1 }] }
    olderSame k { load0 with id := 1, seq := 1 } = true ∧
    arrivalMissing { sWith k with cores := [(5, core0 .s)] } g0 k { load0 with id := 1, seq := 1 } = [] := by decide +kernel

/-- The sector of the load is poisoned: at once a fault, on a commons page a park. -/
theorem witness_load_poison : arrivalMissing { sLoad with poison := [0x10080 / 32] } g0 kLoad load0 = [] ∧
    (arrivalPoison { sLoad with poison := [0x10080 / 32] } g0 kLoad load0).map (fun a => leafCommons a.2.2.2) = some false ∧
    (arrivalPoison { sLoad with poison := [0x10080 / 32], tlb := sLoad.tlb.map fun e => { e with leaf := e.leaf ||| (1 <<< 56) } } g0 kLoad load0).map
      (fun a => leafCommons a.2.2.2) = some true := by decide +kernel

def kPark : Group := { k0 with mode := .parking { reason := 6, status := 0x0504, addr := 0x10000, aux := 0 } }
theorem witness_park_complete : (sWith kPark).group? g0 = some kPark ∧ ((sWith kPark).sbOf g0).all (tentative kPark) = true ∧
    (sWith kPark).ctx? kPark.ctx = some c0 := by decide +kernel
theorem witness_park_complete_migrate : let k := { k0 with mode := .parking { reason := 2, status := 0, addr := 0, aux := 0 } }
    ((sWith k).sbOf g0).all (tentative k) = true ∧ k.reqs = [] ∧ (sWith k).unitOps g0 = false := by decide +kernel

def bell0 : BellRec := { value := 40, time := 0, watch := 1, tally := 32769, arg := 0, status := 0, flags := 0 }
def sBell : State := { sT with watches := [(0, { watch0 with bell := some bell0, rcv := .path 0 0 0 })], bells := [0] }
theorem witness_group_wake : (sBell.watch 0).bell = some bell0 ∧ (sBell.watch 0).rcv = .path 0 0 0 ∧ sBell.firstBell 0 = true := by
  decide +kernel

def req0 : Req := { id := 0, seq := 0, atom := true, pa := 0x10080, lane := 0, dst := some 0x105, sz := 4, acq := false, answer := some 33 }
def kReq : Group := { k0 with reqs := [req0] }
theorem witness_write_ack : (sWith kReq).group? g0 = some kReq ∧ (kReq.reqs.find? fun x => decide (x.id = 0)) = some req0 ∧
    req0.answer = some 33 ∧ ackWaits (sWith kReq) kReq req0 = false := by decide +kernel

/-- A store-buffer entry of the group for bytes 4 to 7 of a line. -/
def entry (line attr : Nat) (mask : BitVec 128) (size : Nat) : SbEntry :=
  { slot := 3, ctx := 1, seq := 0, after := 0, va := 0x10084, line := line, mask := mask, data := lineOf fun i => BitVec.ofNat 8 (0xA0 + i),
    attr := BitVec.ofNat 3 attr, epoch := none, size := size }
def withSb (s : State) (e : SbEntry) : State := s.modCore 5 fun c => { c with sb := [e] }

theorem witness_store_drain_owned : let s := withSb (sL1 .m) (entry 513 0 0xF0 4)
    nth? (s.core 5).sb 0 = some (entry 513 0 0xF0 4) ∧ drainable s 5 0 (entry 513 0 0xF0 4) = true ∧ s.homeStatus 0x10084 = 0 ∧
    entryAddr (entry 513 0 0xF0 4) = 0x10084 ∧ s.isHeld 0x10084 = false ∧ s.placeOf 0x10084 = .hbm 0 0 ∧
    (∃ y, tfind (s.core 5).l1 513 = some y ∧ y.dirtyOwner = true) := by
  refine ⟨by decide +kernel, by decide +kernel, by decide +kernel, by decide +kernel, by decide +kernel, by decide +kernel, _, rfl, by decide +kernel⟩

/-- What a group waits for: the request, the load, the first of its buffered stores. -/
theorem witness_endpoint_lost : reqTarget (sWith kReq) g0 kReq (.request 0) = some 0x10080 ∧ kReq.mode = .running ∧
    reqTarget sLoad g0 kLoad (.load 0) = some 0x10084 ∧
    reqTarget (withSb s0 (entry 513 1 0xF0 4)) g0 k0 (.store 0) = some 0x10084 := by decide +kernel
/-- The store leaves the buffer unperformed, and the group parks with 0x0410 and the address. -/
theorem test_store_lost : (match exec (.fenceEndpointLost g0 (.store 0)) (withSb s0 (entry 513 1 0xF0 4)) with
    | .next t => (t.mem, (t.core 5).sb, (t.group? g0).map (·.mode))
    | _ => ([], [], none)) = ([], [], some (.parking { reason := 6, status := 0x0410, addr := 0, aux := 0x10084 })) := by decide +kernel

/-- Its channel is dead: the end point refuses the store. -/
theorem witness_store_drain_refused : let s := { withSb s0 (entry 513 1 0xF0 4) with seals := [(.hbmGroup 0, .dead)] }
    drainable s 5 0 (entry 513 1 0xF0 4) = true ∧ s.homeStatus 0x10084 ≠ 0 := by decide +kernel

theorem witness_store_drain_missing : let s := withSb s0 (entry 513 0 0xF0 4)
    drainable s 5 0 (entry 513 0 0xF0 4) = true ∧ tfind (s.core 5).l1 513 = none := by decide +kernel

/-- Doorbell page of slot 0, egress page of context 1, epoch page of context 1. -/
theorem witness_store_drain_device :
    (State.reset).placeOf (entryAddr (entry (0x0C00_0000_0000 / 128) 4 0xFF 8)) = .doorbell 0 0 ∧
    (State.reset).placeOf (entryAddr (entry (0x0C00_2001_0000 / 128) 4 0xFF 8)) = .egress 65536 ∧
    (State.reset).placeOf (entryAddr (entry (0x0C00_1001_0000 / 128) 4 0xFF 8)) = .epochPage 1 0 ∧
    drainable (withSb s0 (entry (0x0C00_2001_0000 / 128) 4 0xFF 8)) 5 0 (entry (0x0C00_2001_0000 / 128) 4 0xFF 8) = true ∧
    (withSb s0 (entry (0x0C00_2001_0000 / 128) 4 0xFF 8)).homeStatus 0x0C00_2001_0000 = 0 := by decide +kernel

theorem witness_store_drain_through : let s := withSb s0 (entry 513 1 0xF0 4)
    nth? (s.core 5).sb 0 = some (entry 513 1 0xF0 4) ∧ drainable s 5 0 (entry 513 1 0xF0 4) = true ∧ WritesThrough s (entry 513 1 0xF0 4) :=
  ⟨by decide +kernel, by decide +kernel, by decide +kernel, .inl ⟨_, _, rfl⟩, rfl, by decide +kernel, by decide +kernel, .inr (by decide)⟩

/-- A write-through store lands in memory: bytes 4 to 7 read A4 to A7, byte 8 reads 0. -/
theorem test_store_drain : (match exec (.storeDrain 5 0) (withSb s0 (entry 513 1 0xF0 4)) with
    | .next t => (t.mem, (t.core 5).sb)
    | _ => ([], [])) = ([(0x10084, 0xA4), (0x10085, 0xA5), (0x10086, 0xA6), (0x10087, 0xA7)], []) := by decide +kernel
/-- The load's word reaches s5 when its line is there. -/
theorem test_load_arrival : sAfter (.loadDataArrival g0 0) sLoad 5 = some (0x0807_0605, 0x10000) := by decide +kernel
theorem test_path_switch : (after (.pathSwitch g0 1) (sWith kSw)).map (fun k => (k.active, k.pc, k.opp)) = some (some 1, 0x10040, 0) := by
  decide +kernel
/-- Reason FAULT: the context is queued for loss, the slot is empty and the record is kept. -/
theorem test_park_complete : (match exec (.parkComplete g0) (sWith kPark) with
    | .next t => (t.groups.length, t.parked.map (·.reason), t.lossQ.map (·.status))
    | _ => (9, [], [])) = (0, [6], [0x0504]) := by decide +kernel

/-! ## The mill and the sieve: X and W are 1 × 1 INT8 tiles holding 2 and 3, OUT a 1 × 1 FP32 tile -/

/-- A tile descriptor in context memory (*Table 2-6*). -/
def tileD (fmt rows cols base stride : Nat) : Nat :=
  2 ^ 504 + fmt * 2 ^ 496 + rows * 2 ^ 464 + cols * 2 ^ 448 + base * 2 ^ 384 + stride * 2 ^ 352

def xD : Nat := tileD 0x10 1 1 0x10200 16
def wD : Nat := tileD 0x10 1 1 0x10210 16
def oD : Nat := tileD 0x22 1 1 0x10220 16
/-- The operation descriptor at 0x103C0 names the tiles at 0x10300, 0x10340 and 0x10380; mode W is 0, mode A 1. -/
def millD (mode : Nat) : Nat := 2 ^ 504 + mode * 2 ^ 502 + 0x10300 * 2 ^ 424 + 0x10340 * 2 ^ 360 + 0x10380 * 2 ^ 296
def millMem (mode : Nat) : List Host.Cell :=
  putBytes (putBytes (putBytes (putBytes [(0x10200, 2), (0x10210, 3)] 0x10300 (leBytes 64 xD)) 0x10340 (leBytes 64 wD)) 0x10380 (leBytes 64 oD))
    0x103C0 (leBytes 64 (millD mode))
def kM : Group := { k0 with sregs := [(9, 0x103C0)] }
def sMill (mode : Nat) : State := { sWith kM with mem := millMem mode }
def millF : RWord := rw 0x109 0x1FF 0x1FF 0x105 0

/-- `readDescs` answers these words. -/
def answers (r : State × Sum Res (List (BitVec 512))) (ws : List (BitVec 512)) : Bool :=
  match r.2 with
  | .inr ds => decide (ds = ws)
  | .inl _ => false

theorem answers_eq {r : State × Sum Res (List (BitVec 512))} {ws : List (BitVec 512)} (h : answers r ws = true) : r = (r.1, .inr ws) := by
  obtain ⟨s, x⟩ := r
  cases x with
  | inl y => simp [answers] at h
  | inr ds => simp only [answers, decide_eq_true_eq] at h; rw [h]

def millS (mode : Nat) : State := (fetch (sMill mode) g0 kM 8).1
def millS2 (mode : Nat) : State := (readDescs g0 kM (badDesc kM) (millS mode) [0x103C0]).1

theorem witness_mill_start : ∀ row ∈ millRows, ∃ mode, mode < 2 ∧
    (∃ k s1 act, Issues (unitIss (sMill mode) g0 millF [.s, .z] (decide (millF.mod = 0))) g0 (sMill mode) k s1 act) ∧
    ((millS mode).core 5).millQ.length < 8 ∧
    readDescs g0 kM (badDesc kM) (millS mode) [0x103C0] = (millS2 mode, .inr [BitVec.ofNat 512 (millD mode)]) ∧
    millDescOk row.2 (BitVec.ofNat 512 (millD mode)) = true ∧
    answers (readDescs g0 kM (badDesc kM) (millS2 mode) [0x10300, 0x10340, 0x10380])
      [BitVec.ofNat 512 xD, BitVec.ofNat 512 wD, BitVec.ofNat 512 oD] = true ∧
    millOk row.2 (BitVec.ofNat 512 (millD mode)) (BitVec.ofNat 512 xD) (BitVec.ofNat 512 wD) (BitVec.ofNat 512 oD) = true := by
  simp only [millRows, List.forall_mem_cons, List.not_mem_nil, false_imp_iff, implies_true, and_true]
  refine ⟨⟨0, by decide, ready_exists (by decide +kernel), by decide +kernel, answers_eq (by decide +kernel), by decide +kernel, by decide +kernel, by decide +kernel⟩,
    ⟨0, by decide, ready_exists (by decide +kernel), by decide +kernel, answers_eq (by decide +kernel), by decide +kernel, by decide +kernel, by decide +kernel⟩,
    ⟨1, by decide, ready_exists (by decide +kernel), by decide +kernel, answers_eq (by decide +kernel), by decide +kernel, by decide +kernel, by decide +kernel⟩⟩

/-- A descriptor of version 0 is malformed; a descriptor whose X is not a tile is malformed with its tiles. -/
theorem witness_mill_malformed : millDescOk 1 (BitVec.ofNat 512 (millD 0 - 2 ^ 504)) = false ∧ millDescOk 1 (BitVec.ofNat 512 (millD 0)) = true ∧
    millOk 1 (BitVec.ofNat 512 (millD 0)) 0 (BitVec.ofNat 512 wD) (BitVec.ofNat 512 oD) = false := by decide +kernel

def op0 : MillOp := newMillOp 1 g0 millF kM 1 (BitVec.ofNat 512 (millD 0)) (BitVec.ofNat 512 xD) (BitVec.ofNat 512 wD) (BitVec.ofNat 512 oD)
def op1 : MillOp := { op0 with started := true }
def opS : MillOp := { op0 with fn := 0 }
def withMill (q : List MillOp) : State :=
  { sWith { kM with units := [0x105] } with mem := millMem 0, cores := [(5, { Core.reset with millQ := q, seq := 1 })] }

def reaches (r : State × Reach) : Bool := decide (r.2 = .ok)
theorem reaches_eq {r : State × Reach} (h : reaches r = true) : r = (r.1, .ok) := Prod.ext rfl (by simpa [reaches] using h)

/-- The second operation may start while the first is on its last block. -/
theorem witness_mill_op_start :
    (nextStart ((withMill [op0]).core 5).millQ = some op0 ∧ op0.fn ≠ 0 ∧
      reaches (millReach (withMill [op0]) 5 (frontOp ((withMill [op0]).core 5) op0) true) = true) ∧
    (nextStart ((withMill [op1, { opS with seq := 2 }]).core 5).millQ = some { opS with seq := 2 } ∧ opS.fn = 0 ∧
      reaches (millReach (withMill [op1, { opS with seq := 2 }]) 5 (frontOp ((withMill [op1]).core 5) { opS with seq := 2 }) true) = true) := by
  decide +kernel

theorem witness_mill_block_drain : op1.started = true ∧ op1.overflowed = false ∧ op1.block < op1.geo.blocks ∧
    reaches (millReach (withMill [op1]) 5 op1 false) = true ∧
    blockOverflows op1 (op1.sums (millReach (withMill [op1]) 5 op1 false).1 5).2 = false ∧
    (drainBlock (millReach (withMill [op1]) 5 op1 false).1 5 op1).2 = 0 := by decide +kernel

/-- FP16 output 300 × 300 = 90,000 exceeds 65,504: the block overflows. -/
def opO : MillOp := { op1 with
  xTile := BitVec.ofNat 512 (tileD 0x21 1 1 0x10200 16), wTile := BitVec.ofNat 512 (tileD 0x21 1 1 0x10210 16)
  outTile := BitVec.ofNat 512 (tileD 0x21 1 1 0x10220 16) }
def sOvf : State := { withMill [opO] with mem := [(0x10200, 0xB0), (0x10201, 0x5C), (0x10210, 0xB0), (0x10211, 0x5C)] }
theorem witness_mill_overflow : opO.started = true ∧ opO.block < opO.geo.blocks ∧ bit opO.desc 498 = false ∧ opO.k < 24 ∧
    reaches (millReach sOvf 5 opO false) = true ∧ blockOverflows opO (opO.sums (millReach sOvf 5 opO false).1 5).2 = true := by decide +kernel

theorem witness_mill_retry_complete_fault : ({ opO with overflowed := true } : MillOp).overflowed = true ∧
    ({ op1 with block := 1 } : MillOp).geo.blocks ≤ 1 ∧ opS.fn = 0 ∧
    millFaultNow { withMill [op1] with tlb := [], contexts := [] } 5 op1 = some 0x0401 := by decide +kernel

/-- X and W in the larder, both in bank 0 or in banks 0 and 1, and behind an operation whose OUT is in bank 1 (R190, R191). -/
def larderTile (base : Nat) : BitVec 512 := BitVec.ofNat 512 (tileD 0x10 1 1 base 16 + 2 ^ 488)
def opL (x w : Nat) : MillOp := { op1 with xTile := larderTile x, wTile := larderTile w }
theorem witness_mill_conflict : (opL 0 16).mayConflict none = true ∧ (opL 0 0x8000).mayConflict none = false ∧ op1.onLast = true ∧
    (opL 0 0x8000).mayConflict (some { op1 with outTile := larderTile 0x8010 }) = true ∧
    millFaultNow (withMill [op1]) 5 op1 ≠ some 0x0501 ∧ op1.mayConflict none = false := by decide +kernel

/-- 2 × 3 = 6.0. -/
theorem test_mill_block : (match exec (.millBlockDrain 5) (withMill [op1]) with
    | .next t => (t.read none 0x10220 4, (t.core 5).millQ.map (·.block))
    | _ => ([], [])) = ([0, 0, 0xC0, 0x40], [1]) := by decide +kernel

def kD : Group := { k0 with debug := true, sregs := [(9, 0x10400)] }
theorem witness_accumulator :
    (∃ k s1 act, Issues (unitIss (sWith kM) g0 millF [.s, .z] (decide (bits millF.mod 8 4 = 0))) g0 (sWith kM) k s1 act ∧ k.debug = false) ∧
    (∃ k s1 act, Issues (unitIss (sWith kD) g0 millF [.s, .z] (decide (bits millF.mod 8 4 = 0))) g0 (sWith kD) k s1 act ∧ k.debug = true ∧
      (k.opS none millF.a).toNat = 0x10400 ∧ 0x10400 % 64 = 0 ∧ (s1.core 5).millQ = [] ∧ sbOverlaps s1 g0 k.ctx [(0x10400, 16384)] = false ∧
      reaches (reach s1 (.core 5) k.ctx .w [(0x10400, 16384)]) = true ∧ reaches (reach s1 (.core 5) k.ctx .r [(0x10400, 16384)]) = true) :=
  ⟨⟨kM, _, _, ready_issues (by decide +kernel) (by decide +kernel), rfl⟩,
    ⟨kD, _, _, ready_issues (by decide +kernel) (by decide +kernel), rfl, by decide +kernel, by decide, by decide +kernel, by decide +kernel,
      by decide +kernel, by decide +kernel⟩⟩

/-! A = 1, 3, 5 and B = 3, 4, 5 are 1 × 3 sets of 32-bit keys. -/

def aD : Nat := tileD 0x30 1 3 0x10200 16
def bD : Nat := tileD 0x30 1 3 0x10210 16
def rD : Nat := tileD 0x30 1 3 0x10220 16
def sieveD (fn na nb : Nat) : Nat :=
  2 ^ 504 + fn * 2 ^ 500 + 0x10300 * 2 ^ 424 + 0x10340 * 2 ^ 360 + 0x10380 * 2 ^ 296 + na * 2 ^ 32 + nb
def keys (a b c : Nat) : List Byte := leBytes 4 a ++ leBytes 4 b ++ leBytes 4 c
def sieveMem (fn : Nat) : List Host.Cell :=
  putBytes (putBytes (putBytes (putBytes (putBytes (putBytes [] 0x10200 (keys 1 3 5)) 0x10210 (keys 3 4 5)) 0x10300 (leBytes 64 aD))
    0x10340 (leBytes 64 bD)) 0x10380 (leBytes 64 rD)) 0x103C0 (leBytes 64 (sieveD fn 3 3))
def sSieve (fn : Nat) : State := { sWith kM with mem := sieveMem fn }
def sieveS (fn : Nat) : State := (fetch (sSieve fn) g0 kM 8).1
def sieveS2 (fn : Nat) : State := (readDescs g0 kM (badDesc kM) (sieveS fn) [0x103C0]).1

theorem witness_sieve_start : ∀ fn < 3,
    (∃ k s1 act, Issues (unitIss (sSieve fn) g0 millF [.s, .z] (decide (millF.mod = 0))) g0 (sSieve fn) k s1 act) ∧
    ((sieveS fn).core 5).sieveQ.length < 4 ∧
    answers (readDescs g0 kM (badDesc kM) (sieveS fn) [0x103C0]) [BitVec.ofNat 512 (sieveD fn 3 3)] = true ∧
    sieveDescOk fn (BitVec.ofNat 512 (sieveD fn 3 3)) = true ∧
    answers (readDescs g0 kM (badDesc kM) (sieveS2 fn) (sieveTiles fn (BitVec.ofNat 512 (sieveD fn 3 3))))
      [BitVec.ofNat 512 aD, BitVec.ofNat 512 bD, BitVec.ofNat 512 rD] = true ∧
    sieveOk fn (BitVec.ofNat 512 (sieveD fn 3 3)) (BitVec.ofNat 512 aD) (BitVec.ofNat 512 bD) (BitVec.ofNat 512 rD) = true := by
  intro fn h
  have h3 : fn = 0 ∨ fn = 1 ∨ fn = 2 := by omega
  rcases h3 with rfl | rfl | rfl <;>
    exact ⟨ready_exists (by decide +kernel), by decide +kernel, by decide +kernel, by decide +kernel, by decide +kernel, by decide +kernel⟩

/-- Descriptors of the probe, the gather (4-byte elements) and the scatter. -/
def probeD : BitVec 512 := BitVec.ofNat 512 (2 ^ 504 + 3 * 2 ^ 500 + 0x10300 * 2 ^ 424 + 0x10380 * 2 ^ 296 + 1 * 2 ^ 352 + 4 * 2 ^ 288 +
  0x10800 * 2 ^ 136 + 3 * 2 ^ 32)
def gatherD : BitVec 512 := BitVec.ofNat 512 (2 ^ 504 + 4 * 2 ^ 500 + 2 * 2 ^ 488 + 0x10300 * 2 ^ 424 + 0x10380 * 2 ^ 296 + 0x10800 * 2 ^ 136 +
  1 * 2 ^ 64 + 3 * 2 ^ 32)
def scatterD : BitVec 512 := BitVec.ofNat 512 (2 ^ 504 + 5 * 2 ^ 500 + 2 * 2 ^ 488 + 0x10300 * 2 ^ 424 + 0x10340 * 2 ^ 360 + 0x10800 * 2 ^ 136 +
  1 * 2 ^ 64 + 3 * 2 ^ 32 + 3)
def gatherOut : BitVec 512 := BitVec.ofNat 512 (tileD 0x22 3 1 0x10240 16)
theorem witness_sieve_irregular :
    sieveDescOk 3 probeD = true ∧ sieveDescOk 4 gatherD = true ∧ sieveDescOk 5 scatterD = true ∧
    sieveOk 4 gatherD (BitVec.ofNat 512 aD) 0 gatherOut = true := by decide +kernel

def siv0 (fn : Nat) : SieveOp :=
  newSieveOp fn g0 millF kM 1 (BitVec.ofNat 512 (sieveD fn 3 3)) (BitVec.ofNat 512 aD) (BitVec.ofNat 512 bD) (BitVec.ofNat 512 rD)
def withSieve (fn : Nat) : State :=
  { sWith { kM with units := [0x105] } with mem := sieveMem fn, cores := [(5, { Core.reset with sieveQ := [siv0 fn], seq := 1 })] }

theorem taken_eq {r : State × W16} (h : r.2 = 0) : r = (r.1, 0) := Prod.ext rfl h

theorem witness_sieve_complete : atFront ((withSieve 0).core 5).sieveQ (siv0 0) [] ∧
    ∃ s1, SieveEnds (withSieve 0) 5 (siv0 0) s1 :=
  ⟨by unfold atFront; decide +kernel, _, ⟨by decide +kernel, taken_eq (by decide +kernel)⟩⟩

theorem witness_sieve_fault : sieveFaultNow { withSieve 0 with tlb := [], contexts := [] } 5 (siv0 0) = some 0x0401 := by decide +kernel

theorem witness_sorted_sets : [1, 3, 5].Pairwise (· < ·) ∧ [3, 4, 5].Pairwise (· < ·) ∧ [1, 3, 5].length + [3, 4, 5].length < 7 := by decide

/-- The intersection is 3, 5. -/
theorem test_sieve_isect : (match exec (.sieveComplete 5) (withSieve 0) with
    | .next t => t.read none 0x10220 12
    | _ => []) = leBytes 4 3 ++ leBytes 4 5 ++ [0, 0, 0, 0] := by decide +kernel
/-- The difference A − B is 1. -/
theorem test_sieve_diff : (match exec (.sieveComplete 5) (withSieve 2) with
    | .next t => t.read none 0x10220 8
    | _ => []) = leBytes 4 1 ++ [0, 0, 0, 0] := by decide +kernel

/-! ## The granary: physical 0x20000 lies in HBM group 0, a NEAR group, whose home is slice 0 -/

theorem performs {s : State} {ctx pa : Nat} (h : (decide (s.power.st = .ready) && decide (s.sliceStatus ctx pa = 0) &&
    !(s.placeOf pa).isDevice) = true) : Performs s ctx pa := by
  simp only [Bool.and_eq_true, decide_eq_true_eq, Bool.not_eq_true'] at h
  exact ⟨h.1.1, h.1.2, h.2⟩

theorem not_bin {s : State} {pa g q : Nat} (h : s.placeOf pa = .hbm g q) : ¬ inBin s pa := by rintro ⟨a, b, e⟩; rw [h] at e; cases e

def cl0 : CLine := { line := 1024, way := 3, dirty := true }
def sHit : State := { s0 with slices := [(0, { Slice.reset with lines := [cl0], binWays := 1 })] }
def binPa : Nat := 0x0800_0000_0000

theorem witness_home_read :
    (Performs sHit 1 0x20000 ∧ ¬ inBin sHit 0x20000 ∧ sHit.homeOf 0x20000 = 0 ∧ sHit.homeIdle 1024 false = true ∧
      (sHit.slice 0).hit 1024 = some cl0) ∧
    (Performs sHit 1 binPa ∧ inBin sHit binPa) ∧
    ((s0.slice 0).hit 1024 = none ∧ (s0.slice 0).filling 1024 = none ∧ s0.homeIdle (lineNo binPa) false = true ∧
      pickWay (s0.slice 0) (s0.fillWays 0 .core (s0.commonsAddr 0x20000)) 1024 = some (0, none)) ∧
    (s0.power.st = .ready ∧ (s0.placeOf binPa).isDevice = false ∧ s0.sliceStatus 1 binPa ≠ 0) :=
  ⟨⟨performs (by decide +kernel), not_bin (g := 0) (q := 0) (by decide +kernel), by decide +kernel, by decide +kernel, by decide +kernel⟩,
    ⟨performs (by decide +kernel), 0, 0, by decide +kernel⟩, by decide +kernel, by decide +kernel⟩

/-- An owner holds the line. -/
def sOwned : State := { s0 with dir := [(1024, { DirEntry.reset with st := .owned 6 })] }
theorem witness_home_owned : Performs sOwned 1 0x20000 ∧ sOwned.homeIdle 1024 false = false ∧ sOwned.homeIdle 1024 true = false :=
  ⟨performs (by decide +kernel), by decide +kernel, by decide +kernel⟩
/-- The home forwards a FwdGetM to the owner. -/
theorem test_home_write_owned : (match exec (.homeWrite .unit 5 1 0 0x20000 [7]) sOwned with
    | .next t => (t.mem, t.net.map fun m => (m.kind, m.dst))
    | _ => ([], [])) = ([], [(.fwdGetM, some 6)]) := by decide +kernel

/-- A hit, a miss that goes around, a miss that starts a fill, and a write to the bin. -/
theorem witness_home_write : Performs s0 1 0x20004 ∧ (0x20004 : PAddr).toNat % 128 + [(1 : Byte), 2].length ≤ 128 ∧
    s0.homeIdle (lineNo 0x20004) true = true ∧ WritesNow s0 .unit 2 0x20004 2 ∧ WritesNow sHit .unit 0 0x20004 2 ∧
    (s0.slice (s0.homeOf 0x20004)).hit (lineNo 0x20004) = none ∧ writeWaits s0 .unit 0 0x20004 2 = true ∧ ¬ inBin s0 0x20004 ∧
    WritesNow sHit .unit 0 binPa 2 :=
  ⟨performs (by decide +kernel), by decide, by decide +kernel, .inr (.inr ⟨by decide +kernel, by decide +kernel⟩),
    .inr (.inl ⟨cl0, by decide +kernel, .inr (by decide +kernel)⟩), by decide +kernel, by decide +kernel,
    not_bin (g := 0) (q := 0) (by decide +kernel), .inl ⟨0, 0, by decide +kernel⟩⟩

def fill0 : Fill := { line := 1024, way := 3, victim := none, first := 3, got := 7, joined := [.read 5 1 3], dirty := false }
/-- A read joins the fill: its sector has not come, or has. -/
def sFill (f : Fill) : State := { s0 with slices := [(0, { Slice.reset with fills := [f] })] }
theorem witness_fill_arrival :
    (((sFill fill0).slice 0).filling 1024 = some fill0 ∧ fill0.got.getLsbD 3 = false ∧ (fill0.got.getLsbD 0 && !fill0.hasWrite) = true ∧
      fill0.got ||| BitVec.ofNat 4 (2 ^ 3) = 15) ∧
    (({ fill0 with got := 0 } : Fill).got.getLsbD 3 = false ∧ fill0.first = 3 ∧
      (0 : BitVec 4) ||| BitVec.ofNat 4 (2 ^ 3) ≠ 15) ∧
    ((sFill { fill0 with victim := some 7 }).slice 0).fills.find? (fun f => decide (f.victim = some 7)) = some { fill0 with victim := some 7 } ∧
    ((sFill fill0).slice 0).isCache 3 = true := by decide +kernel
/-- The last sector makes the line valid and answers the read. -/
theorem test_fill_done : (match exec (.fillSectorArrival 0 1024 3 .clean) (sFill fill0) with
    | .next t => ((t.slice 0).fills, (t.slice 0).lines, t.out.length)
    | _ => ([], [], 0)) = ([], [{ cl0 with dirty := false }], 1) := by decide +kernel

/-- Epoch 2 of partition 0 is open; the slice of hall die 0 has the pool way. -/
def ep0 : Epoch := { Epoch.reset with owner := some 1, state := .opened }
def sEp : State := { s0 with slices := [(0, { Slice.reset with tent := true })], epochs := [(2, ep0)], parts := [(0, { part0 with tent := true })] }
theorem witness_pool_write : sEp.ctx? 1 = some c0 ∧ Performs sEp 1 0x20004 ∧ (sEp.slice (sEp.homeOf 0x20004)).tent = true ∧
    (sEp.epoch (64 * c0.part + 2)).state = .opened ∧ sEp.homeIdle (lineNo 0x20004) true = true ∧
    (sEp.slice (sEp.homeOf 0x20004)).pool.length < 524288 ∧ (sEp.epoch (64 * c0.part + 3)).state ≠ .opened ∧
    sEp.pageMoving 0x20004 = false ∧ sEp.seal? (.poolWay (sEp.homeOf 0x20004)) = none ∧
    sEp.parentVoided (64 * c0.part + 2) (sEp.homeOf 0x20004) = false ∧
    { sEp with moves := [{ id := 0, src := 0x20000, dst := 0x30000, size := 65536, part := 0, promote := true, copying := false }] }.pageMoving
      0x20004 = true ∧
    { sEp with dir := [(1024, { DirEntry.reset with st := .owned 6 })] }.homeIdle 1024 true = false :=
  ⟨by decide +kernel, performs (by decide +kernel), by decide +kernel, by decide +kernel, by decide +kernel, by decide +kernel, by decide +kernel,
    by decide +kernel, by decide +kernel, by decide +kernel, by decide +kernel, by decide +kernel⟩

def pl (tag : PoolTag) (seq : Nat) (b : Nat) : PoolLine :=
  { line := 1024, tag := tag, mask := 1, seq := seq, data := lineOf fun _ => BitVec.ofNat 8 b, poisoned := false }
def sPool (ps : List PoolLine) : State := { sEp with slices := [(0, { Slice.reset with tent := true, pool := ps, poolSeq := 9 })] }
/-- The epoch's own line, the parent's, a committed one, and none. -/
theorem witness_epoch_read :
    Newest (sPool [pl (.held 2) 4 0xAA, pl (.committed 5) 6 0xBB]) 0x20000 (fun r => r.tag = .held 2) (pl (.held 2) 4 0xAA) ∧
    NoneHolds (sPool [pl (.committed 5) 6 0xBB]) 0x20000 (fun r => r.tag = .held 2) ∧
    Newest (sPool [pl (.committed 5) 6 0xBB]) 0x20000 TaggedCommitted (pl (.committed 5) 6 0xBB) ∧
    NoneHolds (sPool [pl (.held 2) 4 0xAA]) 0x20000 TaggedCommitted := by
  have hp : ∀ ps, (∀ p ∈ ps, p.line = 1024) → (sPool ps).poolOf 0x20000 = ps := by
    intro ps h
    have e : (sPool ps).homeOf 0x20000 = 0 := by
      rw [show (sPool ps).homeOf 0x20000 = s0.homeOf 0x20000 from rfl]; decide +kernel
    unfold State.poolOf
    rw [e]
    refine List.filter_eq_self.2 fun p hm => ?_
    rw [h p hm]
    decide
  have one : ∀ (tag : PoolTag) (n b : Nat), ∀ p ∈ [pl tag n b], p.line = 1024 := by intro tag n b p hm; rw [List.mem_singleton.1 hm]; rfl
  unfold Newest NoneHolds
  rw [hp _ (one _ _ _), hp _ (one _ _ _), hp [pl (.held 2) 4 0xAA, pl (.committed 5) 6 0xBB] (by
    intro p hm
    rcases List.mem_cons.1 hm with rfl | hm
    · rfl
    · exact one _ _ _ p hm)]
  refine ⟨⟨List.mem_cons_self, rfl, rfl, ?_⟩, ?_, ⟨List.mem_cons_self, ⟨5, rfl⟩, rfl, ?_⟩, ?_⟩
  · intro r hr hq _
    rcases List.mem_cons.1 hr with rfl | hr
    · exact .inl rfl
    · rw [List.mem_singleton.1 hr] at hq; cases hq
  · intro r hr hq; rw [List.mem_singleton.1 hr] at hq; cases hq
  · intro r hr _ _; exact .inl (List.mem_singleton.1 hr)
  · rintro r hr ⟨n, hn⟩
    rw [List.mem_singleton.1 hr] at hn
    cases hn

/-- Epoch 2 is OPEN; CLOSING with its command not applied at the slice; and applied there. -/
def sClosing (apply : List Nat) : State := sEp.setEpoch 2
  { ep0 with state := .closing, cmd := some { commit := true, ctx := 1, tally := 0, apply := apply, ack := [], status := 0 } }
theorem witness_epoch_shown : Shown sEp 0x20000 2 ∧ Shown (sClosing [0]) 0x20000 2 ∧ ¬Shown (sClosing [1]) 0x20000 2 := by
  refine ⟨.inl (by decide +kernel), .inr ⟨by decide +kernel, _, rfl, by decide +kernel⟩, fun h => ?_⟩
  rcases h with h | ⟨_, c, hc, hm⟩
  · revert h; decide +kernel
  · obtain rfl : { commit := true, ctx := 1, tally := 0, apply := [1], ack := [], status := 0 } = c := Option.some.inj hc
    revert hm; decide +kernel

/-- Epoch 3 is a child of epoch 2. -/
theorem witness_epoch_read_child : (sEp.setEpoch 3 { ep0 with parent := some 2 }).epoch 3 = { ep0 with parent := some 2 } := by decide +kernel

def nsr : NsReq := { slot := 3, ctx := 1, req := some 0, pa := 0x20004, va := 0x10004, aop := 0, sz := 4, val := 5, cmp := 0, epoch := none, attr := 2 }
def sNs (poison : List Nat) : State :=
  { sWith { k0 with reqs := [{ req0 with answer := none }] } with cores := [(5, { Core.reset with nsa := [nsr] })], poison := poison, mem := [(0x20004, 7)] }
theorem witness_near_store_atomic :
    ((sNs []).core 5).nsa.find? (fun r => decide ((sNs []).homeOf r.pa.toNat = 0)) = some nsr ∧ (nsTry (sNs []) nsr).2.1 = 0 ∧
    (nsTry (sNs [0x20004 / 32]) nsr).2.1 = 0x0701 ∧ 0x20004 % 4 = 0 ∧ (sNs []).homeIdle 1024 true = true ∧
    { sNs [] with dir := [(1024, { DirEntry.reset with st := .owned 6 })] }.homeIdle 1024 true = false := by decide +kernel

theorem test_near_store_atomic : (match exec (.nearStoreAtomic 5 0) (sNs []) with
    | .next t => (t.mem, (t.group? g0).map fun k => k.reqs.map (·.answer))
    | _ => ([], none)) = ([(0x20004, 12)], some [some 7]) := by decide +kernel

/-- OPEN, COMMIT and DISCARD of epoch 2, tally handle 0. -/
def epW (op e : Nat) : W64 := BitVec.ofNat 64 (op * 2 ^ 60 + e * 2 ^ 52)
def epS (op e : Nat) : EpochStore := { ctx := 1, offset := 0, size := 8, word := epW op e }
def sCmd (op e : Nat) : State := { sEp with epochQ := [(0, [epS op e])], epochs := [(2, ep0), (3, { ep0 with state := .free })] }

theorem heads {op e : Nat} : Heads (sCmd op e) 0 (epS op e) { sCmd op e with epochQ := [] } := ⟨rfl, rfl⟩

theorem witness_epoch_command :
    (epOp (epW 1 3) = 1 ∧ cmdStatus { sCmd 1 3 with epochQ := [] } 0 1 (epW 1 3) = 0 ∧ cmdStatus { sCmd 1 2 with epochQ := [] } 0 1 (epW 1 2) = 0x040C) ∧
    (epOp (epW 2 2) = 2 ∧ cmdStatus { sCmd 2 2 with epochQ := [] } 0 1 (epW 2 2) = 0) ∧
    (epOp (epW 3 2) = 3 ∧ cmdStatus { sCmd 3 2 with epochQ := [] } 0 1 (epW 3 2) = 0) ∧ epOp (epW 0 2) = 0 ∧ 3 < epOp (epW 15 2) := by decide +kernel

def ec (apply ack : List Nat) : EpochCmd := { commit := true, ctx := 1, tally := 0, apply := apply, ack := ack, status := 0 }
def sApply (c : EpochCmd) : State := { sPool [pl (.held 2) 4 0xAA] with epochs := [(2, { ep0 with state := .closing, cmd := some c })] }
theorem witness_epoch_slice : ((sApply (ec [0] [])).epoch (64 * 0 + 2)).cmd = some (ec [0] []) ∧ (sApply (ec [0] [])).parentVoided (64 * 0 + 2) 0 = false ∧
    ((sApply (ec [] [0])).epoch (64 * 0 + 2)).cmd = some (ec [] [0]) ∧ [0].erase 0 = ([] : List Nat) ∧ 0 ∈ (ec [1] [0]).ack ∧ (ec [1] [0]).apply ≠ [] := by
  decide +kernel

/-- The slice relabels the line above its sequence number 9. -/
theorem test_epoch_apply : (match exec (.epochSliceApply 0 2 0) (sApply (ec [0] [])) with
    | .next t => (t.slice 0).pool.map fun p => (p.tag, decide (9 ≤ p.seq))
    | _ => []) = [(.committed 2, true)] := by decide +kernel
/-- The byte the committed line holds is folded into memory. -/
theorem test_pool_fold : (match exec (.poolFold 0) (sPool [pl (.committed 5) 6 0xBB]) with
    | .next t => (t.mem, (t.slice 0).pool)
    | _ => ([], [])) = ([(0x20000, 0xBB)], []) := by decide +kernel

theorem witness_gating : (GateUnit.cacheWay 0 3).wf = true ∧ sHit.seal? (.cacheWay 0 3) = none ∧ sHit.mayGate (.cacheWay 0 3) = true ∧
    (sHit.setSeal (.cacheWay 0 3) (some .closed)).seal? (.cacheWay 0 3) = some .closed ∧
    (sHit.setSeal (.binBank 0 5) (some .gated)).seal? (.binBank 0 5) = some .gated ∧ sHit.inService = true ∧
    (sHit.setSeal (.cacheWay 0 3) (some .closed)).unitBusy (.cacheWay 0 3) = false := by decide +kernel

theorem witness_patrol : s0.inService = true ∧ s0.homeStatus (0x20000 : PAddr).toNat = 0 ∧ (s0.placeOf (0x20000 : PAddr).toNat).isDevice = false ∧
    s0.commonsBlock 0x20000 = none ∧ s0.refBlock 0x20000 = none ∧
    pl (.held 2) 4 0xAA ∈ ((sPool [pl (.held 2) 4 0xAA]).slice ((sPool [pl (.held 2) 4 0xAA]).homeOf 0x20000)).pool := by decide +kernel

theorem test_patrol_uncorrectable : (match exec (.patrolScrub 0x20000 none .uncorrectable) s0 with
    | .next t => (t.poison, t.flash.events.map (·.status))
    | _ => ([], [])) = ([0x20000 / 32], [0x0707]) := by decide +kernel

/-! The home hash and the ways -/

/-- Line 0 is home at candidate 0; the way masks of a slice after reset permit every way that is no bin. -/
theorem witness_fill_ways : (∀ f ∈ (sHit.slice 0).fills, Machine.setOf f.line ≠ Machine.setOf 1024) ∧ 1 ∈ sHit.fillWays 0 .core false ∧
    (∀ x ∈ (sHit.slice 0).lines, Machine.setOf x.line = Machine.setOf 1024 → x.way ≠ 1) := by decide +kernel
def sFull : State := { s0 with slices := [(0, { Slice.reset with wayMask := 8, lines := [cl0] })] }
theorem witness_fill_full : (∀ w ∈ sFull.fillWays 0 .core false, ∃ x ∈ (sFull.slice 0).lines, Machine.setOf x.line = Machine.setOf 1024 ∧ x.way = w) ∧
    sFull.fillWays 0 .core false ≠ [] := by
  have h : sFull.fillWays 0 .core false = [3] := by decide +kernel
  have hl : (sFull.slice 0).lines = [cl0] := by decide +kernel
  rw [h, hl]
  exact ⟨by decide, by decide⟩

theorem witness_home_hash :
    hashedOver { s0 with hbmGroups := [(0, { mode := 2, part := 0 })], parts := [(0, { part0 with halls := 5 })] } 0x20000 = some [0, 2] := by decide +kernel

/-! ## Translation: the tables of context 1 at 0x8000 lead to a 64 KiB page at 0x10000 for address 0x10000 -/

/-- Levels 4 to 0 at 0x8000, 0xA000, 0xB000, 0xC000 and 0xD000; the leaf is entry 1 of the last table. -/
def walkMem (leaf : W64) : List Host.Cell :=
  [(0x8000, 0x01), (0x8001, 0xA0), (0xA000, 0x01), (0xA001, 0xB0), (0xB000, 0x01), (0xB001, 0xC0), (0xC000, 0x01), (0xC001, 0xD0)] ++
    putBytes [] 0xD008 (leBytes 8 leaf.toNat)
def sWalk (leaf : W64) : State := { s0 with tlb := [], mem := walkMem leaf }

theorem witness_page_walk : (sWalk (leaf0 0x10000 0)).ctx? 1 = some c0 ∧ (2 : Nat) ^ 56 ≤ (BitVec.ofNat 64 (2 ^ 56)).toNat ∧
    (walkOf (sWalk (leaf0 0x10000 0)) (.hall 0) 1 0x10000).2 = .leaf 0 0xD008 (leaf0 0x10000 0) ∧ leafMoving (leaf0 0x10000 0) = false ∧
    ((walkOf (sWalk (leaf0 0x10000 0)) (.hall 0) 1 0x10000).1.tlbFind (.hall 0) false 1 0x10000).isSome = false ∧
    (walkOf (sWalk (leaf0 0x10000 0)) (.hall 0) 1 0x20000).2 = .invalid ∧
    (walkOf (sWalk (leaf0 0x10000 0 ||| 2)) (.hall 0) 1 0x10000).2 = .malformed 0xD008 ∧
    leafMoving (leaf0 0x10000 0 ||| (1 <<< 54)) = true ∧
    (walkOf (sWalk (leaf0 0x10000 0 ||| (1 <<< 54))) (.hall 0) 1 0x10000).2 = .leaf 0 0xD008 (leaf0 0x10000 0 ||| (1 <<< 54)) ∧
    (walkOf { sWalk (leaf0 0x10000 0) with poison := [0xD008 / 32] } (.hall 0) 1 0x10000).2 = .poisoned ∧
    (walkOf { sWalk (leaf0 0x10000 0) with seals := [(.hbmGroup 0, .closed)] } (.hall 0) 1 0x10000).2 = .rejected 0x0407 0x8000 := by
  decide +kernel

theorem witness_walk_leaf : (sWalk (leaf0 0x10000 0)).walk 1 0x10000 = .leaf 0 0xD008 (leaf0 0x10000 0) := by decide +kernel

def shoot0 : Shoot := { id := 7, asid := 1, lo := 0x10000, hi := 0x20000, todo := [.hall 0, .core 5], acks := [], after := .respond 0 }
def sShoot : State := { s0 with shoots := [shoot0] }
theorem witness_shootdown : sShoot.shoots.find? (fun x => decide (x.id = 7)) = some shoot0 ∧ TlbStruct.hall 0 ∈ shoot0.todo ∧
    TlbStruct.core 5 ∈ shoot0.todo ∧ sbInRange sShoot 5 1 0x10000 0x20000 = [] ∧ onTheWay sShoot 5 1 0x10000 0x20000 = false ∧
    sShoot.inService = true := by decide +kernel

/-- 95 °C: four times the rate. -/
def sHot (t : Int) : State := { s0 with reeve := { Reeve.reset with sensors := [(912, t)] } }
theorem test_refresh : (match exec (.refreshAdjust 0) (sHot 95000) with
    | .next t => (tget Refresh.reset t.refresh 0).rate
    | _ => 0) = 4 := by decide +kernel
theorem witness_refresh : (105000 : Int) ≤ (sHot 105000).stackTemp 0 ∧ (sHot 99999).stackTemp 0 < 100000 ∧ (95000 : Int) ≤ (sHot 95000).stackTemp 0 ∧
    (sHot 81999).stackTemp 0 < 82000 ∧ (sHot 81999).refreshMin 0 = 1 := by decide +kernel

def reg0 (waits calm : Nat) (lock : Bool) : Regulator := { guar := 100, borrow := 400, lock := lock, used := 0, eff := 300, waits := waits, calm := calm }
def sReg (r : Regulator) : State := { s0 with regs := [(regKey 24 0, r)] }
theorem witness_regulator : tget Regulator.reset (sReg (reg0 2 63 false)).regs (regKey 24 0) = reg0 2 63 false ∧
    (reg0 2 63 false).guar < (reg0 2 63 false).eff ∧ 2 ≤ (reg0 2 63 false).waits ∧ 63 ≤ (reg0 2 63 false).calm ∧ (reg0 0 0 true).lock = true ∧
    (reg0 1 62 false).waits < 2 ∧ (reg0 1 62 false).calm < 63 := by decide +kernel

/-! ## Coherence: line 1024, core 5 and core 6 -/

def msg (kind : MsgKind) (src dst req : Option Nat) : Msg :=
  { kind := kind, line := 1024, src := src, dst := dst, requester := req, data := 0, count := 0, dirty := false, grant := .e,
    pref := false }
def sNet (ms : List Msg) (d : DirEntry) (c5 : Core) : State := { s0 with net := ms, dir := if d = DirEntry.reset then [] else [(1024, d)], cores := if c5 = Core.reset then [] else [(5, c5)] }
def ownedBy (c : Nat) : DirEntry := { DirEntry.reset with st := .owned c }
def txn0 (c : Nat) : Txn := { core := some c, grant := .m, owner := some 6, put := none, acks := 0, copy := false, done := false }
def busyBy (c : Nat) : DirEntry := { ownedBy 6 with busy := some (txn0 c) }

theorem witness_request : ∀ row ∈ requestRows, let s := sNet [msg row.2.1 (some 5) none none] DirEntry.reset Core.reset
    s.toHome 5 1024 = some (msg row.2.1 (some 5) none none) ∧ s.coreStatus 5 (128 * 1024) = 0 ∧ s.isHeld (128 * 1024) = false ∧
    s.commonsAddr (128 * 1024) = false ∧ (s.dirEntry 1024).busy = none ∧
    (s.dirEntry 1024).waiting = [] ∧ s.dirFree 1024 = true ∧ (s.dirEntry 1024).st = .i := by decide +kernel

/-- The home rejects the request; the line is held by an epoch's committed line. -/
theorem witness_request_refused : { s0 with seals := [(.hbmGroup 0, .closed)] }.coreStatus 5 (128 * 1024) ≠ 0 ∧
    (sPool [pl (.committed 5) 6 0xBB]).isHeld (128 * 1024) = true ∧ (sPool [pl (.committed 5) 6 0xBB]).coreStatus 5 (128 * 1024) = 0 := by
  decide +kernel

theorem witness_request_owned : let s := sNet [msg .getM (some 5) none none] (ownedBy 6) Core.reset
    (s.dirEntry 1024).st = .owned 6 ∧ (s.dirEntry 1024).busy = none ∧ s.dirFree 1024 = true := by decide +kernel
theorem witness_request_busy : ((sNet [] (busyBy 7) Core.reset).dirEntry 1024).busy.isSome = true := by decide +kernel

theorem witness_home : (sNet [msg .putE (some 5) none none] (ownedBy 5) Core.reset).toHome 5 1024 = some (msg .putE (some 5) none none) ∧
    ((sNet [] (ownedBy 5) Core.reset).dirEntry 1024).st = .owned 5 ∧ ((sNet [] (ownedBy 5) Core.reset).dirEntry 1024).busy = none ∧
    (sNet [msg .putM (some 6) none none] (busyBy 5) Core.reset).toHome 6 1024 = some (msg .putM (some 6) none none) ∧
    ((sNet [] (busyBy 5) Core.reset).dirEntry 1024).busy = some (txn0 5) ∧ ((sNet [] (busyBy 5) Core.reset).dirEntry 1024).st = .owned 6 ∧
    (sNet [msg .dataHome (some 6) none none] (busyBy 5) Core.reset).toHome 6 1024 = some (msg .dataHome (some 6) none none) ∧
    (sNet [msg .dataInFlight (some 6) none none] (busyBy 5) Core.reset).toHome 6 1024 = some (msg .dataInFlight (some 6) none none) ∧
    (sNet [msg .done (some 5) none none] (busyBy 5) Core.reset).toHome 5 1024 = some (msg .done (some 5) none none) ∧
    (sNet [] (busyBy 5) Core.reset).victimBusy 1024 = false ∧ (txn0 5).core = some 5 := by decide +kernel
/-- The home's own transaction: it awaits an InvAck, or the owner's copy. -/
theorem witness_home_own : let x : Txn := { txn0 5 with core := none, acks := 1, copy := true }
    ((sNet [] { ownedBy 6 with busy := some x } Core.reset).dirEntry 1024).busy = some x ∧ x.core = none ∧ 0 < x.acks ∧ x.copy = true ∧
    (sNet [msg .invAck (some 6) none none] { ownedBy 6 with busy := some x } Core.reset).toHome 6 1024 = some (msg .invAck (some 6) none none) := by
  decide +kernel

def l1s (st : Mesi) : Core := { Core.reset with l1 := [(1024, { st := st, data := 7, commons := false })] }
theorem witness_core : (sNet [msg .inv none (some 5) (some 6)] DirEntry.reset (l1s .s)).toCore .inv 5 1024 = some (msg .inv none (some 5) (some 6)) ∧
    (tfind ((sNet [] DirEntry.reset (l1s .s)).core 5).l1 1024).map (·.st) = some .s ∧
    (sNet [msg .fwdGetS none (some 5) (some 6)] (ownedBy 5) (l1s .e)).toCore .fwdGetS 5 1024 = some (msg .fwdGetS none (some 5) (some 6)) ∧
    (sNet [] (ownedBy 5) (l1s .e)).owned? 5 1024 = some 7 ∧ (sNet [] (ownedBy 5) Core.reset).owned? 5 1024 = none ∧
    (sNet [msg .fwdGetM none (some 5) (some 6)] (ownedBy 5) (l1s .m)).toCore .fwdGetM 5 1024 = some (msg .fwdGetM none (some 5) (some 6)) := by
  decide +kernel

def ms0 (grant : Option Mesi) (need got : Nat) : Core := { Core.reset with mshr := [(1024, { grant := grant, data := 7, need := need, got := got })] }
theorem witness_miss : (sNet [msg .data (some 6) (some 5) none] DirEntry.reset (ms0 none 0 0)).toCore .data 5 1024 = some (msg .data (some 6) (some 5) none) ∧
    (tfind ((sNet [] DirEntry.reset (ms0 none 0 0)).core 5).mshr 1024).isSome = true ∧ l1Used (ms0 none 0 0) < 512 ∧
    s0.commonsAddr (128 * 1024) = false ∧ (msg .data (some 6) (some 5) none).count ≤ 0 ∧ 0 < ({ msg .data (some 6) (some 5) none with count := 2 } : Msg).count ∧
    (sNet [msg .invAck (some 6) (some 5) none] DirEntry.reset (ms0 (some .m) 1 0)).toCore .invAck 5 1024 = some (msg .invAck (some 6) (some 5) none) := by
  decide +kernel

theorem witness_coherence_error : 0 < 12 ∧ (s0.part 0).state = .running := by decide +kernel

theorem test_getm : (match exec (.getm 5 1024) (sNet [msg .getM (some 5) none none] (ownedBy 6) Core.reset) with
    | .next t => t.net.map fun m => (m.kind, m.dst, m.requester)
    | _ => []) = [(.fwdGetM, some 6, some 5)] := by decide +kernel
theorem test_fwdgets : (match exec (.fwdgets 5 1024) (sNet [msg .fwdGetS none (some 5) (some 6)] (ownedBy 5) (l1s .m)) with
    | .next t => ((tfind (t.core 5).l1 1024).map (·.st), t.net.map (·.kind))
    | _ => (none, [])) = (some .s, [.data, .dataHome]) := by decide +kernel
theorem test_coherence_error : (match exec (.coherenceError 0 0 1024) s0 with
    | .next t => ((t.part 0).state, t.groups.length, t.lossQ.map (·.status))
    | _ => (.running, 9, [])) = (.down, 0, [0x0713]) := by decide +kernel


/-! ## The Steward: requests in mailbox 3 -/

def asked (s : State) (mb cmd : Nat) (m : Mailbox) : Bool :=
  decide (tfind s.mailboxes mb = some m) && decide (msgCmd m.msg = cmd) && !m.waiting && m.response.isNone && !s.blocked m

theorem asked_of {s : State} {mb cmd : Nat} {m : Mailbox} (h : asked s mb cmd m = true) : Asked s mb cmd m := by
  simp only [asked, Bool.and_eq_true, Bool.not_eq_true', Option.isNone_iff_eq_none, decide_eq_true_eq] at h
  obtain ⟨⟨⟨⟨h1, h2⟩, h3⟩, h4⟩, h5⟩ := h
  exact ⟨h1, h2, h3, h4, h5⟩

def asks (s : State) (mb cmd : Nat) (pl : List Byte) : Bool :=
  match tfind s.mailboxes mb with
  | some m => asked s mb cmd m && decide (msgPayload m.msg = pl) && decide (s.power.st ≠ .failed)
  | none => false

theorem asks_of {s : State} {mb cmd : Nat} {pl : List Byte} (h : asks s mb cmd pl = true) : Asks s mb cmd pl := by
  unfold asks at h
  split at h
  · rename_i m _
    simp only [Bool.and_eq_true, decide_eq_true_eq] at h
    exact ⟨⟨m, asked_of h.1.1, h.1.2⟩, .inl h.2⟩
  · cases h

def asksFor (s : State) (mb cmd : Nat) (pl : List Byte) (c : Nat) (x : Context) : Bool :=
  match tfind s.mailboxes mb with
  | some m => asked s mb cmd m && decide (msgPayload m.msg = pl ∧ msgCtx m.msg = c ∧ msgGen m.msg = x.gen ∧ s.power.st ≠ .failed ∧
      s.ctx? c = some x ∧ x.state = .active ∧ (s.part x.part).state ≠ .down)
  | none => false

theorem asksFor_of {s : State} {mb cmd c : Nat} {pl : List Byte} {x : Context} (h : asksFor s mb cmd pl c x = true) :
    AsksFor s mb cmd pl c x := by
  unfold asksFor at h
  split at h
  · rename_i m _
    simp only [Bool.and_eq_true, decide_eq_true_eq] at h
    obtain ⟨h0, h1, h2, h3, h4, h5, h6, h7⟩ := h
    exact ⟨⟨m, asked_of h0, h1, h2, h3⟩, h4, h5, .inl h6, h7⟩
  · cases h

def box (cmd ctx gen : Nat) (pl : List Byte) : Mailbox := { msg := message cmd 7 gen ctx 0 0 pl, order := 0, waiting := false, response := none }
def mail (cmd ctx gen : Nat) (pl : List Byte) (s : State) : State := { s with mailboxes := [(3, box cmd ctx gen pl)] }
/-- A request that names no context, and one in the name of context 1. -/
def ask (cmd : Nat) (pl : List Byte) (s : State) : State := mail cmd 0 0 pl s
def askFor (cmd : Nat) (pl : List Byte) (s : State) : State := mail cmd 1 1 pl s

def le4 (n : Nat) : List Byte := leBytes 4 n
def le8 (n : Nat) : List Byte := leBytes 8 n

def sCtx (x : Context) (p : Partition) : State := { s0 with contexts := [(1, x)], parts := [(0, p)] }
theorem witness_steward_checks : ∀ row ∈ contextRows,
    asked (mail row.1 2 1 [] s0) 3 row.1 (box row.1 2 1 []) = true ∧ (mail row.1 2 1 [] s0).ctx? 2 = none ∧
    asked (askFor row.1 [] s0) 3 row.1 (box row.1 1 1 []) = true ∧
    (askFor row.1 [] (sCtx { c0 with gen := 2 } part0)).ctx? 1 = some { c0 with gen := 2 } ∧
    (askFor row.1 [] (sCtx { c0 with state := .destroying } part0)).ctx? 1 = some { c0 with state := .destroying } ∧
    (askFor row.1 [] (sCtx { c0 with state := .lost } part0)).ctx? 1 = some { c0 with state := .lost } ∧
    (askFor row.1 [] (sCtx c0 { part0 with state := .down })).ctx? 1 = some c0 ∧
    (sCtx c0 { part0 with state := .down }).part 0 = { part0 with state := .down } ∧ s0.power.st ≠ .failed ∧
    msgCtx (box row.1 1 1 []).msg = 1 ∧ msgGen (box row.1 1 1 []).msg = 1 := by decide +kernel

theorem witness_refused_commands : ∀ row ∈ plainRows, Asked (ask row.1 [] s0) 3 row.1 (box row.1 0 0 []) := by
  have h : ∀ row ∈ plainRows, asked (ask row.1 [] s0) 3 row.1 (box row.1 0 0 []) = true := by decide +kernel
  exact fun row hr => asked_of (h row hr)

theorem witness_cap_read : Asks (ask 1 [] s0) 3 1 [] := asks_of (by decide +kernel)
def notice0 : Notice := { code := 0x8014, ctx := 0, gen := 0, status := 0, handle := 0, time := 0, addr := 0 }
def sNotice (pl : List Byte) : State := ask 2 pl { s0 with noticeOut := some (5, notice0) }
theorem witness_notice_ack : Asks (sNotice (le4 5)) 3 2 (le4 5) ∧ (sNotice (le4 5)).noticeOut = some (5, notice0) ∧ le (le4 5) 0 4 = 5 ∧
    Asks (sNotice (le4 6)) 3 2 (le4 6) ∧ le (le4 6) 0 4 ≠ 5 :=
  ⟨asks_of (by decide +kernel), rfl, by decide, asks_of (by decide +kernel), by decide⟩
theorem witness_session_grace : Asks (ask 3 (le4 61) s0) 3 3 (le4 61) := asks_of (by decide +kernel)
theorem test_session_grace : (match exec (.sessionGrace 3) (ask 3 (le4 61) s0) with
    | .next t => t.grace
    | _ => 0) = 60 := by decide +kernel

def polPl (p rec rw res : Nat) : List Byte := [BitVec.ofNat 8 p, BitVec.ofNat 8 rec, BitVec.ofNat 8 rw, BitVec.ofNat 8 res] ++ zeros 4 ++ zeros 8
theorem witness_part_policy : Asks (ask 0x50 (polPl 12 0 0 0) s0) 3 0x50 (polPl 12 0 0 0) ∧ 11 < le (polPl 12 0 0 0) 0 1 ∧
    Asks (ask 0x50 (polPl 0 0 0 0) s0) 3 0x50 (polPl 0 0 0 0) ∧ (s0.part 1).state = .unconfigured ∧ (s0.part 0).state = .running ∧
    (policyAccess (ask 0x50 (polPl 0 0 0 0) s0) 0 0 0 0 0 0x0203).2.1 = 0 :=
  ⟨asks_of (by decide +kernel), by decide, asks_of (by decide +kernel), by decide +kernel, by decide +kernel, by decide +kernel⟩

theorem witness_debug_dump : Asks (ask 0x60 (zeros 8) s0) 3 0x60 (zeros 8) ∧ le (zeros 8) 4 4 < (coreDump (ask 0x60 (zeros 8) s0) (le (zeros 8) 0 2)).length ∧
    Asks (ask 0x60 (leBytes 2 4224 ++ zeros 6) s0) 3 0x60 (leBytes 2 4224 ++ zeros 6) :=
  ⟨asks_of (by decide +kernel), by simp only [coreDump, List.length_cons]; exact Nat.succ_pos _, asks_of (by decide +kernel)⟩

/-! Contexts -/

def sRoom : State := { s0 with extents := [{ base := 0, size := 0x20000, ctx := some 1 }], genNext := 5, genEnd := 9 }
def create1 : List Byte := [0, 2, 1, 3]
theorem witness_ctx_create : Asks (ask 0x10 create1 sRoom) 3 0x10 create1 ∧ lowest 4096 (fun c => ((ask 0x10 create1 sRoom).ctx? c).isNone) = some 0 ∧
    (takeGen (ask 0x10 create1 sRoom)).map (·.2) = some 5 ∧ ((ask 0x10 create1 sRoom).pinnedIn 0).length < 3 ∧
    3 ≤ ((ask 0x10 create1 sRoom).freeEpochs 0).length ∧ ((takeGen (ask 0x10 create1 sRoom)).bind fun r =>
      (buildContext r.1 0 (Context.fresh 5 0 2 true)).map fun t => (t.contexts.map fun e => (e.1, e.2.gen, e.2.prio), t.leaves.map (·.va))) =
        some ([(0, 5, 2), (1, 1, 0)], [0x00FF_FFFF_F000_0000, 0x00FF_FFFF_F001_0000, 0x00FF_FFFF_F002_0000]) :=
  ⟨asks_of (by decide +kernel), by decide +kernel, by decide +kernel, by decide +kernel, by decide +kernel, by decide +kernel⟩

theorem witness_ctx_rows : AsksFor (askFor 0x11 [] s0) 3 0x11 [] 1 c0 ∧ AsksFor (askFor 0x12 [] s0) 3 0x12 [] 1 c0 ∧
    AsksFor (askFor 0x13 [7, 1] s0) 3 0x13 [7, 1] 1 c0 ∧ ((askFor 0x13 [7, 1] s0).pinnedIn 0) = [] ∧
    AsksFor (askFor 0x14 (zeros 10) s0) 3 0x14 (zeros 10) 1 c0 ∧ AsksFor (askFor 0x14 (zeros 8 ++ [127, 0]) s0) 3 0x14 (zeros 8 ++ [127, 0]) 1 c0 ∧
    AsksFor (askFor 0x62 (zeros 8) s0) 3 0x62 (zeros 8) 1 c0 ∧ AsksFor (askFor 0x62 (le8 sysBase) s0) 3 0x62 (le8 sysBase) 1 c0 :=
  ⟨asksFor_of (by decide +kernel), asksFor_of (by decide +kernel), asksFor_of (by decide +kernel), by decide +kernel, asksFor_of (by decide +kernel),
    asksFor_of (by decide +kernel), asksFor_of (by decide +kernel), asksFor_of (by decide +kernel)⟩

def pinned3 : State := { s0 with contexts := [(1, c0), (2, { c0 with pinned := true }), (3, { c0 with pinned := true }), (4, { c0 with pinned := true })] }
theorem witness_ctx_set_pinned : AsksFor (askFor 0x13 [7, 1] pinned3) 3 0x13 [7, 1] 1 c0 ∧
    3 ≤ (((askFor 0x13 [7, 1] pinned3).pinnedIn c0.part).filter fun k => decide (k ≠ 1)).length := ⟨asksFor_of (by decide +kernel), by decide +kernel⟩

def st0 : Station := { declared 1 (zeros 64) with tag := 1, groups := 1, vregs := 64, insts := 1, mill := 1, entry := 0x10000 }
def parked0 (reason : BitVec 8) : Parked :=
  { station := 1, inst := 0, index := 0, reason := reason, status := 0, pc := 0x10000, time := 0, addr := 0, core := 5, aux := 0, resume := false, grp := k0 }
def sPark (reason : BitVec 8) : State := { s0 with groups := [], stations := [(0, st0)], parked := [parked0 reason] }
def parkPl : List Byte := le4 1 ++ zeros 8
theorem witness_park_read : AsksFor (askFor 0x15 parkPl (sPark 7)) 3 0x15 parkPl 1 c0 ∧ (askFor 0x15 parkPl (sPark 7)).stationOf 1 1 = some (0, st0) ∧
    (askFor 0x15 parkPl (sPark 7)).findParked 1 0 0 = some (parked0 7) ∧ (askFor 0x15 parkPl s0).stationOf 1 1 = none ∧
    AsksFor (askFor 0x15 parkPl s0) 3 0x15 parkPl 1 c0 :=
  ⟨asksFor_of (by decide +kernel), by decide +kernel, by decide +kernel, by decide +kernel, asksFor_of (by decide +kernel)⟩
theorem witness_debug_resume : ∀ r ∈ ([6, 7] : List (BitVec 8)), asksFor (askFor 0x61 parkPl (sPark r)) 3 0x61 parkPl 1 c0 = true ∧
    (askFor 0x61 parkPl (sPark r)).findParked 1 0 0 = some (parked0 r) ∧ (askFor 0x61 parkPl s0).stationOf 1 1 = none ∧
    asksFor (askFor 0x61 parkPl s0) 3 0x61 parkPl 1 c0 = true := by decide +kernel

/-! Memory objects -/

def sMem : State := { sRoom with mem := [] }
def memPl : List Byte := le8 65537 ++ [1, 0, 1, 0] ++ zeros 2
theorem witness_mem_create : AsksFor (askFor 0x20 memPl sMem) 3 0x20 memPl 1 c0 ∧ (askFor 0x20 memPl sMem).freeObjIndex = some 0 ∧
    2 * 65536 ≤ ((askFor 0x20 memPl sMem).groupsOfMode 0 1).length * groupBytes ∧ (takePages 0 1 65536 2 (askFor 0x20 memPl sMem)).isSome = true :=
  ⟨asksFor_of (by decide +kernel), by decide +kernel, by decide +kernel, by decide +kernel⟩
/-- 65,537 bytes take two pages of 64 KiB, and the object's handle is index 0 with the first tag. -/
theorem test_mem_create : (match exec (.memCreate 3) (askFor 0x20 memPl sMem) with
    | .next t => t.objs.map fun e => (e.1, e.2.tag, e.2.bytes, e.2.nomove, e.2.pages.map (·.toNat))
    | _ => []) = [(0, 1, 131072, true, [0x20000, 0x30000])] := by decide +kernel

def obj0 (part : Nat) : Obj := { Obj.fresh 131072 1 65536 part false [1] [0x20000, 0x30000] with tag := 1 }
def sObj (part : Nat) : State := { sMem with objs := [(0, obj0 part)], contexts := [(1, c0), (2, c0)] }
def mapPl : List Byte := le4 1 ++ zeros 4 ++ le8 0x40000 ++ le8 65536 ++ le8 65536 ++ [3, 0, 0, 0]
theorem map_request : MapRequest (askFor 0x21 mapPl (sObj 0)) 1 mapPl 0 (obj0 0) :=
  ⟨by decide +kernel, by decide, by decide, by decide, by decide, by decide, by decide +kernel, by decide, by decide, by decide +kernel, by decide +kernel⟩
def mapped : Option State :=
  mapPages 1 0 0 (obj0 0) (fun frame => mkLeaf frame true true false 0 false false false false 0) [(0x40000, 1)] (askFor 0x21 mapPl (sObj 0))
theorem witness_mem_map : AsksFor (askFor 0x21 mapPl (sObj 0)) 3 0x21 mapPl 1 c0 ∧ MapRequest (askFor 0x21 mapPl (sObj 0)) 1 mapPl 0 (obj0 0) ∧
    (askFor 0x21 mapPl (sObj 0)).memBusy 1 = false ∧ mapped.isSome = true :=
  ⟨asksFor_of (by decide +kernel), map_request, by decide +kernel, by decide +kernel⟩
/-- The leaf of VA 0x40000 maps the object's second page. -/
theorem test_mem_map : (mapped.map fun t => match t.walk 1 0x40010 with
    | .leaf level _ e => (level, leafAddr level 0x40010 e)
    | _ => (9, 0)) = some (0, 0x30010) := by decide +kernel

def leaf1 : LeafRec := { ctx := 1, va := 0x40000, level := 0, entry := 0x8800, obj := some 0, page := 1 }
def sLeaf (ls : List LeafRec) : State := { sObj 0 with leaves := ls }
def unmapPl : List Byte := le8 0x40000 ++ le8 0x20000
theorem witness_mem_unmap : AsksFor (askFor 0x22 unmapPl (sLeaf [leaf1])) 3 0x22 unmapPl 1 c0 ∧ (askFor 0x22 unmapPl (sLeaf [leaf1])).memBusy 1 = false ∧
    (askFor 0x22 unmapPl (sLeaf [leaf1])).leavesIn 1 0x40000 0x20000 = [leaf1] ∧ leaf1.va + 2 ^ levelShift leaf1.level ≤ 0x40000 + 0x20000 ∧
    AsksFor (askFor 0x22 unmapPl (sLeaf [])) 3 0x22 unmapPl 1 c0 ∧ (askFor 0x22 unmapPl (sLeaf [])).leavesIn 1 0x40000 0x20000 = [] :=
  ⟨asksFor_of (by decide +kernel), by decide +kernel, by decide +kernel, by decide, asksFor_of (by decide +kernel), by decide +kernel⟩

def sharePl : List Byte := le4 1 ++ leBytes 2 2 ++ zeros 2 ++ le8 1
theorem witness_mem_share : ∀ p ∈ [0, 5], asksFor (askFor 0x23 sharePl (sObj p)) 3 0x23 sharePl 1 c0 = true ∧
    (askFor 0x23 sharePl (sObj p)).heldObj 1 1 = some (0, obj0 p) ∧ targetStatus (askFor 0x23 sharePl (sObj p)) 2 1 = 0 ∧
    (askFor 0x23 sharePl (sObj p)).ctxPart 2 = 0 := by decide +kernel
theorem witness_mem_release : ∀ ls ∈ [[], [leaf1]], asksFor (askFor 0x24 (le4 1) (sLeaf ls)) 3 0x24 (le4 1) 1 c0 = true ∧
    (askFor 0x24 (le4 1) (sLeaf ls)).memBusy 1 = false ∧ (askFor 0x24 (le4 1) (sLeaf ls)).heldObj 1 1 = some (0, obj0 0) := by decide +kernel
theorem witness_mem_query : AsksFor (askFor 0x25 (le4 1) (sObj 0)) 3 0x25 (le4 1) 1 c0 ∧ (askFor 0x25 (le4 1) (sObj 0)).heldObj 1 1 = some (0, obj0 0) ∧
    AsksFor (askFor 0x25 (le4 2) (sObj 0)) 3 0x25 (le4 2) 1 c0 ∧ (askFor 0x25 (le4 2) (sObj 0)).heldObj 1 2 = none :=
  ⟨asksFor_of (by decide +kernel), by decide +kernel, asksFor_of (by decide +kernel), by decide +kernel⟩

/-! Commons -/

def sCom : State := { sMem with hbmGroups := [(0, { mode := 1, part := 0 }), (1, { mode := 4, part := 12 })], cellarGroups := [(0, { mode := 5, part := 12 })] }
theorem witness_commons_create : Asks (ask 0x28 (le8 1) sCom) 3 0x28 (le8 1) ∧ (ask 0x28 (le8 1) sCom).freeObjIndex = some 0 ∧
    65536 ≤ ((ask 0x28 (le8 1) sCom).groupsOfMode 12 4).length * groupBytes ∧ (takeCommons (ask 0x28 (le8 1) sCom) 1).isSome = true :=
  ⟨asks_of (by decide +kernel), by decide +kernel, by decide +kernel, by decide +kernel⟩

def comObj (sealed0 : Bool) : Obj := { Obj.fresh 65536 0 65536 12 true [] [0x3_0000_0000] with
  tag := 1, commons := true, refPages := [0x0400_0000_0000], digestBase := 0x0400_0001_0000, isSealed := sealed0 }
def sComObj (b : Bool) : State := { sWalk (leaf0 0x10000 0) with objs := [(0, comObj b)] }
def fillPl (off : Nat) : List Byte := le4 1 ++ zeros 4 ++ le8 off ++ le8 0x10000 ++ le8 16
/-- The source page lies in a group that is sealed. -/
def sFar : State := { sWalk (leaf0 0x3_0000_0000 0) with objs := [(0, comObj false)], seals := [(.hbmGroup 1, .closed)] }
theorem witness_commons_fill : (∀ b ∈ [true, false], asksFor (askFor 0x29 (fillPl 8) (sComObj b)) 3 0x29 (fillPl 8) 1 c0 = true ∧
      (askFor 0x29 (fillPl 8) (sComObj b)).memBusy 1 = false ∧ (askFor 0x29 (fillPl 8) (sComObj b)).commonsOf 1 = some (0, comObj b)) ∧
    asksFor (askFor 0x29 (fillPl 65535) (sComObj false)) 3 0x29 (fillPl 65535) 1 c0 = true ∧ (comObj false).bytes < 65535 + 16 ∧
    (match stewardRead (askFor 0x29 (fillPl 8) (sComObj false)) 1 0x10000 with
      | .ok pa _ => some pa
      | _ => none) = some 0x10000 ∧ (askFor 0x29 (fillPl 8) (sComObj false)).homeStatus 0x10000 = 0 ∧
    (match stewardRead (askFor 0x29 (fillPl 8) sFar) 1 0x10000 with
      | .ok pa _ => decide ((askFor 0x29 (fillPl 8) sFar).homeStatus pa = 0x0407)
      | _ => false) = true := by decide +kernel

/-- An empty object stands for a commons whose blocks are all digested. -/
def comNone (b : Bool) : Obj := { comObj b with bytes := 0, pages := [], refPages := [] }
theorem witness_commons_seal : ∀ b ∈ [true, false], asks (ask 0x2A (le4 1) (sComObj b)) 3 0x2A (le4 1) = true ∧
    (ask 0x2A (le4 1) (sComObj b)).commonsOf 1 = some (0, comObj b) := by decide +kernel
def sComLeaf (ls : List LeafRec) : State := { sComObj true with leaves := ls }
theorem witness_commons_free : (∀ ls ∈ [[], [leaf1]], asks (ask 0x2B (le4 1) (sComLeaf ls)) 3 0x2B (le4 1) = true ∧
      (ask 0x2B (le4 1) (sComLeaf ls)).commonsOf 1 = some (0, comObj true)) ∧
    asks (ask 0x2B (le4 2) (sComLeaf [])) 3 0x2B (le4 2) = true ∧ (ask 0x2B (le4 2) (sComLeaf [])).commonsOf 2 = none := by decide +kernel

/-! Tallies and epochs -/

def sTal (t : Tally) : State := { sTW with tallies := [(1, t)], contexts := [(1, c0), (2, c0)] }
def h1 : List Byte := le4 32769
theorem witness_tally_alloc : AsksFor (askFor 0x40 (le8 7) sT) 3 0x40 (le8 7) 1 c0 ∧ (askFor 0x40 (le8 7) sT).talliesOfPart 0 < 8 ∧
    (askFor 0x40 (le8 7) sT).freeTally 0 = some 0 ∧ AsksFor (askFor 0x40 (le8 7) s0) 3 0x40 (le8 7) 1 c0 ∧ ((askFor 0x40 (le8 7) s0).part 0).tallyQuota = 0 :=
  ⟨asksFor_of (by decide +kernel), by decide +kernel, by decide +kernel, asksFor_of (by decide +kernel), by decide +kernel⟩
/-- The first allocation of a tally gives tag 1: the model's choice (log entry 11). -/
theorem test_tally_alloc : (match exec (.tallyAlloc 3) (askFor 0x40 (le8 7) sT) with
    | .next t => (t.tallies.filter fun e => e.1 = 0).map fun e => (e.2.tag, e.2.value, e.2.owner)
    | _ => []) = [(1, 7, some 1)] := by decide +kernel

theorem owns (cmd : Nat) (pl : List Byte) (t : Tally) (h : t.alloc = true ∧ t.tag = 1 ∧ t.owner = some 1 ∧ t.corrupt = false)
    (hp : (askFor cmd pl (sTal t)).tallyOf 1 (le pl 0 4) = some 1) : Owns (askFor cmd pl (sTal t)) 1 (le pl 0 4) 1 :=
  ⟨hp, h.2.2.1⟩
theorem witness_tally_owner : AsksFor (askFor 0x41 h1 (sTal tal1)) 3 0x41 h1 1 c0 ∧ Owns (askFor 0x41 h1 (sTal tal1)) 1 (le h1 0 4) 1 ∧
    ((fireAll (askFor 0x41 h1 (sTal tal1)) 1 (fun w => decide (w.ctx = 1)) 0x0605).tally 1).imports = [] ∧
    ((fireAll (askFor 0x41 h1 (sTal { tal1 with imports := [2] })) 1 (fun w => decide (w.ctx = 1)) 0x0605).tally 1).imports = [2] ∧
    AsksFor (askFor 0x42 (h1 ++ zeros 4 ++ le8 9) (sTal tal1)) 3 0x42 (h1 ++ zeros 4 ++ le8 9) 1 c0 ∧
    AsksFor (askFor 0x43 (h1 ++ leBytes 4 2 ++ le8 1) (sTal tal1)) 3 0x43 (h1 ++ leBytes 4 2 ++ le8 1) 1 c0 ∧
    targetStatus (sTal tal1) 2 1 = 0 ∧ targetStatus (sTal tal1) 3 1 ≠ 0 :=
  ⟨asksFor_of (by decide +kernel), owns _ _ _ (by decide +kernel) (by decide +kernel), by decide +kernel, by decide +kernel,
    asksFor_of (by decide +kernel), asksFor_of (by decide +kernel), by decide +kernel, by decide +kernel⟩
theorem witness_tally_not_owner : ∀ cmd ∈ [0x41, 0x42, 0x43], asksFor (askFor cmd (zeros 16) (sTal tal1)) 3 cmd (zeros 16) 1 c0 = true ∧
    (askFor cmd (zeros 16) (sTal tal1)).tallyOf 1 0 = none ∧
    asksFor (askFor cmd h1 (sTal { tal1 with owner := some 2, imports := [1] })) 3 cmd h1 1 c0 = true ∧
    (askFor cmd h1 (sTal { tal1 with owner := some 2, imports := [1] })).tallyOf 1 (le h1 0 4) = some 1 := by decide +kernel
theorem witness_tally_import : let t := { tal1 with owner := some 2, exports := [1] }
    asksFor (askFor 0x44 h1 (sTal t)) 3 0x44 h1 1 c0 = true ∧ (askFor 0x44 h1 (sTal t)).tally (le h1 0 4 / 32768) = t ∧ t.tag = le h1 0 4 % 32768 ∧
    1 ∈ t.exports ∧ asksFor (askFor 0x44 h1 (sTal tal1)) 3 0x44 h1 1 c0 = true ∧ 1 ∉ tal1.exports := by decide +kernel
theorem witness_tally_release : let t := { tal1 with owner := some 2, imports := [1] }
    asksFor (askFor 0x45 h1 (sTal t)) 3 0x45 h1 1 c0 = true ∧ (askFor 0x45 h1 (sTal t)).tallyOf 1 (le h1 0 4) = some 1 ∧ t.imports.contains 1 = true ∧
    asksFor (askFor 0x46 h1 (sTal t)) 3 0x46 h1 1 c0 = true ∧ asksFor (askFor 0x46 (zeros 4) (sTal t)) 3 0x46 (zeros 4) 1 c0 = true ∧
    (askFor 0x46 (zeros 4) (sTal t)).tallyOf 1 0 = none := by decide +kernel

def sFreeEp : State := { sEp with epochs := [(2, { ep0 with state := .free })] }
def sNoEp : State := { sEp with epochs := (List.range 64).map fun i => (i, { ep0 with owner := some 2 }) }
theorem witness_epoch_commands : asksFor (askFor 0x48 [2] sFreeEp) 3 0x48 [2] 1 c0 = true ∧ 2 ≤ ((askFor 0x48 [2] sFreeEp).freeEpochs 0).length ∧
    asksFor (askFor 0x48 [2] sNoEp) 3 0x48 [2] 1 c0 = true ∧ ((askFor 0x48 [2] sNoEp).freeEpochs 0).length < 2 ∧
    asksFor (askFor 0x49 (le8 4) sFreeEp) 3 0x49 (le8 4) 1 c0 = true ∧ (sFreeEp.epoch 2).owner = some 1 ∧ (sFreeEp.epoch 2).state = .free ∧
    asksFor (askFor 0x49 (le8 4) sEp) 3 0x49 (le8 4) 1 c0 = true ∧ (sEp.epoch 2).owner = some 1 ∧ (sEp.epoch 2).state ≠ .free ∧
    asksFor (askFor 0x49 (le8 1) sEp) 3 0x49 (le8 1) 1 c0 = true ∧ (sEp.epoch 0).owner ≠ some 1 := by decide +kernel

/-! Queues -/

def queue0 (notify : Bool) (slot : Option Nat) (tail : Nat) : Queue :=
  { tag := 1, ctx := 1, loc := 0, notify := notify, ring := 0x10000, log2 := 4, prio := 0, head := 0, tail := tail, p := 32769, c := 65537,
    stopped := none, slot := slot, since := 0, entries := [] }
def sQ (q : Queue) : State := { sT with
  queues := [(0, q)], tallies := [(1, tal1), (2, { tal1 with value := 3 })], mem := walkMem (leaf0 0x10000 0)
  extents := [{ base := 0, size := 0x20000, ctx := some 1 }] }
def queuePl (kind : Nat) (p c : Nat) : List Byte := le8 0x10000 ++ [BitVec.ofNat 8 kind, 4, 0, 0] ++ le4 p ++ le4 c
theorem witness_queue_create : (∀ kind ∈ [0, 1], let pl := if kind = 0 then queuePl 0 0 0 else queuePl 1 32769 65537
      let s := askFor 0x30 pl (sQ (queue0 false none 0))
      asksFor s 3 0x30 pl 1 c0 = true ∧ ringMapped s 1 0x10000 (64 * 2 ^ 4) = true ∧ lowest 16384 (fun i => (tfind s.queues i).isNone) = some 1 ∧
      lowest 256 (fun i => !((s.queues.filter fun e => decide (e.2.ctx = 1)).any fun e => decide (e.2.loc = i))) = some 1) ∧
    (setLeaf (askFor 0x30 (queuePl 0 0 0) (sQ (queue0 false none 0))) 1 (doorbellVA 1) 0 (doorbellLeaf none) none 0).isSome = true ∧
    ((sQ (queue0 false none 0)).tallyOf 1 32769).isSome = true ∧ ((sQ (queue0 false none 0)).tallyOf 1 65537).isSome = true := by decide +kernel

def dLeaf : LeafRec := { ctx := 1, va := doorbellVA 0, level := 0, entry := 0x9800, obj := none, page := 0 }
def sQD (q : Queue) : State := { sQ q with leaves := [dLeaf] }
def hq : List Byte := le4 (queueHandle 0 1)
theorem witness_queue_commands : (∀ q ∈ [queue0 false none 2, queue0 false (some 0) 2, queue0 true none 0], ∀ cmd ∈ [0x31, 0x33],
      asksFor (askFor cmd hq (sQD q)) 3 cmd hq 1 c0 = true ∧ (askFor cmd hq (sQD q)).queueOf 1 (le hq 0 4) = some (0, q)) ∧
    (withdrawSlot (askFor 0x31 hq (sQD (queue0 false (some 0) 2))) 0).isSome = true ∧
    (∀ row ∈ [(false, 5), (false, 1), (true, 7), (true, 8)], let pl := hq ++ zeros 4 ++ le8 row.2
      asksFor (askFor 0x32 pl (sQD (queue0 row.1 none 2))) 3 0x32 pl 1 c0 = true ∧
      (askFor 0x32 pl (sQD (queue0 row.1 none 2))).queueOf 1 (le pl 0 4) = some (0, queue0 row.1 none 2)) ∧
    (∀ cmd ∈ [0x31, 0x32, 0x33], asksFor (askFor cmd (zeros 16) (sQD (queue0 true none 0))) 3 cmd (zeros 16) 1 c0 = true ∧
      (askFor cmd (zeros 16) (sQD (queue0 true none 0))).queueOf 1 0 = none) := by decide +kernel
/-- Tail 5 is inside the ring of 16 entries; tail 1 is behind tail 2 and stops the queue; with 10 produced and 3 consumed, 7 more may be
consumed and 8 may not. -/
theorem test_queue_doorbell : ([(false, 5), (false, 1), (true, 7), (true, 8)].map fun row =>
      match exec (.queueDoorbell 3) (askFor 0x32 (hq ++ zeros 4 ++ le8 row.2) (sQD (queue0 row.1 none 2))) with
      | .next t => (t.queues.map fun e => (e.2.tail, e.2.stopped), (t.tally 2).value)
      | _ => ([], 0)) =
    [([(5, none)], 3), ([(2, some 0x0308)], 3), ([(2, none)], 10), ([(2, none)], 3)] := by decide +kernel

/-! Partitions -/

def sPart (st : PartState) (cs : Table Context) : State := { State.reset with
  power := { Power.reset with st := .ready }, contexts := cs, parts := [(0, { part0 with state := st, halls := 3 }), (1, { part0 with state := st, halls := 4 })] }
def cfgPl (n flags : Nat) : List Byte := [2, 0] ++ leBytes 2 n ++ [0, BitVec.ofNat 8 flags, 0, 0] ++ leBytes 2 0 ++ zeros 54
theorem witness_part_config : Asks (ask 0x58 (cfgPl 8 0x80) (sPart .quiesced [])) 3 0x58 (cfgPl 8 0x80) ∧ 128 ≤ le (cfgPl 8 0x80) 5 1 ∧
    Asks (ask 0x58 (cfgPl 8 0) (sPart .quiesced [])) 3 0x58 (cfgPl 8 0) ∧
    configStatus (ask 0x58 (cfgPl 8 0) (sPart .quiesced [])) 2 (partOfRecord ((ask 0x58 (cfgPl 8 0) (sPart .quiesced [])).part 2) (cfgPl 8 0)) = 0 ∧
    Asks (ask 0x58 (cfgPl 1 0) (sPart .quiesced [])) 3 0x58 (cfgPl 1 0) ∧
    configStatus (ask 0x58 (cfgPl 1 0) (sPart .quiesced [])) 2 (partOfRecord ((ask 0x58 (cfgPl 1 0) (sPart .quiesced [])).part 2) (cfgPl 1 0)) = 0x0317 :=
  ⟨asks_of (by decide +kernel), by decide, asks_of (by decide +kernel), by decide +kernel, asks_of (by decide +kernel), by decide +kernel⟩
theorem witness_part_commands : (∀ cmd ∈ [0x59, 0x5A, 0x5B], ∀ st ∈ [PartState.quiesced, .running, .unconfigured, .down],
      asks (ask cmd [0] (sPart st [])) 3 cmd [0] = true ∧ ((ask cmd [0] (sPart st [])).part 0).state = st) ∧
    ((ask 0x59 [0] (sPart .running [])).part 0).quiesceMb = none ∧ (ask 0x59 [0] (sPart .running [])).ctxsOf 0 = [] ∧
    (resetBegin (beginWait (ask 0x5B [0] (sPart .running [])) 3) 0).ctxsOf 0 = [] ∧
    (resetBegin (beginWait (ask 0x5B [0] (sPart .running [(1, c0)])) 3) 0).ctxsOf 0 ≠ [] := by decide +kernel
def movePl : List Byte := [0, 1] ++ leBytes 2 2
theorem witness_move_halls : (∀ st ∈ [PartState.quiesced, .running], asks (ask 0x5C movePl (sPart st [])) 3 0x5C movePl = true ∧
      (∀ h ∈ (List.range 16).filter fun h => decide (nbits (le movePl 2 2) h h = 1), ((sPart st []).part 0).halls.getLsbD h = true)) ∧
    moveInUse (ask 0x5C movePl (sPart .quiesced [])) 0 [1] = false ∧
    moveInUse (ask 0x5C movePl { sPart .quiesced [] with epochs := [(1, ep0)] }) 0 [1] = true := by decide +kernel
/-- A target of 0xFF takes the hall dies out of every partition; a third partition's guarantee leaves no room on the moved stacks. -/
def moveAway : List Byte := [0, 0xFF] ++ leBytes 2 2
def sOver : State := { sPart .quiesced [] with
  parts := [(0, { part0 with state := .quiesced, halls := 3 }), (1, { part0 with state := .quiesced, halls := 4 }), (2, { part0 with halls := 8 })]
  regs := [(regKey 2 2, { Regulator.reset with guar := 60000 })] }
theorem witness_move_halls_more : asks (ask 0x5C moveAway (sPart .quiesced [])) 3 0x5C moveAway = true ∧
    moveInUse (ask 0x5C moveAway (sPart .quiesced [])) 0 [1] = false ∧
    regsOver (moveHalls (ask 0x5C moveAway (sPart .quiesced [])) 0 none 2 [1]) = false ∧
    regsOver (moveHalls (ask 0x5C movePl (sPart .quiesced [])) 0 (some 1) 2 [1]) = false ∧
    asks (ask 0x5C movePl sOver) 3 0x5C movePl = true ∧ moveInUse (ask 0x5C movePl sOver) 0 [1] = false ∧
    regsOver (moveHalls (ask 0x5C movePl sOver) 0 (some 1) 2 [1]) = true := by decide +kernel
theorem test_move_halls_away : (match exec (.partMoveHalls 3) (ask 0x5C moveAway (sPart .quiesced [])) with
    | .next t => ((t.part 0).halls, (t.part 1).halls)
    | _ => (0, 0)) = (1, 4) := by decide +kernel
theorem test_move_halls : (match exec (.partMoveHalls 3) (ask 0x5C movePl (sPart .quiesced [])) with
    | .next t => ((t.part 0).halls, (t.part 1).halls)
    | _ => (0, 0)) = (1, 6) := by decide +kernel

/-! ## The queue engine and the bells -/

/-- A ring entry: OP, source, destination, length, larder reference, the tally and amount of WAIT and RAISE. -/
def ent (op src dst len lard amount tally : Nat) : List Byte :=
  zeros 7 ++ [BitVec.ofNat 8 op] ++ le8 src ++ le8 dst ++ le8 len ++ le8 lard ++ zeros 8 ++ le8 amount ++ zeros 4 ++ le4 tally
def q1 : Queue := { queue0 false (some 0) 1 with ring := 0x11000 }
def inst0 : Inst := { core := some 5, last := 5, placed := true, base := 0, saved := [], savedPoison := [], stranded := false, left := [] }
def withInst (s : State) : State := { s with stations := [(0, st0)], insts := [(0, inst0)] }
def sEnt (e : List Byte) : State := withInst { sQ q1 with
  groups := [], mem := putBytes (walkMem (leaf0 0x10000 0)) 0x11000 e }
def afterReach (e : List Byte) : State := (reach (sEnt e) (.engine 0 0) 1 .r [(q1.entryAddr 0, 64)]).1

theorem starts_of (op : Nat) (e : List Byte) (h : (reach (sEnt e) ((sEnt e).engine 1 0) 1 .r [(q1.entryAddr 0, 64)]).2 = .ok)
    (hs : (sEnt e).served 1 = true) (he : (sEnt e).engine 1 0 = .engine 0 0) (hr : (afterReach e).virtBytes ((sEnt e).engine 1 0) 1 (q1.entryAddr 0) 64 = e)
    (hc : le e 7 1 = op) : Starts (sEnt e) op 0 0 q1 (afterReach e) e where
  queue := rfl
  submit := ⟨rfl, rfl, rfl⟩
  served := hs
  next := ⟨rfl, by decide⟩
  reached := Prod.ext (by rw [afterReach, show q1.ctx = 1 from rfl, he]) h
  read := hr
  code := hc
  room := fun _ => by decide
  ordered := fun _ => rfl

def eCopy : List Byte := ent 1 0x12000 0x12100 32 0 0 0
def eFill : List Byte := ent 2 7 0x12100 32 0 0 0
def eTo : List Byte := ent 3 0x12000 0 32 (2 ^ 32 + 64) 0 0
def eFrom : List Byte := ent 4 0 0x12000 32 (2 ^ 32 + 64) 0 0
def eWait (t : Nat) : List Byte := ent 5 0 0 1 0 40 t
def eRaise : List Byte := ent 6 0 0 1 0 5 32769
def eNop : List Byte := ent 7 0 0 1 0 0 0

theorem starts_rows : ∀ e ∈ ([eCopy, eFill, eTo, eFrom, eWait 32769, eWait 1, eRaise, eNop, ent 1 1 0 0 0 0 0] : List (List Byte)),
    (reach (sEnt e) ((sEnt e).engine 1 0) 1 .r [(q1.entryAddr 0, 64)]).2 = .ok ∧ (sEnt e).served 1 = true ∧ (sEnt e).engine 1 0 = .engine 0 0 ∧
    (afterReach e).virtBytes ((sEnt e).engine 1 0) 1 (q1.entryAddr 0) 64 = e := by decide +kernel

theorem starts {op : Nat} {e : List Byte} (h : e ∈ ([eCopy, eFill, eTo, eFrom, eWait 32769, eWait 1, eRaise, eNop, ent 1 1 0 0 0 0 0] : List (List Byte)))
    (hc : le e 7 1 = op) : Starts (sEnt e) op 0 0 q1 (afterReach e) e :=
  let r := starts_rows e h
  starts_of op e r.1 r.2.1 r.2.2.1 r.2.2.2 hc

theorem witness_entry_invalid : Starts (sEnt (ent 1 1 0 0 0 0 0)) 1 0 0 q1 (afterReach (ent 1 1 0 0 0 0 0)) (ent 1 1 0 0 0 0 0) ∧
    entryInvalid (ent 1 1 0 0 0 0 0) = true := ⟨starts (by decide) (by decide), by decide⟩
theorem witness_entry_copy_fill : Starts (sEnt eCopy) 1 0 0 q1 (afterReach eCopy) eCopy ∧ entryInvalid eCopy = false ∧
    (transfer (afterReach eCopy) (.engine 0 0) 1 32 (.mem 0x12000) (.mem 0x12100)).2 = some (0, 0x12100) ∧
    Starts (sEnt eFill) 2 0 0 q1 (afterReach eFill) eFill ∧ entryInvalid eFill = false ∧
    (transfer (afterReach eFill) (.engine 0 0) 1 32 (.fill (slice eFill 8 8)) (.mem 0x12100)).2 = some (0, 0x12100) :=
  ⟨starts (by decide) (by decide), by decide, by decide +kernel, starts (by decide) (by decide), by decide, by decide +kernel⟩
/-- A transfer waits for an owner of a line it reads, and faults at a page that is not mapped. -/
theorem witness_transfer_waits_faults :
    (transfer { afterReach eCopy with dir := [(576, { DirEntry.reset with st := .owned 6 })] } (.engine 0 0) 1 32 (.mem 0x12000) (.mem 0x12100)).2 =
      none ∧
    (transfer (afterReach eCopy) (.engine 0 0) 1 32 (.mem 0x12000) (.mem 0x40000)).2 = some (0x0401, 0x40000) := by decide +kernel
theorem witness_entry_larder : Starts (sEnt eTo) 3 0 0 q1 (afterReach eTo) eTo ∧ entryInvalid eTo = false ∧ Starts (sEnt eFrom) 4 0 0 q1 (afterReach eFrom) eFrom ∧
    (transfer (afterReach eTo) (.engine 0 0) 1 32 (.mem 0x12000) (.larder 5 64)).2.map (·.1) = some 0 ∧
    (transfer (afterReach eFrom) (.engine 0 0) 1 32 (.larder 5 64) (.mem 0x12000)).2.map (·.1) = some 0 :=
  ⟨starts (by decide) (by decide), by decide, starts (by decide) (by decide), by decide +kernel, by decide +kernel⟩
theorem witness_entry_on_larder : OnLarder (afterReach eTo) q1 true eTo 0 st0 inst0 5 ∧ OnLarder (afterReach eFrom) q1 false eFrom 0 st0 inst0 5 :=
  ⟨⟨by decide +kernel, by decide +kernel, by decide +kernel, ⟨by decide +kernel, rfl⟩, by decide +kernel, by decide +kernel, by decide +kernel⟩,
    ⟨by decide +kernel, by decide +kernel, by decide +kernel, ⟨by decide +kernel, rfl⟩, by decide +kernel, by decide +kernel, by decide +kernel⟩⟩
theorem witness_entry_wait_raise_nop : Starts (sEnt (eWait 32769)) 5 0 0 q1 (afterReach (eWait 32769)) (eWait 32769) ∧ entryInvalid (eWait 32769) = false ∧
    (afterReach (eWait 32769)).tallyOf 1 32769 = some 1 ∧ Starts (sEnt (eWait 1)) 5 0 0 q1 (afterReach (eWait 1)) (eWait 1) ∧
    entryInvalid (eWait 1) = false ∧ (afterReach (eWait 1)).tallyOf 1 1 = none ∧ Starts (sEnt eRaise) 6 0 0 q1 (afterReach eRaise) eRaise ∧
    Starts (sEnt eNop) 7 0 0 q1 (afterReach eNop) eNop ∧ entryInvalid eRaise = false ∧ entryInvalid eNop = false :=
  ⟨starts (by decide) (by decide), by decide, by decide +kernel, starts (by decide) (by decide), by decide, by decide +kernel,
    starts (by decide) (by decide), starts (by decide) (by decide), by decide, by decide⟩

theorem test_queue_fill : (match exec (.queueFill 0 0) (sEnt eFill) with
    | .next t => ([0x12100, 0x12101, 0x12108, 0x1211F, 0x12120].map t.byte, (t.queues.map fun e => e.2.entries))
    | _ => ([], [])) = ([7, 0, 7, 0, 0], [[(0, .running 0 0x12100)]]) := by decide +kernel
theorem test_queue_raise : (match exec (.queueRaise 0 0) (sEnt eRaise) with
    | .next t => (t.tally 1).value
    | _ => 0) = 15 := by decide +kernel

def sPhase (e : List Byte) (p : EntryPhase) : State := { sEnt e with queues := [(0, { q1 with entries := [(0, p)] })] }
theorem witness_entry_complete : tfind (sPhase eNop (.running 0 0)).queues 0 = some ({ q1 with entries := [(0, .running 0 0)] } : Queue) ∧
    tfind { q1 with entries := [(0, .larder 5 0)] : Queue }.entries 0 = some (.larder 5 0) ∧
    (reach (sPhase eNop (.running 0 0)) (.engine 0 0) 1 .rw [(q1.entryAddr 0, 64)]).2 = .ok ∧
    (reach (sPhase eNop (.running 0 0)) (.engine 0 0) 1 .rw [(q1.entryAddr 0, 64)]).1.engine 1 0 = (sPhase eNop (.running 0 0)).engine 1 0 ∧
    (0x0406 : W16) ≠ 0 ∧ (0x0402 : W16) ≠ 0x030A ∧ (0x0402 : W16) ≠ 0x0406 := by decide +kernel
/-- STATUS and DONE are written and HEAD moves. -/
theorem test_entry_complete : (match exec (.queueEntryComplete 0 0) (sPhase eNop (.running 0 0)) with
    | .next t => (t.byte 0x11006, t.queues.map fun e => (e.2.head, e.2.entries))
    | _ => (0, [])) = (0x20, [(1, [])]) := by decide +kernel

theorem witness_wait_retry : let s := sPhase (eWait 32769) .waiting
    tfind s.queues 0 = some { q1 with entries := [(0, .waiting)] } ∧ s.served 1 = true ∧ s.watches = [] ∧
    (reach s (s.engine 1 0) 1 .r [(q1.entryAddr 0, 64)]).2 = .ok := by decide +kernel

theorem witness_doorbell : (sQD q1).ctx? 1 = some c0 ∧ tfind (sQD q1).queues 0 = some q1 ∧ q1.tail ≤ (16 : BitVec 64).toNat ∧
    (16 : BitVec 64).toNat ≤ q1.head + 2 ^ q1.log2 ∧ ¬(17 : BitVec 64).toNat ≤ q1.head + 2 ^ q1.log2 ∧ tfind (sQD { q1 with slot := none }).queues 0 = some { q1 with slot := none } := by decide +kernel
theorem test_doorbell : ([16, 17].map fun v => match exec (.doorbellStore 0 v) (sQD q1) with
    | .next t => t.queues.map fun e => (e.2.tail, e.2.stopped)
    | _ => []) = [[(16, none)], [(1, some 0x0308)]] := by decide +kernel

def sRot (q : Queue) (more : List (Nat × Queue)) : State := { sQD q with queues := (0, q) :: more, power := { s0.power with up := 10 } }
def qBusy (i : Nat) : Queue := { queue0 false (some i) 0 with loc := 1 + i }
/-- A waiting queue and a free slot; none waiting; and a partition of no hall whose four lent slots are held. -/
theorem witness_rotate : (sRot (queue0 false (some 0) 1) []).waitingQueues 0 = [] ∧
    (sRot (queue0 false none 1) []).waitingQueues 0 = [(0, queue0 false none 1)] ∧ (sRot (queue0 false none 1) []).freeSlot 0 = some 0 ∧
    (grantSlot (sRot (queue0 false none 1) []) 0 0).waitingQueues 0 = [] := by decide +kernel
def heldRest : List (Nat × Queue) := (List.range 21).map (fun i => (i + 1, qBusy i)) ++ (List.range 4).map fun i => (i + 30, { qBusy (252 + i) with ctx := 2 })
def dLeaf0 : LeafRec := { dLeaf with va := doorbellVA 1, entry := 0x9808 }
def sHeld : State := { sRot (queue0 false none 1) heldRest with
  leaves := [dLeaf, dLeaf0], contexts := [(1, c0), (2, { c0 with part := 1 })], parts := [(0, part0), (1, { part0 with halls := 2 })] }
theorem witness_rotate_held : (∀ e ∈ sHeld.queues, e.2.slot.isSome = true → sHeld.ctxPart e.2.ctx = 0 → e.2.slot.getD 0 < 252) ∧
    sHeld.waitingQueues 0 = [(0, queue0 false none 1)] ∧ sHeld.freeSlot 0 = none ∧ sHeld.slotVictim 0 sHeld.clock = some 1 ∧
    tfind sHeld.queues 1 = some (qBusy 0) ∧ (withdrawSlot sHeld 1).isSome = true := by decide +kernel

def bellN : Watch := { watch0 with bell := some bell0, rcv := .queue 0 }
def qN : Queue := { queue0 true none 0 with ring := 0x11000, p := 32769, c := 65537 }
def sNote : State := { sQ qN with watches := [(0, bellN)], bells := [0] }
theorem witness_notify_bell : (sNote.watch 0).bell = some bell0 ∧ (sNote.watch 0).rcv = .queue 0 ∧ tfind sNote.queues 0 = some qN ∧
    sNote.tallyOf 1 qN.p.toNat = some 1 ∧ sNote.tallyOf 1 qN.c.toNat = some 2 ∧ sNote.ctx? 1 = some c0 ∧ sNote.firstBell 0 = true ∧
    (sNote.tally 1).value - (sNote.tally 2).value < 2 ^ qN.log2 ∧
    ringSlot sNote 1 (qN.entryAddr (sNote.tally 1).value) = some [(0, 0x11280, 64)] ∧ sNote.homeStatus 0x11280 = 0 := by decide +kernel
theorem test_notify_bell : (match exec (.notifyBellWrite 0) sNote with
    | .next t => ((t.tally 1).value, t.byte 0x11280, t.bells)
    | _ => (0, 0, [0])) = (11, (bellBytes bell0).headD 0, []) := by decide +kernel

def sStew (r : Receiver) : State := { sPhase (eWait 32769) .waiting with watches := [(0, { bellN with rcv := r })], bells := [0] }
theorem witness_bell_to_steward : (sStew .steward).firstBell 0 = true ∧ ((sStew .steward).watch 0).bell = some bell0 ∧
    (sStew (.submitWait 0)).firstBell 0 = true ∧ ((sStew (.submitWait 0)).watch 0).rcv = .submitWait 0 ∧
    (tfind (freeWatch (logBell (sStew (.submitWait 0)) ((sStew (.submitWait 0)).watch 0).ctx bell0) 0).queues 0).isSome = true := by decide +kernel
theorem test_bell_releases_wait : (match exec (.bellToSteward 0) (sStew (.submitWait 0)) with
    | .next t => (t.queues.map (·.2.entries), (t.ctx? 1).map (·.bellCount))
    | _ => ([], none)) = ([[(0, .running 0 0)]], some 1) := by decide +kernel

/-! ## Stations, residency, losses, page moves -/

def decl0 (mill : Nat) (minor : Nat) : List Byte :=
  [1, BitVec.ofNat 8 minor, 1, 8, 1, 0, 0, 0, 0, BitVec.ofNat 8 mill, 0, 0, 0, 0, 0, 0] ++ le8 0x10000 ++ zeros 40
/-- Of the partition's cores only core 5 is enabled. -/
def onlyCore5 : List Nat := (List.range 352).filter fun c => decide (c ≠ 5)
def sDecl : State := { sRoom with groups := [], disabled := onlyCore5 }
/-- The only core is taken by a group of another context. -/
def sTaken : State := { sDecl with groups := [(gkey g0, { k0 with ctx := 2 })] }
/-- Context 1 waits while four contexts hold the slot sets. -/
def sWaits : State := { sDecl with contexts := (1, { c0 with resident := false }) :: [2, 3, 4, 5].map fun i => (i, { c0 with part := 0 }) }

/-- Whether some core takes the only instance of a new station, as `chooseCore` reads it. -/
def placeable (s : State) (n : Nat) (x : Station) : Bool :=
  decide (x.insts = 1) && (match s.inst? n 0 with
    | none => false
    | some y =>
      let fits := fun c => (coreBase s x y (s.needs (stationHandle n x.tag) 0) c).map fun b => (c, b)
      let cs := (partCores s (s.ctxPart x.ctx)).filterMap fits
      let best := minOf (cs.map fun r => coreScore s n x 0 r.1)
      !y.placed && (s.partnerCore n 0).isNone && !(cs.filter fun r => decide (coreScore s n x 0 r.1 = best)).isEmpty)

theorem nth?_below {α : Type} : ∀ {l : List α} {i : Nat}, i < l.length → ∃ a, nth? l i = some a
  | a :: _, 0, _ => ⟨a, rfl⟩
  | _ :: t, _ + 1, h => nth?_below (l := t) (Nat.lt_of_succ_lt_succ h)

/-- A core is chosen whatever the free value is. -/
theorem placeAll_isSome {s : State} {n : Nat} {x : Station} (h : placeable s n x = true) : ∃ t, placeAll s n x = some t := by
  unfold placeable at h
  cases hy : s.inst? n 0 with
  | none => simp [hy] at h
  | some y =>
    simp only [hy, Bool.and_eq_true, decide_eq_true_eq, Bool.not_eq_true', Option.isNone_iff_eq_none] at h
    obtain ⟨hi, ⟨hp, hn⟩, hne⟩ := h
    simp only [placeAll, hi, List.range_one, List.foldl_cons, List.foldl_nil, Option.bind_some, hy, chooseCore, hp, hn, Bool.false_and,
      Bool.false_eq_true, if_false, hne]
    obtain ⟨a, ha⟩ := nth?_below (Nat.mod_lt s.freeVal.2 (List.length_pos_iff.2 (List.isEmpty_eq_false_iff.1 hne)))
    simp [ha]

theorem hintsMet_of {s : State} {x : Station} (h : placeable
    (let n := ((lowest 65536 fun i => (tfind s.stations i).isNone)).getD 65536
     let t := if s.canReside x.ctx then becomeResident s x.ctx else s.ownOnly x.ctx
     addInsts { t with stations := tput t.stations n x } n x 0)
    (((lowest 65536 fun i => (tfind s.stations i).isNone)).getD 65536) x = true) : hintsMet s x = true := by
  obtain ⟨t, ht⟩ := placeAll_isSome h
  rw [hintsMet, ht]
  rfl

theorem witness_declare : AsksFor (askFor 0x38 (decl0 0 2) sDecl) 3 0x38 (decl0 0 2) 1 c0 ∧ Declares (askFor 0x38 (decl0 0 2) sDecl) 1 (decl0 0 2) 0 0 :=
  ⟨asksFor_of (by decide +kernel), by decide +kernel, by decide, hintsMet_of (by decide +kernel), by decide +kernel⟩
def made (s : State) : Option (Station × State) := makeStation (askFor 0x38 (decl0 0 2) s) 1 (decl0 0 2) 0 0
theorem made_placeable : ((made sDecl).map fun r => (r.2.canReside 1, placeable (becomeResident r.2 1) 0 r.1)) = some (true, true) := by decide +kernel
theorem witness_declare_placed : ∃ y s1 t, made sDecl = some (y, s1) ∧ s1.canReside 1 = true ∧ placeAll (becomeResident s1 1) 0 y = some t := by
  have h := made_placeable
  cases hm : made sDecl with
  | none => simp [hm] at h
  | some r =>
    simp only [hm, Option.map_some, Option.some.injEq, Prod.mk.injEq] at h
    obtain ⟨t, ht⟩ := placeAll_isSome h.2
    exact ⟨r.1, r.2, t, rfl, h.1, ht⟩
theorem witness_declare_others : ((made sWaits).map fun r => r.2.canReside 1) = some false ∧
    hintsMet (askFor 0x38 (decl0 0 2) sTaken) (declared 1 (decl0 0 2)) = false ∧
    asksFor (askFor 0x38 (decl0 0 2) sTaken) 3 0x38 (decl0 0 2) 1 c0 = true ∧ declOk (askFor 0x38 (decl0 0 2) sTaken) 1 (decl0 0 2) = true ∧
    declOk (askFor 0x38 (decl0 33 2) sDecl) 1 (decl0 33 2) = false ∧ asksFor (askFor 0x38 (decl0 33 2) sDecl) 3 0x38 (decl0 33 2) 1 c0 = true ∧
    declOk (askFor 0x38 (decl0 0 3) sDecl) 1 (decl0 0 3) = true ∧ 2 < le (decl0 0 3) 1 1 := by decide +kernel

def sSt (p : List Parked) : State := { withInst s0 with groups := [], parked := p }
theorem witness_station_remove : ∀ p ∈ [[], [parked0 7]], asksFor (askFor 0x39 (le4 1) (sSt p)) 3 0x39 (le4 1) 1 c0 = true ∧
    (askFor 0x39 (le4 1) (sSt p)).stationOf 1 1 = some (0, st0) ∧ st0.removing = none ∧
    ((((askFor 0x39 (le4 1) (sSt p)).instsOf 0).all fun e => atBoundary (sSt p) 0 { st0 with removing := some 0 } (e.1 % 4096)) = true ↔ p = []) := by
  decide +kernel
def stR : Station := { st0 with removing := some 0 }
def sRem (t : Nat) : State := { sSt [parked0 7] with
  stations := [(0, stR)], power := { s0.power with up := t }, mailboxes := [(3, { box 0x39 1 1 (le4 1) with waiting := true })] }
theorem witness_station_remove_wait : ∀ t ∈ [99999999, 100000000], (sRem t).stationOf (msgCtx (box 0x39 1 1 (le4 1)).msg)
      (le (msgPayload (box 0x39 1 1 (le4 1)).msg) 0 4) = some (0, stR) ∧ msgCmd (box 0x39 1 1 (le4 1)).msg = 0x39 ∧
    (((sRem t).instsOf 0).all fun e => atBoundary (sRem t) 0 stR (e.1 % 4096)) = false := by decide +kernel

theorem witness_replay : Replays (sSt [parked0 5]) 1 0 0 { core := 5, slot := 4 } (parked0 5) inst0 :=
  ⟨by decide +kernel, by decide +kernel, by decide +kernel, by decide +kernel, by decide +kernel, by decide +kernel⟩
/-- Two instances of a SPREAD station on one die; core 100 is on another. -/
def stSp : Station := { st0 with insts := 2, spread := true }
def sSpread : State := { sSt [] with stations := [(0, stSp)], insts := [(0, inst0), (1, { inst0 with core := some 6, last := 6 })] }
theorem witness_migrate : Alone sSpread 1 0 5 stSp ∧ sSpread.retired.contains 5 = false ∧ atBoundary sSpread 0 stSp 0 = true ∧
    placerWants sSpread 0 stSp 0 5 100 = true ∧ placerMay sSpread 0 0 100 = true ∧
    (moveAll (storeGroups sSpread (stationHandle 0 stSp.tag) 0) [0] 0 100).isSome = true :=
  ⟨⟨by decide +kernel, by decide +kernel, by decide +kernel, by decide +kernel, by decide +kernel⟩, by decide +kernel, by decide +kernel,
    by decide +kernel, by decide +kernel, by decide +kernel⟩
def sRet (off : List Nat) : State := { sSt [parked0 2] with retired := [5], disabled := off }
theorem witness_migrate_retired : ∀ off ∈ [[], onlyCore5], (sRet off).retired.contains 5 = true ∧ (sRet off).residentOf (stationHandle 0 st0.tag) 0 = [] ∧
    ((moveAll (sRet off) [0] 0 6).isSome = true ↔ off = []) ∧ (off = [] ∨ partCores (sRet off) ((sRet off).ctxPart st0.ctx) = []) ∧
    larderQuiet (sRet off) 0 0 = true ∧ (sRet off).served 1 = true := by decide +kernel
theorem test_migrate : (match exec (.instanceMigrate 1 0 100) sSpread with
    | .next t => t.insts.map fun e => (e.1, e.2.core, e.2.left)
    | _ => []) = [(0, some 100, [(5, 0)]), (1, some 6, [])] := by decide +kernel
theorem witness_core_retire : s0.coreEnabled 5 = true ∧ s0.power.st = .ready := by decide +kernel
def sStrand : State := { sSt [parked0 2] with insts := [(0, { inst0 with core := none, stranded := true })] }
theorem witness_instance_placed : tfind sStrand.stations 0 = some st0 ∧ sStrand.inst? 0 0 = some { inst0 with core := none, stranded := true } ∧
    sStrand.served 1 = true ∧ sStrand.partnerCore 0 0 = none ∧
    (coreBase sStrand st0 { inst0 with core := none, stranded := true } (sStrand.needs 1 0) 7).isSome = true := by decide +kernel

def fiveCtx : Table Context := [1, 2, 3, 4].map (fun i => (i, c0)) ++ [(5, { c0 with resident := false })]
def sEvict : State := { s0 with
  power := { s0.power with up := 2000000 }, contexts := fiveCtx, parked := [{ parked0 5 with grp := { k0 with ctx := 5 } }] }
theorem witness_evict : sEvict.ctx? 1 = some c0 ∧ c0.resident = true ∧ sEvict.ctx? 5 = some { c0 with resident := false } ∧
    (5, { c0 with resident := false }) ∈ sEvict.contexts ∧ sEvict.ctxWork 5 = true ∧ 4 ≤ sEvict.slotSets 0 ∧ sEvict.victim 0 = some 1 := by decide +kernel
def sReturn : State := { sSt [parked0 5] with contexts := [(1, { c0 with resident := false })], insts := [(0, { inst0 with core := none })] }
theorem witness_return : sReturn.ctx? 1 = some { c0 with resident := false } ∧ sReturn.canReside 1 = true ∧ sReturn.ctxWork 1 = true ∧
    ∀ x ∈ sReturn.ctxInsts 1, (sReturn.inst? x.1 x.2).bind (·.core) = none := by decide +kernel

def loss0 (gen : Nat) : Loss := { ctx := 1, gen := gen, status := 0x0402, core := 5, station := 1, addr := 0x20000, logged := false }
def sLoss (l : Loss) (cs : Table Context) : State := { s0 with lossQ := [l], contexts := cs }
theorem witness_loss : (∀ gen ∈ [1, 2], ∀ cs ∈ [[], [(1, c0)], [(1, { c0 with state := .lost })]],
    (sLoss (loss0 gen) cs).lossQ.find? (fun l => decide (l.ctx = 1)) = some (loss0 gen)) ∧ (sLoss (loss0 1) [(1, c0)]).ctx? 1 = some c0 := by decide +kernel
theorem test_loss : (match exec (.contextLoss 1) (sLoss (loss0 1) [(1, c0)]) with
    | .next t => ((t.ctx? 1).map fun (c : Context) => (c.state, c.lossStatus, c.lossAddr), t.groups.map (fun e => decide (e.2.mode = .running)), t.lossQ.length)
    | _ => (none, [], 9)) = (some (.lost, 0x0402, 0x20000), [false], 0) := by decide +kernel

def sDest (mb : Option Nat) : State := { s0 with contexts := [(1, { c0 with state := .destroying, destroyMb := mb })] }
theorem witness_destroy_overrun : ∀ mb ∈ [none, some 0], (sDest mb).ctx? 1 = some { c0 with state := .destroying, destroyMb := mb } := by decide +kernel
def sGrace : State := { s0 with port := { Port.reset with graceOn := true }, power := { s0.power with up := 10000000000 } }
theorem witness_grace : sGrace.port.graceOn = true ∧ sGrace.port.session = none ∧
    sGrace.port.graceFrom + sGrace.grace * 1000000000 ≤ sGrace.clock := by decide +kernel
theorem test_grace : (match exec .sessionGraceExpiry sGrace with
    | .next t => (t.ctx? 1).map (·.state)
    | _ => none) ≠ some .active := by decide +kernel
def sAck (todo acks : List TlbStruct) : State := { s0 with shoots := [{ shoot0 with todo := todo, acks := acks }] }
theorem witness_shootdown_ack : (sAck [] [.core 5]).shoots.find? (fun x => decide (x.id = 7)) = some { shoot0 with todo := [], acks := [.core 5] } ∧
    (sAck [.hall 0] [.core 5]).shoots.find? (fun x => decide (x.id = 7)) = some { shoot0 with todo := [.hall 0], acks := [.core 5] } := by decide +kernel

def celPage : Nat := 0x0400_0000_0000
def tierOn : W64 := BitVec.ofNat 64 (2 ^ 56 + 25 * 2 ^ 48 + 2 * 2 ^ 40 + 4 * 2 ^ 32 + 5 * 2 ^ 24 + 4 * 2 ^ 16)
def celObj : Obj := { Obj.fresh 65536 1 65536 0 false [1] [celPage] with tag := 1 }
def celLeaf : LeafRec := { ctx := 1, va := 0x40000, level := 0, entry := 0xD020, obj := some 0, page := 0 }
def sTier (guar fills : Nat) : State := { sWalk (leaf0 0x10000 0) with
  objs := [(0, celObj)], leaves := [celLeaf], cellarGroups := [(0, { mode := 3, part := 0 })], lastHeat := [(celPage / 65536, fills)]
  parts := [(0, { part0 with tier := tierOn })], regs := [(regKey 24 0, { guar := guar, borrow := 0, lock := false, used := 0, eff := 0, waits := 0, calm := 0 })] }
theorem witness_page_move : (∀ guar ∈ [0, 10], (sTier guar 200).leavesOfFrame celPage = [(celLeaf, celObj)] ∧ ((sTier guar 200).groupAt celPage).2 = 0 ∧
      moveMay (sTier guar 200) celPage celObj 0 = true) ∧ moveMay (sTier 10 1) celPage celObj 0 = false ∧
    moveBudget (sTier 0 200) 0 < (tget Tier.reset (sTier 0 200).tiers 0).moved + celObj.page ∧
    (tget Tier.reset (sTier 10 200).tiers 0).moved + celObj.page ≤ moveBudget (sTier 10 200) 0 ∧
    (takeIn (sTier 10 200) (moveInto (sTier 10 200) celPage celObj) 0 65536 65536 none).isSome = true := by decide +kernel
def move0 (copying : Bool) : Move := { id := 3, src := BitVec.ofNat 48 celPage, dst := 0x40000, size := 65536, part := 0, promote := true, copying := copying }
theorem witness_page_copy : ∀ b ∈ [true, false], ({ s0 with moves := [move0 b] } : State).moves.find? (fun m => decide (m.id = 3)) = some (move0 b) := by
  decide +kernel
def sMove (b : Bool) : State := { s0 with moves := [move0 b] }
/-- The copy may be made; a line of the old frame is still owned; the destination has failed. -/
theorem witness_page_copy_cases : dstLost (sMove true) (move0 true) = false ∧ (sMove true).pageBusy celPage 65536 = false ∧
    { sMove true with dir := [(celPage / 128, { DirEntry.reset with st := .owned 6 })] }.pageBusy celPage 65536 = true ∧
    dstLost { sMove true with seals := [(.hbmGroup 0, .dead)] } (move0 true) = true := by decide +kernel
theorem test_move_abandoned : (match exec (.moveAbandoned 3) { sMove true with seals := [(.hbmGroup 0, .dead)] } with
    | .next t => t.moves
    | _ => [move0 true]) = [] := by decide +kernel
def sInterval (t : Tier) : State := { sTier 10 200 with tiers := [(0, t)] }
theorem test_tier_interval : ([({ threshold := 10, heldIntervals := 7, calmIntervals := 0, moved := 0, interval := 5, held := true, demoting := false } : Tier),
      { threshold := 10, heldIntervals := 0, calmIntervals := 63, moved := 0, interval := 5, held := false, demoting := false }].map fun t =>
      match exec (.tierInterval 0) (sInterval t) with
      | .next u => (tget Tier.reset u.tiers 0).threshold
      | _ => 0) = [20, 5] := by decide +kernel

/-! ## The port and Folest -/

def port0 : Port := { Port.reset with link := true, sak := true, mkaLive := true }
def sess0 : Session :=
  { id := 9, rxNext := 100, held := [], txNext := 200, unacked := [], partnerAck := 200, rwnd := 64, sinceAck := 0, ackDue := false }
def sNet0 (x : Option Session) : State := { sWalk (leaf0 0x10000 0) with port := { port0 with session := x } }
def frame (typ : Nat) (session seq : Nat) (pl : List Byte) : Frame :=
  { ver := 1, typ := BitVec.ofNat 8 typ, length := BitVec.ofNat 16 pl.length, retx := false, creditReq := false, resp := false, ackv := decide (typ = 7)
    session := BitVec.ofNat 32 session, seq := BitVec.ofNat 32 seq, ack := 200, rsvd := 0, payload := pl, t0 := 77 }
def dmaPl (n : Nat) : List Byte := leBytes 2 1 ++ zeros 6 ++ le8 1 ++ le8 0x10040 ++ le4 n ++ zeros 4
/-- One frame of each row: type, code and payload. -/
def rowFrames : List (Nat × Nat × List Byte) :=
  [(1, 1, 1 :: zeros 15), (1, 3, 3 :: zeros 15), (1, 5, 5 :: zeros 15), (1, 6, 6 :: zeros 15), (2, 0, zeros 40), (3, 0, dmaPl 4 ++ [1, 2, 3, 4]),
    (4, 0, dmaPl 4), (5, 0, zeros 32), (7, 0, zeros 8), (8, 0, zeros 16), (9, 0, [])]

theorem frame_rows : ∀ r ∈ rowFrames, ∃ row, IsFrameRow row r.1 r.2.1 := by
  intro r hr
  simp only [rowFrames, List.mem_cons, List.not_mem_nil, or_false] at hr
  unfold IsFrameRow
  rcases hr with rfl | rfl | rfl | rfl | rfl | rfl | rfl | rfl | rfl | rfl | rfl <;> exact ⟨_, by simp; rfl⟩

theorem witness_frame_checks : ∀ r ∈ rowFrames, ∀ x ∈ [none, some sess0], ∀ id ∈ [9, 8],
    let f := frame r.1 id 100 r.2.2
    let s := sNet0 x
    s.portOpen = true ∧ s.power.st = .ready ∧ f.typ.toNat = r.1 ∧ (r.1 = 1 → frameCode f = r.2.1) ∧ headerCheck f = 0 ∧
    headerCheck { f with ver := 2 } = 0x0101 := by decide +kernel

theorem expected {typ code : Nat} {f : Frame} {s : State} (x : Session) (hs : s.port.session = some x)
    (h : s.portOpen = true ∧ s.power.st = .ready ∧ f.typ.toNat = typ ∧ (typ = 1 → frameCode f = code) ∧ headerCheck f = 0 ∧ f.session = x.id ∧
      f.seq = x.rxNext ∧ x.held = [] ∧ f.ackv = false ∧ f.creditReq = false) : Expected s x typ code f :=
  ⟨⟨h.1, .inl h.2.1, h.2.2.1, h.2.2.2.1⟩, h.2.2.2.2.1, ⟨hs, h.2.2.2.2.2.1⟩, ⟨h.2.2.2.2.2.2.1, h.2.2.2.2.2.2.2.1⟩, h.2.2.2.2.2.2.2.2⟩

def exp0 (typ : Nat) (pl : List Byte) : Frame := frame typ 9 100 pl
theorem witness_expected_nop_close : Expected (sNet0 (some sess0)) sess0 1 6 (exp0 1 (6 :: zeros 15)) ∧ Expected (sNet0 (some sess0)) sess0 1 3 (exp0 1 (3 :: zeros 15)) ∧
    (closeSession (heardFrame (sNet0 (some sess0))) sess0 100).isSome = true :=
  ⟨expected _ rfl (by decide +kernel), expected _ rfl (by decide +kernel), by decide +kernel⟩
theorem witness_expected_mailbox : Expected (sNet0 (some sess0)) sess0 2 0 (exp0 2 (zeros 40)) ∧ frameCode (exp0 2 (zeros 40)) ≤ 63 ∧
    40 ≤ (exp0 2 (zeros 40)).length.toNat ∧ (exp0 2 (zeros 40)).length.toNat ≤ 4104 :=
  ⟨expected _ rfl (by decide +kernel), by decide, by decide, by decide⟩

def dmaW : Frame := exp0 3 (dmaPl 4 ++ [1, 2, 3, 4])
def dmaR : Frame := exp0 4 (dmaPl 4)
def sNet1 : State := heardFrame (sNet0 (some sess0))
def sDma (need : Need) : State := (portClaim (pageCheck sNet1 1 need 0x10040 4).1 1 need 0x10040 4).1
theorem dma_reached (need : Need) (h : (pageCheck sNet1 1 need 0x10040 4).2 = .ok ∧
    (portClaim (pageCheck sNet1 1 need 0x10040 4).1 1 need 0x10040 4).2 = true) :
    ∃ s1, pageCheck sNet1 1 need 0x10040 4 = (s1, .ok) ∧ portClaim s1 1 need 0x10040 4 = (sDma need, true) :=
  ⟨_, Prod.ext rfl h.1, Prod.ext rfl h.2⟩
theorem witness_expected_dma : Expected (sNet0 (some sess0)) sess0 3 0 dmaW ∧ Expected (sNet0 (some sess0)) sess0 4 0 dmaR ∧
    DmaRange sNet1 dmaW .w (sDma .w) ∧ DmaRange sNet1 dmaR .r (sDma .r) ∧
    (writeRange (sDma .w) 1 0x10040 (dmaW.payload.drop 32)).2 = 0 ∧
    (match readRange (sDma .r) 1 0x10040 4 with
      | .bytes d st => some (d, st)
      | _ => none) = some (zeros 4, 0) :=
  ⟨expected _ rfl (by decide +kernel), expected _ rfl (by decide +kernel),
    ⟨by decide +kernel, by decide, by decide, dma_reached .w (by decide +kernel)⟩,
    ⟨by decide +kernel, by decide, by decide, dma_reached .r (by decide +kernel)⟩, by decide +kernel, by decide +kernel⟩
theorem test_dma_write : (match exec (.dmaWrite dmaW) (sNet0 (some sess0)) with
    | .next t => ([0x10040, 0x10043, 0x10044].map t.byte, t.port.session.map (·.rxNext))
    | _ => ([], none)) = ([1, 4, 0], some 101) := by decide +kernel

def bind0 : Binding :=
  { ctx := 1, gen := 1, record := 0x10200, ring := 0x10400, log2 := 2, size := 128, len := 16, p := 32769, c := 65537, limit := 4, due := false, last := 0 }
def sIn : State := { sNet0 (some sess0) with
  port := { port0 with session := some sess0, bindings := [bind0] }, tallies := [(1, { tal1 with value := 2 }), (2, { tal1 with value := 0 })] }
def ingF : Frame := exp0 5 (leBytes 2 1 ++ leBytes 2 1 ++ leBytes 2 16 ++ zeros 2 ++ le8 1 ++ le8 0x10200 ++ le4 32769 ++ zeros 4 ++ le8 5 ++ le8 6)
def bind1 : Binding := { bind0 with last := (heardFrame sIn).clock }
theorem witness_expected_ingest : Expected sIn sess0 5 0 ingF ∧ ctxDetail (heardFrame sIn) (le ingF.payload 0 2) (le ingF.payload 8 8) = 0 ∧
    (heardFrame sIn).bound.find? (fun b => decide (b.ctx = 1) && decide (b.record.toNat = 0x10200)) = some bind0 ∧
    (ingestBound { heardFrame sIn with port := { (heardFrame sIn).port with
      bindings := (heardFrame sIn).bound.map fun y => if y = bind0 then bind1 else y } } ingF bind1).2 = some (0, 0) :=
  ⟨expected _ rfl (by decide +kernel), by decide +kernel, by decide +kernel, by decide +kernel⟩
/-- Record 2 of the stream enters slot 2 with the time of arrival 77 after its 16 bytes, and P becomes 3. -/
theorem test_ingest : (match exec (.ingest ingF) sIn with
    | .next t => ([0x10500, 0x10508, 0x10510].map t.byte, (t.tally 1).value)
    | _ => ([], 0)) = ([5, 6, 77], 3) := by decide +kernel

theorem witness_unsequenced : Reaches (sNet0 (some sess0)) 9 0 (exp0 9 []) ∧ Reaches (sNet0 (some sess0)) 7 0 (exp0 7 (zeros 8)) ∧
    Reaches (sNet0 (some sess0)) 8 0 (exp0 8 (zeros 16)) ∧ (exp0 7 (zeros 8)).ack = sess0.partnerAck ∧ frameCode (exp0 7 (zeros 8)) = 0 ∧
    le (exp0 8 (zeros 16)).payload 0 4 = le (exp0 8 (zeros 16)).payload 4 4 :=
  ⟨⟨by decide +kernel, .inl rfl, by decide, by decide⟩, ⟨by decide +kernel, .inl rfl, by decide, by decide⟩,
    ⟨by decide +kernel, .inl rfl, by decide, by decide⟩, by decide, by decide, by decide⟩

/-- One thousand seconds after power came up. -/
def sLate (x : Option Session) : State := { sNet0 x with power := { (sNet0 x).power with up := 10 ^ 12 } }
def tx0 (tries : Nat) : TxFrame :=
  { seq := 200, typ := 2, resp := false, payload := [], ctx := none, time := 0, sent := true, tries := tries, sacked := false, sentAt := 0 }
theorem witness_retransmit : (∀ n ∈ [0, 12], ([tx0 n].find? fun g => g.sent && !g.sacked) = some (tx0 n)) ∧ port0.retryLimit ≤ (tx0 12).tries ∧
    (tx0 0).tries < port0.retryLimit ∧
    (∀ n ∈ [0, 12], (sLate (some sess0)).resendAt (tx0 n) ≤ (sLate (some sess0)).clock) := by decide +kernel
/-- The timers have run out in `sLate`, and none has in `sNet0`. -/
theorem witness_timers : (sLate none).port.lastTx + (sLate none).port.keepalive * 1000000 ≤ (sLate none).clock ∧
    (sLate none).port.lastRx + (sLate none).port.timeout * 1000000 ≤ (sLate none).clock ∧
    (sNet0 none).clock < (sNet0 none).port.lastTx + (sNet0 none).port.keepalive * 1000000 ∧
    (sNet0 none).clock < (sNet0 none).port.lastRx + (sNet0 none).port.timeout * 1000000 ∧
    (sLate none).port.lastLldp + 30000000000 ≤ (sLate none).clock ∧ (sLate none).port.lastSync + 3 * (sLate none).port.announce ≤ (sLate none).clock ∧
    bind0.last + 10000000000 ≤ (sLate none).clock := by decide +kernel
theorem witness_egress : (sNet0 none).ctx? 1 = some c0 ∧ c0.state ≠ .destroying ∧ (sNet0 none).evPending 1 < 2048 ∧
    (sNet0 none).eventBytes + 24 + (3 + 3) / 4 * 4 ≤ 62 * 2 ^ 20 := by decide +kernel
def ev0 : EvFrame := { ctx := 1, gen := 1, bell := false, tag := 0, serial := 0, dropped := false, time := 0, payload := [1, 2, 3, 0] }
def sEv : State := { sNet0 (some sess0) with port := { port0 with session := some sess0, events := [ev0] } }
theorem witness_event_frame : sEv.port.events.find? (fun e => decide (e.ctx = 1)) = some ev0 ∧ sEv.portOpen = true ∧ sess0.inWindow sess0.txNext = true := by
  decide +kernel
theorem witness_notice_send : ({ sNet0 (some sess0) with notices := [notice0] } : State).notices = notice0 :: [] ∧ (sNet0 (some sess0)).noticeOut = none :=
  ⟨rfl, rfl⟩
theorem test_egress : (match exec (.egressPost 1 7 [1, 2, 3]) (sNet0 none) with
    | .next t => t.port.events.map fun e => (e.tag, e.payload)
    | _ => []) = [(7, [1, 2, 3, 0])] := by decide +kernel

/-! Below Folest; MODULE_IP is 0 in the provisioning of reset, which leaves IPv6 out -/

def sUp : State := { sNet0 none with power := { Power.reset with st := .ready, ethref := true } }
def prov6 : BitVec 1024 := BitVec.ofNat 1024 (0x17 * 2 ^ 8)
def sIp6 : State := { sUp with port := { port0 with prov := prov6 } }
theorem witness_port : modeAllowed (provNum sUp.port.prov 0 1) 1 = true ∧ sUp.power.ethref = true ∧ sUp.answersPort = true ∧ sUp.port.link = true ∧
    sUp.provFlag 0 = false ∧ (0 : BitVec 128).toNat = sUp.moduleIp ∧ (1 : BitVec 128).toNat ≠ sUp.moduleIp ∧ sIp6.provFlag 0 = true ∧
    (0 : BitVec 128).toNat = sIp6.moduleIp ∧ sIp6.answersPort = true ∧ sUp.echoesNow < 1000 ∧ sIp6.provFlag 1 = true ∧ sUp.portOpen = true ∧
    1000 ≤ ({ sUp with port := { port0 with echoes := [(0, 1000)] } } : State).echoesNow ∧ sIp6.provFlag 4 = true ∧ sUp.time % 1000000000 = 0 ∧
    ({ sUp with flash := { Flash.reset with ckn := [1] } } : State).flash.ckn ≠ [] ∧ ({ port0 with locked := true } : Port).locked = true := by decide +kernel
theorem test_echo_limit : ([1000, 999].map fun n => match exec (.icmpEcho true [1]) { sUp with port := { port0 with echoes := [(0, n)] } } with
    | .next t => t.out.length
    | _ => 9) = [0, 1] := by decide +kernel

theorem witness_time_rows : (∃ t, exec (.ptpSync 100) sUp = .next t) ∧ (∃ t, exec (.ptpFollowUp 100) sUp = .next t) ∧ (∃ t, exec .ppsInEdge sUp = .next t) ∧
    ∃ t, exec (.timeSet { status := 0, length := 0, rsvd := 0, tag := 0, payload := [] }) sUp = .next t := by
  have h : ∀ i ∈ ([.ptpSync 100, .ptpFollowUp 100, .ppsInEdge, .timeSet { status := 0, length := 0, rsvd := 0, tag := 0, payload := [] }] : List Instr),
      (match exec i sUp with
        | .next _ => true
        | _ => false) = true := by decide +kernel
  have g : ∀ i ∈ ([.ptpSync 100, .ptpFollowUp 100, .ppsInEdge, .timeSet { status := 0, length := 0, rsvd := 0, tag := 0, payload := [] }] : List Instr),
      ∃ t, exec i sUp = .next t := by
    intro i hi
    have := h i hi
    split at this
    · exact ⟨_, by assumption⟩
    · cases this
  exact ⟨g _ (by simp), g _ (by simp), g _ (by simp), g _ (by simp)⟩

/-! ## The sideband and the Reeve -/

def sUp2 : State := { s0 with power := { Power.reset with st := .ready, slot := some false } }
def sb (p : List Byte) : SbMsg := { status := 0, length := BitVec.ofNat 16 p.length, rsvd := 0, tag := 5, payload := p }
def requests (s : State) (code : Nat) (m : SbMsg) : Bool :=
  s.answers code && decide (m.length.toNat = m.payload.length ∧ m.payload.length ≤ 4080 ∧ m.status = 0 ∧ m.rsvd = 0)
theorem requests_of {s : State} {code : Nat} {m : SbMsg} (h : requests s code m = true) : Requests s code m m.payload := by
  simp only [requests, Bool.and_eq_true, decide_eq_true_eq] at h
  exact ⟨h.1, rfl, ⟨h.2.1, h.2.2.1⟩, h.2.2.2⟩

theorem witness_sideband_misfits : ∀ code ∈ [0x01, 0x02, 0x03, 0x10, 0x11, 0x12, 0x13, 0x20, 0x21, 0x22, 0x28, 0x30, 0x31, 0x32, 0x40, 0x41, 0x43, 0x44, 0x50,
    0x51, 0x52], Misfits sUp2 code { sb [] with length := 1 } := by
  have h : ∀ code ∈ [0x01, 0x02, 0x03, 0x10, 0x11, 0x12, 0x13, 0x20, 0x21, 0x22, 0x28, 0x30, 0x31, 0x32, 0x40, 0x41, 0x43, 0x44, 0x50, 0x51, 0x52],
    sUp2.answers code = true := by decide +kernel
  exact fun code hc => ⟨h code hc, .inl (by decide)⟩

def rd (n i k : Nat) : List Byte := leBytes n i ++ leBytes 2 k
def ctrPl (kind unit num n clear : Nat) : List Byte := leBytes 1 kind ++ leBytes 2 unit ++ leBytes 2 num ++ leBytes 1 n ++ leBytes 1 clear
theorem witness_sideband_reads : Requests sUp2 0x01 (sb []) [] ∧ Requests sUp2 0x02 (sb []) [] ∧ Requests sUp2 0x44 (sb []) [] ∧ sUp2.power.st ≠ .held ∧
    Requests sUp2 0x51 (sb []) [] ∧ Requests sUp2 0x10 (sb (rd 2 0 1020)) (rd 2 0 1020) ∧ Requests sUp2 0x10 (sb (rd 2 1348 1)) (rd 2 1348 1) ∧
    sensorCount < 1349 ∧ Requests sUp2 0x13 (sb (rd 2 18 510)) (rd 2 18 510) ∧ Requests sUp2 0x21 (sb (rd 2 31 1)) (rd 2 31 1) ∧
    Requests sUp2 0x22 (sb (rd 2 1 23)) (rd 2 1 23) ∧ 23 < histUnits 1 ∧ Requests sUp2 0x28 (sb (0 :: (le8 0 ++ [63]))) (0 :: (le8 0 ++ [63])) ∧
    sUp2.flash.events.length < 16384 ∧ Requests sUp2 0x52 (sb (le8 1 ++ [63])) (le8 1 ++ [63]) ∧ sUp2.flash.measures.head? = none :=
  ⟨requests_of (by decide +kernel), requests_of (by decide +kernel), requests_of (by decide +kernel), by decide, requests_of (by decide +kernel),
    requests_of (by decide +kernel), requests_of (by decide +kernel), by decide, requests_of (by decide +kernel), requests_of (by decide +kernel),
    requests_of (by decide +kernel), by decide, requests_of (by decide +kernel), by decide +kernel, requests_of (by decide +kernel), by decide +kernel⟩
theorem witness_counter_read : ∀ c ∈ [0, 1], requests sUp2 0x20 (sb (ctrPl 2 0 0 8 c)) = true ∧
    ∀ i < 8, counted 2 i = true ∧ counterExists (le (ctrPl 2 0 0 8 c) 0 1) (le (ctrPl 2 0 0 8 c) 1 2) (le (ctrPl 2 0 0 8 c) 3 2 + i) = true := by decide +kernel
def sHeld2 : State := { sUp2 with power := { Power.reset with st := .held, failure := 0x080A } }
theorem witness_fw_status_held : Requests sHeld2 0x44 (sb []) [] ∧ sHeld2.power.st = .held ∧ sHeld2.power.failure = 0x080A :=
  ⟨requests_of (by decide +kernel), rfl, rfl⟩
/-- A cold-plate sensor's value in thousandths of a degree. -/
theorem test_sensor_read : (match exec (.sensorRead (sb (rd 2 912 1))) { sUp2 with reeve := { Reeve.reset with sensors := [(912, -1000)] } } with
    | .next t => match t.out with
      | .sideband tag c st p :: _ => some (tag, c, st, p)
      | _ => none
    | _ => none) = some (5, 0x10, 0, [0x18, 0xFC, 0xFF, 0xFF]) := by decide +kernel

theorem witness_module_reset : ∀ k ∈ ([0, 1, 2, 3] : List (BitVec 8)), requests sUp2 0x03 (sb [k]) = true ∧ sUp2.power.trip = false := by decide +kernel
theorem witness_sideband_writes : Requests sUp2 0x11 (sb (1 :: rd 0 0 97)) (1 :: rd 0 0 97) ∧ Requests sUp2 0x12 (sb ([0, 0, 0, 0] ++ zeros 8)) ([0, 0, 0, 0] ++ zeros 8) ∧
    (sUp2.part 0).state ≠ .unconfigured ∧ (sUp2.part 1).state = .unconfigured ∧ (policyAccess sUp2 0 0 0 0 0 0x0803).2.1 = 0 ∧
    Requests sUp2 0x30 (sb (1 :: zeros 128)) (1 :: zeros 128) ∧ Requests sUp2 0x31 (sb (1 :: 7 :: zeros 32)) (1 :: 7 :: zeros 32) ∧
    Requests sUp2 0x32 (sb (le8 5)) (le8 5) ∧ Requests sUp2 0x32 (sb (le8 0)) (le8 0) ∧ sUp2.port.everLocked = false ∧ sUp2.time < 5 :=
  ⟨requests_of (by decide +kernel), requests_of (by decide +kernel), by decide +kernel, by decide +kernel, by decide +kernel, requests_of (by decide +kernel),
    requests_of (by decide +kernel), requests_of (by decide +kernel), requests_of (by decide +kernel), by decide +kernel, by decide⟩
theorem witness_time_set_locked : ({ port0 with everLocked := true } : Port).everLocked = true := rfl
theorem witness_power_cap : ∀ v ∈ [39, 40, 96, 97], requests sUp2 0x11 (sb (1 :: rd 0 0 v)) = true ∧ le (1 :: rd 0 0 v) 1 2 = v := by
  decide +kernel
/-- 9.6 kW is the highest cap in range. -/
theorem test_power_cap : (match exec (.powerCap (sb (1 :: rd 0 0 96))) sUp2 with
    | .next t => t.flash.cap
    | _ => 0) = 96 := by decide +kernel
/-- 9.7 kW is out of range and changes nothing (log entry 44). -/
theorem test_power_cap_range : (match exec (.powerCap (sb (1 :: rd 0 0 97))) sUp2 with
    | .next t => t.flash.cap
    | _ => 0) = 84 := by decide +kernel

/-- A firmware image with an empty body: format 1, SVN 0, key 0, no flags, and SHA-256 of no bytes (FIPS 180-4). -/
def image : List Byte := le4 1 ++ zeros 20 ++
  [0xe3, 0xb0, 0xc4, 0x42, 0x98, 0xfc, 0x1c, 0x14, 0x9a, 0xfb, 0xf4, 0xc8, 0x99, 0x6f, 0xb9, 0x24,
    0x27, 0xae, 0x41, 0xe4, 0x64, 0x9b, 0x93, 0x4c, 0xa4, 0x95, 0x99, 0x1b, 0x78, 0x52, 0xb8, 0x55]
def imageCells : List Host.Cell := (List.range 0x38).map fun i => (i, (nth? image i).getD 0)
def sFw (ok : Bool) (v : Option Bool) : State := { sUp2 with
  flash := { Flash.reset with slotB := if ok then imageCells else [] }, reeve := { Reeve.reset with fwOpen := ok, verified := v } }
theorem witness_firmware : (∀ b ∈ [true, false], requests (sFw b none) 0x40 (sb []) = true ∧ (sFw b none).reeve.fwOpen = b ∧
      requests (sFw b none) 0x41 (sb (le8 0 ++ zeros 8 ++ [1, 2])) = true ∧ requests (sFw b none) 0x42 (sb []) = true ∧
      requests (sFw b none) 0x43 (sb []) = true) ∧
    (sFw true none).slotStatus (sFw true none).idleSlot true = 0 ∧ (sFw false none).slotStatus (sFw false none).idleSlot true ≠ 0 ∧
    (sFw true (some true)).reeve.verified = some (sFw true (some true)).idleSlot ∧ (sFw true none).reeve.verified ≠ some (sFw true none).idleSlot := by
  decide +kernel
theorem test_fw_write : (match exec (.fwWrite (sb (le8 2 ++ zeros 8 ++ [1, 2]))) (sFw true none) with
    | .next t => t.slotBytes true 1 4
    | _ => []) = [0, 1, 2, 0] := by decide +kernel

def sQuote (n : Nat) (times : List Nat) : State := { sUp2 with reeve := { Reeve.reset with life := [(5, { value := n, stuck := false })], quotes := times } }
theorem witness_quote : requests (sQuote (2 ^ 30) []) 0x50 (sb (zeros 32)) = true ∧ 2 ^ 30 ≤ (tget Life.reset (sQuote (2 ^ 30) []).reeve.life 5).value ∧
    requests (sQuote 0 (List.replicate 16 0)) 0x50 (sb (zeros 32)) = true ∧
    16 ≤ ((sQuote 0 (List.replicate 16 0)).reeve.quotes.filter fun t => decide (sUp2.time < t + 1000000000)).length ∧
    requests (sQuote 0 []) 0x50 (sb (zeros 32)) = true ∧ (tget Life.reset (sQuote 0 []).reeve.life 5).stuck = false := by decide +kernel

theorem witness_reeve : sUp2.reeveRuns = true ∧ 5 < sensorCount ∧ sensorCount ≤ 1348 ∧ 5 ≠ inletSensor ∧ 5 ≠ outletSensor ∧ sUp2.power.st = .ready ∧
    100 * sUp2.capNow < 9000 ∧ 8000 ≤ 100 * sUp2.capNow ∧ sUp2.reeve.capped = false ∧
    ({ sUp2 with power := { Power.reset with st := .failed, slot := some false } } : State).reeveRuns = true := by decide +kernel
def sTemp (t : Int) : State := { sUp2 with reeve := { Reeve.reset with sensors := [(0, t)] } }
theorem witness_throttle : (100000 : Int) ≤ (sTemp 100000).sensor 0 ∧ (97000 : Int) ≤ (sTemp 99999).sensor 0 ∧ (sTemp 99999).sensor 0 < 100000 ∧
    (sTemp 96999).sensor 0 < 97000 := by decide +kernel

/-- Clock limits 16 and 42, run-ahead caps 0x10 to 0x20, locked or not, placement and gating on or off. -/
def reeveV (lock on : Nat) : W64 := BitVec.ofNat 64 (16 * 2 ^ 52 + 42 * 2 ^ 46 + 0x20 * 2 ^ 32 + 0x10 * 2 ^ 20 + lock * 2 ^ 19 + on * 2 ^ 18 + on * 2 ^ 17)
def sPol (lock on : Nat) : State := { sUp2 with parts := [(0, { part0 with reeve := reeveV lock on })] }
theorem witness_policy_islands : ∀ lock ∈ [0, 1], (sPol lock 1).islandPolicy 0 = some (reeveV lock 1) ∧ raLock (reeveV lock 1) = decide (lock = 1) ∧
    raCapMin (reeveV lock 1) ≤ raCapMax (reeveV lock 1) := by decide +kernel
def isl (power heat cool : Nat) : Island := { power := power, heat := heat, raCap := 0, cycles := 0, since := 0, coolFor := cool, throttledAt := none, fetched := 0, useful := 0 }
def sProp : State := { sPol 0 1 with
  stations := [(0, st0)], insts := [(0, inst0)], groups := []
  reeve := { Reeve.reset with islands := [(0, isl 42 20 0), (1, isl 42 42 1)] } }
theorem witness_proposal : (sProp.inst? 0 0).bind (·.core) = some 5 ∧ sProp.partOfHall (hallOfCore 5) = some 0 ∧ sProp.partOfHall (hallOfCore 8) = some 0 ∧
    placeEnable (sProp.part 0).reeve = true ∧ sProp.throttled (islandOfCore 5) = true ∧
    (sProp.island (islandOfCore 8)).clock = sProp.ceiling (islandOfCore 8) ∧ sProp.coreEnabled 5 = true ∧ sProp.coreEnabled 8 = true := by decide +kernel
/-- HBM group 7 of the partition, in no use, seen idle since time 0. -/
def sIdle (up : Nat) : State := { sPol 0 1 with
  hbmGroups := [(0, { mode := 1, part := 0 })], idle := [(.hbmGroup 7, 0)], power := { sUp2.power with up := up } }
theorem witness_gating_times : (sIdle 0).partOfHall (hallOfUnit (.hbmGroup 7)) = some 0 ∧ (GateUnit.hbmGroup 7).wf = true ∧
    (sIdle 0).unitIdle 0 (.hbmGroup 7) = true ∧ ((sIdle 0).idle.find? fun e => decide (e.1 = .hbmGroup 7)) = some (.hbmGroup 7, 0) ∧
    (sPol 0 1).unitIdle 0 (.hbmGroup 7) = true ∧ (sPol 0 1).idle = [] ∧ (sPol 0 1).unitIdle 0 (.poolWay 0) = false ∧
    0 + idleTime (.hbmGroup 7) ≤ (sIdle 1000000000).clock ∧ (sIdle 999999999).clock < 0 + idleTime (.hbmGroup 7) := by decide +kernel
theorem test_gating_interval : ([999999999, 1000000000].map fun up => match exec (.gatingInterval (.hbmGroup 7)) (sIdle up) with
    | .next t => t.seal? (.hbmGroup 7)
    | _ => none) = [none, some .closed] := by decide +kernel
theorem witness_gating_interval : (sPol 0 1).partOfHall 0 = some 0 ∧ gateEnable ((sPol 0 1).part 0).reeve = true ∧ gateEnable ((sPol 0 0).part 0).reeve = false ∧
    ((sPol 0 0).setSeal (.binBank 0 5) (some .gated)).seal? (.binBank 0 5) = some .gated := by decide +kernel

/-! Containment -/

theorem witness_core_state_lost : s0.inService = true ∧ ({ s0 with groups := [] } : State).coreEnabled 5 = true ∧ ({ s0 with groups := [] } : State).insts = [] ∧
    (withInst s0).insts.find? (fun e => decide (e.2.core = some 5)) = some (0, inst0) ∧ tfind (withInst s0).stations (0 / 4096) = some st0 := by decide +kernel
theorem test_core_state_lost : (match exec (.coreStateLost 5) (withInst s0) with
    | .next t => (t.retired, t.groups.length, t.lossQ.map (·.status))
    | _ => ([], 9, [])) = ([5], 0, [0x0705]) := by decide +kernel
theorem witness_tally_corrupt : 1 < 12 * Config.talliesPerHall := by decide
theorem witness_endpoint : s0.isDead (.tallySlice 3) = false ∧ s0.cores = [] ∧ s0.usersOf (.tallySlice 3) = [] ∧
    ({ s0 with deadEps := [.tallySlice 3] } : State).isDead (.tallySlice 3) = true := by decide +kernel

def comRep : Obj := comObj true
/-- The reference block of the commons is poisoned. -/
def sBadRef : State := { State.reset with objs := [(0, comRep)], repairs := [(0, 0)], poison := [0x0400_0000_0000 / 32] }
theorem witness_repair_fails : tfind sBadRef.objs 0 = some comRep ∧ comRep.commons = true ∧ sBadRef.repairRuns 0 0 = true ∧
    sBadRef.blockMatches comRep 0 (frameAt comRep.refPages 0) = false := by
  refine ⟨by decide +kernel, rfl, by decide +kernel, ?_⟩
  have h : (sectorsOf (frameAt comRep.refPages 0) 65536).any (fun k => sBadRef.poison.contains k) = true := by decide +kernel
  unfold State.blockMatches
  unfold State.poisoned
  rw [h]
  rfl

/-- A module whose memory holds the digest of a block of zeros, and nothing else. -/
@[irreducible] def zeroDigest : List Byte := sha256 (List.replicate 65536 0)
def sGoodRef : State := { State.reset with objs := [(0, comRep)], repairs := [(0, 0)], mem := putBytes [] 0x0400_0001_0000 zeroDigest }

theorem viewOf_empty (pa : Nat) : sGoodRef.viewOf pa none = [] := by
  have h : sGoodRef.poolOf pa = [] := rfl
  simp only [State.viewOf, h]
  rfl

theorem readByte_plain (pa : Nat) : sGoodRef.readByte none pa = sGoodRef.byte pa := by
  simp only [State.readByte, viewOf_empty]
  rfl

theorem poisoned_none (pa n : Nat) : sGoodRef.poisoned none pa n = false := by
  have h : sGoodRef.poison = [] := rfl
  simp [State.poisoned, viewOf_empty, h]

theorem length_shaBlocks : ∀ (n : Nat) (h : List W32) (m : List Byte), h.length = 8 → (shaBlocks n h m).length = 8 := by
  have hr : ∀ (l : List (Nat × W32)) (g : List W32), g.length = 8 → (l.foldl shaRound g).length = 8 := by
    intro l
    induction l with
    | nil => exact fun g hg => hg
    | cons a t iht =>
      refine fun g hg => iht _ ?_
      unfold shaRound
      split
      · rfl
      · exact hg
  intro n
  induction n with
  | zero => exact fun h m hh => hh
  | succ n ih => exact fun h m hh => ih _ _ (by simp [shaBlock, List.length_zipWith, hh, hr _ _ hh])

theorem length_sha256 (m : List Byte) : (sha256 m).length = 32 := by
  have h := length_shaBlocks ((shaPad m).length / 64) shaInit (shaPad m) (by decide)
  simp only [sha256]
  generalize shaBlocks _ _ _ = l at h ⊢
  have hb : ∀ l : List W32, (l.flatMap fun w => beBytes 4 w.toNat).length = 4 * l.length := by
    intro l
    induction l with
    | nil => rfl
    | cons a t ih =>
      have : (beBytes 4 a.toNat).length = 4 := rfl
      simp only [List.flatMap_cons, List.length_append, ih, List.length_cons, this]
      omega
  rw [hb, h]

theorem length_zeroDigest : zeroDigest.length = 32 := by
  unfold zeroDigest
  exact length_sha256 _

theorem byte_goodRef (n : Nat) : sGoodRef.byte n =
    if 0x0400_0001_0000 ≤ n ∧ n < 0x0400_0001_0000 + 32 then zeroDigest.getD (n - 0x0400_0001_0000) 0 else 0 := by
  have e : sGoodRef.byte n = tget 0 (putBytes [] 0x0400_0001_0000 zeroDigest) n := rfl
  have t0 : tget (0 : Byte) ([] : List Host.Cell) n = 0 := rfl
  rw [e, tget_putBytes, length_zeroDigest, t0]

theorem witness_repair : sGoodRef.blockMatches comRep 0 (frameAt comRep.refPages 0) = true ∧ comRep.badRef.contains 0 = false ∧
    tfind sGoodRef.objs 0 = some comRep ∧ comRep.commons = true ∧ sGoodRef.repairRuns 0 0 = true ∧ sGoodRef.homeStatus (frameAt comRep.pages 0) = 0 := by
  refine ⟨?_, by decide +kernel, by decide +kernel, rfl, by decide +kernel, by decide +kernel⟩
  have hp : frameAt comRep.refPages 0 = 0x0400_0000_0000 := by decide
  have hd : comRep.digestBase.toNat + 32 * 0 = 0x0400_0001_0000 := by decide
  have h1 : sGoodRef.read none 0x0400_0000_0000 65536 = List.replicate 65536 0 := by
    simp only [State.read, readByte_plain]
    refine List.ext_getElem (by rw [List.length_map, List.length_range, List.length_replicate]) fun i hi _ => ?_
    simp only [List.length_map, List.length_range] at hi
    simp only [List.getElem_map, List.getElem_range, List.getElem_replicate, byte_goodRef]
    rw [if_neg]
    omega
  have h2 : sGoodRef.read none 0x0400_0001_0000 32 = zeroDigest := by
    have hl := length_zeroDigest
    simp only [State.read, readByte_plain]
    refine List.ext_getElem (by rw [List.length_map, List.length_range, hl]) fun i hi _ => ?_
    simp only [List.length_map, List.length_range] at hi
    simp only [List.getElem_map, List.getElem_range, byte_goodRef]
    rw [if_pos (by omega), Nat.add_sub_cancel_left, List.getD_eq_getElem?_getD, List.getElem?_eq_getElem (by omega), Option.getD_some]
  unfold State.blockMatches
  rw [poisoned_none, poisoned_none, hp, hd, h1, h2, show sha256 (List.replicate 65536 0) = zeroDigest from by unfold zeroDigest; rfl]
  simp only [Bool.not_false, Bool.true_and, decide_true]

theorem witness_module_failed : ({ Power.reset with st := .training } : Power).st = .training ∧ sUp2.power.st ≠ .training := by decide
def sReset : State := { sPart .down [] with mailboxes := [(3, { box 0x5B 0 0 [0] with waiting := true })] }
theorem witness_reset_overrun : (3, { box 0x5B 0 0 [0] with waiting := true }) ∈ sReset.mailboxes ∧ msgCmd (box 0x5B 0 0 [0]).msg = 0x5B ∧
    le (msgPayload (box 0x5B 0 0 [0]).msg) 0 1 = 0 := by decide +kernel

/-! Power and bring-up -/

def sP (p : Power) : State := { State.reset with power := p }
def trained : Power := { Power.reset with st := .training, rails := 4, links := List.range 22 }
theorem witness_power_pins : (∃ p : Power, p.st = .off ∧ (sP { p with pwrEn := true }).mayStart = true) ∧ (sP Power.reset).power.st ≠ .off ∧
    (sP { Power.reset with resetLow := true }).power.resetLow = true ∧ Power.reset.trip = false ∧
    (sP { Power.reset with st := .off, inputOk := true }).mayStart = true :=
  ⟨⟨{ Power.reset with st := .off }, rfl, by decide⟩, by decide, by decide, by decide, by decide⟩
def sBoot (a b : Bool) : State := { State.reset with flash := { Flash.reset with slotA := if a then imageCells else [], slotB := if b then imageCells else [] } }
theorem witness_boot : State.reset.power.st = .boot ∧ State.reset.power.rails ≠ 0 ∧ State.reset.power.resetLow = false ∧ State.reset.power.refclk = true ∧
    (sBoot true false).slotStatus false true = 0 ∧ (sBoot false true).slotStatus false true ≠ 0 ∧ (sBoot false true).slotStatus true true = 0 ∧
    (sBoot false false).slotStatus false true ≠ 0 ∧ (sBoot false false).slotStatus true true ≠ 0 := by decide +kernel
theorem test_boot_fallback : (match exec (.bootVerify true true) (sBoot false true) with
    | .next t => (t.power.st, t.power.slot, t.flash.events.map (·.status))
    | _ => (.off, none, [])) = (.training, some true, [0x0816]) := by decide +kernel
theorem witness_rails : (sP { Power.reset with rails := 0 }).power.rails = 0 ∧ (sP { Power.reset with st := .training, rails := 1 }).power.rails + 1 = 2 := by
  decide
theorem witness_links : ∀ l ∈ [0, 21], let p := { trained with links := if l = 21 then [] else [21] }
    (sP p).power.links.contains l = false ∧ (sP p).power.retrying.contains l = false ∧ (l = 21 ∨ (sP p).power.links.contains 21 = true) ∧
    tget 0 (sP p).power.attempts l < 3 ∧ 3 ≤ tget 0 (sP { p with attempts := [(l, 3)] }).power.attempts l := by decide
theorem witness_training : (sP trained).linksUp = true ∧ (sP trained).power.memReady = false ∧ (sP trained).power.coresTested = false ∧
    (sP { trained with memReady := true, coresTested := true }).linksUp = true := by decide +kernel
theorem witness_boot_trial : ({ Flash.reset with trial := some true } : Flash).trial ≠ none ∧ ({ trained with slot := some true } : Power).slot = some true ∧
    trained.st ≠ .ready ∧ trained.st ≠ .off ∧ trained.trip = false := by decide
theorem witness_power_events : (∀ st ∈ [ModState.boot, .training, .ready, .off, .held, .failed], (sP { Power.reset with st := st }).power.st = st) ∧
    (sP { Power.reset with lostBlade := some 1 }).power.lostBlade = some 1 ∧ Power.reset.lostBlade = none ∧ Power.reset.trip = false := by decide
theorem test_blade_lost : (match exec (.bladeLost 1) sUp2 with
    | .next t => (t.capNow, (t.island 0).power, t.reeve.alert)
    | _ => (0, 0, false)) = (40, 16, true) := by decide +kernel
theorem test_idcode : (match exec .jtagIdcode sUp2 with
    | .next t => t.out.head?
    | _ => none) = some (.jtag .idcode [0x4D, 0x0A, 0x40, 0x16]) := by decide +kernel

/-! ## The whole module -/

theorem witness_step : ({ s0 with pending := [.linkDown, .keepaliveTimer] } : State).pending = .linkDown :: [.keepaliveTimer] ∧ s0.pending = [] := ⟨rfl, rfl⟩
theorem test_step : (match step { s0 with pending := [.linkDown, .keepaliveTimer], port := { port0 with session := none } } with
    | .next t => (t.pending, t.port.link)
    | _ => ([], true)) = ([.keepaliveTimer], false) := by decide +kernel
theorem test_tick : (match step s0 with
    | .next t => t.time
    | _ => 0) = 1 := by decide +kernel
theorem witness_memory_canonical : Memory.wf ({ s0 with mem := [(3, 7), (9, 1)] } : State).mem = true ∧
    Memory.wf ({ s0 with mem := [(9, 7), (3, 1)] } : State).mem = false ∧ Memory.wf ({ s0 with mem := [(3, 0)] } : State).mem = false := by decide +kernel
theorem witness_step_answers : ∃ t, step { s0 with mem := [(3, 7), (9, 1)] } = .next t := ⟨_, rfl⟩

theorem witness_round_trip : ∃ w, encodeCore (.vcvt g0 6 (rw 1 0x1FF 0x1FF 5 0)) = some (w, none) ∧ extOk (opcOf w) (fnOf w) false = true ∧
    (6 : BitVec 4).toNat < 7 ∧ ∃ v, encodeCore (.vdcvt g0 10 (rw 2 0x1FF 0x1FF 4 0)) = some (v, none) ∧ extOk (opcOf v) (fnOf v) false = true :=
  ⟨_, rfl, by decide, by decide, _, rfl, by decide⟩

theorem witness_register_frame : s0.group? g0 = some k0 ∧ (∀ op ∈ scalarRows.map (·.1), (match exec (op g0 (.r (rw 0x101 0x102 0x1FF 0x105 0))) s0 with
    | .next _ => true
    | _ => false) = true) ∧
    ∀ op ∈ fpRows.map (·.1), (match exec (op g0 (rw 1 2 0x1FF 5 128)) s0 with
    | .next _ => true
    | _ => false) = true := by decide +kernel
def spF : RI := .r (rw 0x101 0x1FF 0x1FF 0x143 0)
theorem witness_predicate_spset : (∃ k s1 act, Issues (scalarIss s0 g0 spF [.s, .p, .x, .z] [.z] [.p]) g0 s0 k s1 act) ∧ (Ops3.of spF).dst = BitVec.ofNat 9 (0x140 + 3) :=
  ⟨ready_exists (by decide +kernel), by decide⟩
theorem test_spset : (after (.spset g0 spF) s0).map (fun k => (k.pred 3, k.pred 1)) = some (7, 0x0F) := by decide +kernel

end Sys2Proof.Tests
end

section
/-! PROOFS. Predicate registers (R53, R86): what the predicates of a group are after a write, lane by lane, and that
SPSET sets the whole mask. -/

namespace Sys2Proof.Machine

/-! ## Reading a predicate after a write -/

theorem Group.pred_setPred_other (k : Group) {p q : Nat} (m : W32) (h : q ≠ p) : (k.setPred p m).pred q = k.pred q := by
  by_cases hp : p = 0
  · rw [hp, Group.setPred_zero]
  · by_cases hq : q = 0
    · rw [hq, Group.pred_zero, Group.pred_zero]
    · simp only [Group.setPred, Group.pred, if_neg hp, if_neg hq, tget_tset_other _ _ _ h]

/-- The operand code of predicate p is 0x140 + p (*Table 4-12*). -/
theorem predCode_toNat_sub {p : Nat} (h : p < 8) : (BitVec.ofNat 9 (0x140 + p)).toNat - 0x140 = p := by
  rw [BitVec.toNat_ofNat]; omega

theorem Group.putP_predCode (k : Group) {p : Nat} (act m : W32) (h : p < 8) :
    k.putP (BitVec.ofNat 9 (0x140 + p)) act m = k.setPred p ((k.pred p &&& ~~~act) ||| (m &&& act)) := by
  rw [Group.putP, predCode_toNat_sub h]

/-- Merging under a lane mask takes the new bit in an active lane and keeps the old one elsewhere. -/
theorem getLsbD_mergeMask (old new act : W32) {i : Nat} (hi : i < 32) :
    ((old &&& ~~~act) ||| (new &&& act)).getLsbD i = if act.getLsbD i then new.getLsbD i else old.getLsbD i := by
  simp only [BitVec.getLsbD_or, BitVec.getLsbD_and, BitVec.getLsbD_not, hi, decide_true, Bool.true_and]
  cases act.getLsbD i <;> simp

theorem Group.getLsbD_pred_putP (k : Group) {p i : Nat} (act m : W32) (h0 : 0 < p) (hp : p < 8) (hi : i < 32) :
    ((k.putP (BitVec.ofNat 9 (0x140 + p)) act m).pred p).getLsbD i =
      if act.getLsbD i then m.getLsbD i else (k.pred p).getLsbD i := by
  rw [Group.putP_predCode k act m hp, Group.pred_setPred k _ (Nat.ne_of_gt h0), getLsbD_mergeMask _ _ _ hi]

theorem Group.pred_putP_other (k : Group) {p q : Nat} (act m : W32) (hp : p < 8) (h : q ≠ p) :
    (k.putP (BitVec.ofNat 9 (0x140 + p)) act m).pred q = k.pred q := by
  rw [Group.putP_predCode k act m hp, Group.pred_setPred_other k _ h]

/-- A write to p0 is discarded whatever the lanes (R53). -/
@[simp] theorem Group.putP_p0 (k : Group) (act m : W32) : k.putP 0x140 act m = k := Group.setPred_zero k _

/-! ## The path manager leaves the predicates (R54 to R59) -/

theorem Group.pred_congr {k k' : Group} (h : k'.preds = k.preds) (q : Nat) : k'.pred q = k.pred q := by
  rw [Group.pred, Group.pred, h]

@[simp] theorem preds_useTurn (k : Group) : (useTurn k).preds = k.preds := by
  unfold useTurn
  dsimp only
  split
  · rfl
  · split <;> rfl

@[simp] theorem preds_idlePath (k : Group) : (idlePath k).preds = k.preds := by
  unfold idlePath
  split <;> rfl

@[simp] theorem preds_switchPath (k : Group) : (switchPath k).preds = k.preds := by
  unfold switchPath
  split
  · rfl
  · exact preds_idlePath k

@[simp] theorem preds_setPc (k : Group) (i : Nat) (pc : VAddr) : (setPc k i pc).preds = k.preds := by
  unfold setPc
  split
  · rfl
  · dsimp only
    split
    · rfl
    · exact preds_switchPath _

@[simp] theorem preds_goOn (k : Group) (pc : VAddr) : (goOn k pc).preds = k.preds := by
  unfold goOn
  split
  · rfl
  · rw [preds_setPc, preds_useTurn]

@[simp] theorem Group.pred_goOn (k : Group) (pc : VAddr) (q : Nat) : (goOn k pc).pred q = k.pred q :=
  Group.pred_congr (preds_goOn k pc) q

/-! ## SPSET -/

/-- SPSET that issues sets its predicate to SRC_A[31:0] in every lane, active or not (R86). -/
theorem execSpset_issues {g : Grp} {f : RI} {s s1 : State} {k : Group} {act : W32}
    (h : Issues (scalarIss s g f [.s, .p, .x, .z] [.z] [.p]) g s k s1 act) :
    exec (.spset g f) s = .next (completed (scalarIss s g f [.s, .p, .x, .z] [.z] [.p]) g s1
      (k.setPred ((Ops3.of f).dst.toNat - 0x140) ((k.opS (Ops3.of f).ext (Ops3.of f).a).setWidth 32))) :=
  issue_group h rfl

@[simp] theorem group?_completed (x : Iss) (g : Grp) (s1 : State) (k : Group) :
    (completed x g s1 k).group? g = some (goOn k (nextPc k x.ext)) := State.group?_setGroup _ _ _

/-- Settles O32, by the rules of a predicate read after a write: the lane mask merges, p0 discards, another predicate
keeps its bits, and SPSET completes with the whole mask set. -/
theorem predicateDestinations : Obligations.PredicateDestinations := by
  unfold Obligations.PredicateDestinations
  refine ⟨fun k p act m i h0 hp hi => k.getLsbD_pred_putP act m h0 hp hi,
    fun k act m => ⟨k.putP_p0 act m, k.setPred_zero m, k.pred_zero⟩,
    fun k p q act m hp h => k.pred_putP_other act m hp h, ?_⟩
  intro g f s s1 k act p h0 hp hiss hdst
  refine ⟨_, _, execSpset_issues hiss, group?_completed _ _ _ _, ?_, fun q hq => ?_⟩ <;>
    rw [Group.pred_goOn, hdst, predCode_toNat_sub hp]
  · exact Group.pred_setPred k _ (Nat.ne_of_gt h0)
  · exact Group.pred_setPred_other k _ hq

end Sys2Proof.Machine
end

section
/-! PROOFS. The home slice of a line and its cache set (R232, R233, R238), and the way that a fill takes (R239). -/

namespace Sys2Proof.Machine

open Sys2Proof.Claims

/-! ## Home slice (R232, R233) -/

theorem nth?_eq_getElem? {α : Type} (l : List α) (i : Nat) : nth? l i = l[i]? := by
  induction l generalizing i with
  | nil => rfl
  | cons x t ih =>
    cases i with
    | zero => rfl
    | succ n => simpa [nth?] using ih n

theorem pairwise_partHalls (p : Partition) : (partHalls p).Pairwise (· < ·) :=
  List.pairwise_lt_range.filter _

/-- H is the upper half of the 64-bit product. -/
theorem homeHash_eq (l n : Nat) :
    homeHash l n = (BitVec.ofNat 64 l * 0x9E37_79B9_7F4A_7C15#64).toNat / 2 ^ 32 * n / 2 ^ 32 := by
  rw [homeHash, BitVec.toNat_mul, BitVec.toNat_ofNat, BitVec.toNat_ofNat, ← Nat.mul_mod]

/-- H is below 2³², so the candidate is one of the n. -/
theorem homeHash_lt (l : Nat) {n : Nat} (hn : 0 < n) : homeHash l n < n := by
  have hH : l * 0x9E37_79B9_7F4A_7C15 % 2 ^ 64 / 2 ^ 32 < 2 ^ 32 := by omega
  unfold homeHash
  rw [Nat.div_lt_iff_lt_mul (by decide), Nat.mul_comm n]
  exact Nat.mul_lt_mul_of_pos_right hH hn

/-- The candidates of a hashed group are the hall dies of a partition, and the home is the one the hash picks of them. -/
theorem homeOf_hashedOver {s : State} {pa : Nat} {hs : List Nat} (h : hs ∈ hashedOver s pa) :
    (∃ p, hs = partHalls p) ∧
      s.homeOf pa = (nth? hs (homeHash (lineNo pa) hs.length)).getD (homeHash (lineNo pa) 12) := by
  unfold hashedOver at h
  unfold State.homeOf
  cases hp : s.placeOf pa with
  | hbm | cellar =>
    simp only [hp, Option.mem_def, Option.ite_none_right_eq_some, Option.some.injEq] at h
    obtain ⟨hm, rfl⟩ := h
    exact ⟨⟨_, rfl⟩, by simp [hm]⟩
  | _ => simp [hp] at h

/-- Among candidates, the home slice is the one that the hash of the line picks (R233). -/
theorem nth?_homeHash_hashedOver {s : State} {pa : Nat} {hs : List Nat} (h : hs ∈ hashedOver s pa) (hne : hs ≠ []) :
    nth? hs (homeHash (lineNo pa) hs.length) = some (s.homeOf pa) := by
  have hlt := homeHash_lt (lineNo pa) (List.length_pos_iff.2 hne)
  rw [(homeOf_hashedOver h).2, nth?_eq_getElem?, List.getElem?_eq_getElem hlt, Option.getD_some]

/-- The home slice depends on the memory order, the group tables and the partitions alone. -/
theorem homeOf_congr {s t : State} (ho : s.orderC = t.orderC) (hb : s.hbmGroups = t.hbmGroups)
    (hc : s.cellarGroups = t.cellarGroups) (hp : s.parts = t.parts) (pa : Nat) : s.homeOf pa = t.homeOf pa := by
  have hplace : s.placeOf pa = t.placeOf pa := by rw [State.placeOf, State.placeOf, ho]
  have hhbm : s.hbmEntry = t.hbmEntry := by funext g; rw [State.hbmEntry, State.hbmEntry, hb]
  have hcellar : s.cellarEntry = t.cellarEntry := by funext g; rw [State.cellarEntry, State.cellarEntry, hc]
  have hpart : s.part = t.part := by funext p; rw [State.part, State.part, hp]
  rw [State.homeOf, State.homeOf, hplace, hhbm, hcellar, hpart]

/-- The three folds of a 41-bit line number make its set (R238). -/
theorem setOf_toNat (l : BitVec 41) : setOf l.toNat =
    (l.extractLsb' 0 19 ^^^ l.extractLsb' 19 19 ^^^ (l.extractLsb' 38 3).setWidth 19).toNat := by
  simp only [setOf, BitVec.toNat_xor, BitVec.extractLsb'_toNat, BitVec.toNat_setWidth, Nat.shiftRight_eq_div_pow]
  have h3 : l.toNat / 2 ^ 38 % 2 ^ 3 % 2 ^ 19 = l.toNat / 2 ^ 38 % 8 := by omega
  rw [h3, Nat.pow_zero, Nat.div_one]

theorem homeHashAndCacheSet : HomeHashAndCacheSet := by
  unfold HomeHashAndCacheSet
  refine ⟨fun s pa hs h hne => ⟨?_, ?_⟩, fun s t pa ho hb hc hp => homeOf_congr ho hb hc hp pa, setOf_toNat⟩
  · obtain ⟨p, rfl⟩ := (homeOf_hashedOver h).1
    exact pairwise_partHalls p
  · exact homeHash_eq (pa / 128) hs.length ▸ nth?_homeHash_hashedOver h hne

/-! ## The way of a fill (R239) -/

theorem pairwise_fillWays (s : State) (h : Nat) (cls : RClass) (commons : Bool) :
    (s.fillWays h cls commons).Pairwise (· < ·) :=
  (List.pairwise_lt_range.filter _).filter _

/-- A way that a fill takes is a permitted one. -/
theorem pickWay_mem {sl : Slice} {ways : List Nat} {l w : Nat} {v : Option CLine}
    (h : pickWay sl ways l = some (w, v)) : w ∈ ways := by
  unfold pickWay at h
  extract_lets here taken busy at h
  split at h
  case h_1 w' hfree =>
    obtain ⟨rfl, -⟩ := by simpa using h
    exact List.mem_of_find?_eq_some hfree
  case h_2 =>
    obtain ⟨x, hx, e⟩ := Option.map_eq_some_iff.1 h
    obtain ⟨rfl, -⟩ := by simpa using e
    have hin := List.find?_some hx
    simp only [Bool.and_eq_true, List.contains_iff_mem] at hin
    exact hin.1

/-- Way `w` holds no valid line in the set of line `l`. -/
def wayFree (sl : Slice) (l w : Nat) : Bool := sl.lines.all fun x => !(decide (setOf x.line = setOf l) && decide (x.way = w))

theorem wayFree_iff {sl : Slice} {l w : Nat} :
    wayFree sl l w = true ↔ ∀ x ∈ sl.lines, setOf x.line = setOf l → x.way ≠ w := by
  simp [wayFree, imp_iff_not_or]

/-- The last of the slice's lines that is of the set of line `l` and stands in a permitted way: the victim of a fill. -/
def lastPermitted (sl : Slice) (ways : List Nat) (l : Nat) : Option CLine :=
  sl.lines.reverse.find? fun x => decide (setOf x.line = setOf l ∧ x.way ∈ ways)

section
variable {sl : Slice} {ways : List Nat} {l : Nat}

/-- With no fill of the set outstanding, the choice is the first free way, else that of the victim. -/
theorem pickWay_of_no_fill (hno : ∀ f ∈ sl.fills, setOf f.line ≠ setOf l) :
    pickWay sl ways l = ((ways.find? (wayFree sl l)).map fun w => (w, none)).or
      ((lastPermitted sl ways l).map fun x => (x.way, some x)) := by
  have hfills : sl.fills.filter (fun f => decide (setOf f.line = setOf l)) = [] := by simpa using hno
  have hfree : (fun w => !((sl.lines.filter fun x => decide (setOf x.line = setOf l)).any fun x => decide (x.way = w))) =
      wayFree sl l := by
    funext w
    rw [wayFree, List.any_filter, List.not_any_eq_all_not]
  unfold pickWay
  simp only [hfills, List.any_nil, Bool.not_false, Bool.and_true, hfree, ← List.filter_reverse, List.find?_filter,
    decide_eq_true_eq, List.contains_iff_mem]
  cases ways.find? (wayFree sl l) <;> rfl

/-- Among rising ways, a fill takes the lowest free one. -/
theorem pickWay_of_free {w : Nat} (hno : ∀ f ∈ sl.fills, setOf f.line ≠ setOf l) (hrise : ways.Pairwise (· < ·)) (hw : w ∈ ways)
    (hfree : wayFree sl l w = true) : ∃ w', pickWay sl ways l = some (w', none) ∧ w' ≤ w ∧ wayFree sl l w' = true := by
  obtain ⟨w', hf⟩ := Option.isSome_iff_exists.1 (List.find?_isSome.2 ⟨w, hw, hfree⟩)
  obtain ⟨hfree', before, after, rfl, hbefore⟩ := List.find?_eq_some_iff_append.1 hf
  refine ⟨w', by simp [pickWay_of_no_fill hno, hf], ?_, hfree'⟩
  rcases List.mem_append.1 hw with hb | ha
  · exact absurd hfree (by simpa using hbefore w hb)
  · rcases List.mem_cons.1 ha with rfl | ha
    · exact Nat.le_refl _
    · obtain ⟨-, hrise', -⟩ := List.pairwise_append.1 hrise
      exact Nat.le_of_lt (List.rel_of_pairwise_cons hrise' ha)

/-- A line of the set in a permitted way is there, so one of them stands last. -/
theorem lastPermitted_isSome {z : CLine} (hz : z ∈ sl.lines) (hset : setOf z.line = setOf l) (hway : z.way ∈ ways) :
    ∃ x, lastPermitted sl ways l = some x :=
  Option.isSome_iff_exists.1 (List.find?_isSome.2 ⟨z, List.mem_reverse.2 hz, decide_eq_true ⟨hset, hway⟩⟩)

/-- No line behind the last permitted one is of the set and in a permitted way. -/
theorem lastPermitted_split {x : CLine} (hx : lastPermitted sl ways l = some x) :
    ∃ a b : List CLine, sl.lines = a ++ x :: b ∧ setOf x.line = setOf l ∧ ∀ y ∈ b, setOf y.line = setOf l → y.way ∉ ways := by
  obtain ⟨hxp, behind, front, hrev, hbehind⟩ := List.find?_eq_some_iff_append.1 hx
  refine ⟨front.reverse, behind.reverse, ?_, (of_decide_eq_true hxp).1, fun y hy => ?_⟩
  · simpa using congrArg List.reverse hrev
  · simpa [imp_iff_not_or] using hbehind y (List.mem_reverse.1 hy)

/-- With no way free, a fill takes the way of the least recently used permitted line. -/
theorem pickWay_of_full (hno : ∀ f ∈ sl.fills, setOf f.line ≠ setOf l) (hfull : ∀ w ∈ ways, wayFree sl l w = false) (hne : ways ≠ []) :
    ∃ (a b : List CLine) (x : CLine), sl.lines = a ++ x :: b ∧ setOf x.line = setOf l ∧
      pickWay sl ways l = some (x.way, some x) ∧ ∀ y ∈ b, setOf y.line = setOf l → y.way ∉ ways := by
  have hnone : ways.find? (wayFree sl l) = none := List.find?_eq_none.2 fun w hw => by simp [hfull w hw]
  obtain ⟨w, hw⟩ := List.exists_mem_of_ne_nil ways hne
  obtain ⟨z, hz, hset, rfl⟩ : ∃ z ∈ sl.lines, setOf z.line = setOf l ∧ z.way = w := by
    simpa [wayFree] using hfull w hw
  obtain ⟨x, hx⟩ := lastPermitted_isSome hz hset hw
  obtain ⟨a, b, hlines, hsetx, hbehind⟩ := lastPermitted_split hx
  exact ⟨a, b, x, hlines, hsetx, by simp [pickWay_of_no_fill hno, hnone, hx], hbehind⟩

end

theorem fillTakesAWay : FillTakesAWay := by
  unfold FillTakesAWay
  intro s h l cls commons hno
  refine ⟨fun w v => pickWay_mem, fun w hw hfree => ?_, fun hfull hne => pickWay_of_full hno (fun w hw => ?_) hne⟩
  · obtain ⟨w', hpick, hle, hfree'⟩ := pickWay_of_free hno (pairwise_fillWays s h cls commons) hw (wayFree_iff.2 hfree)
    exact ⟨w', hpick, hle, wayFree_iff.1 hfree'⟩
  · obtain ⟨x, hx, hset, hway⟩ := hfull w hw
    exact Bool.eq_false_iff.2 fun hfree => wayFree_iff.1 hfree x hx hset hway

/-- Settles O60: the hash picks an existing candidate because its upper half is below 2³²; the choice of a way is two
searches, along the rising ways for a free one, then from the least recently used line for a permitted one. -/
theorem homeSliceAndWay : Obligations.HomeSliceAndWay := by
  unfold Obligations.HomeSliceAndWay
  exact ⟨homeHashAndCacheSet, fillTakesAWay⟩

end Sys2Proof.Machine
end

section
/-! PROOFS. One step of the module, what reset leaves, and the manual's own words. -/

namespace Sys2Proof.Machine

/-- Settles O24, by the two cases of `step`. -/
theorem stepTakesTheFront : Obligations.StepTakesTheFront := by
  unfold Obligations.StepTakesTheFront
  refine ⟨fun c rest s h => ?_, fun s h => ?_⟩ <;> simp only [step, h, State.withPending]

/-- Settles O26: every table of the state after reset is empty, so each read gives the default of its table. -/
theorem resetState : Obligations.ResetState := by
  unfold Obligations.ResetState
  refine ⟨rfl, rfl, fun _ => rfl, fun _ => rfl, fun _ => rfl, fun _ => ⟨rfl, rfl, rfl⟩, fun _ => ⟨rfl, rfl⟩, fun _ => rfl, fun _ => rfl,
    fun _ => ⟨rfl, rfl⟩, rfl, rfl, rfl, rfl, rfl, rfl, rfl, rfl, rfl⟩

/-- Settles O27. -/
theorem memoryCanonicalAtReset : Obligations.MemoryCanonicalAtReset := wf_reset

/-- Settles O30: the words are decoded, the slot of the command left open. -/
theorem decodedWords : Obligations.DecodedWords := by
  unfold Obligations.DecodedWords
  exact ⟨fun _ => rfl, fun _ => rfl, fun _ => rfl, fun _ => rfl⟩

end Sys2Proof.Machine
end

section
/-! PROOFS. Classes S, V and V64: each row of a table of results is one shared operation of the model at its issue record, so
`issue_group` gives the whole next state. -/

namespace Sys2Proof.Machine

open Sys2Proof.Claims

/-! ## Issue under a record that permits more -/

/-- An issue record that differs only in its fault, and has none, issues where the other does. -/
theorem Issues.of_legal {x y : Iss} {g : Grp} {s s1 : State} {k : Group} {act : W32} (h : Issues x g s k s1 act)
    (hxy : y = { x with bad := none }) : Issues y g s k s1 act := by
  subst hxy
  exact ⟨h.slot, h.can, h.noRunAhead, h.fetched, rfl, h.free, h.lanes, h.active⟩

theorem illegalUnless_eq_none {b : Bool} : illegalUnless b = none ↔ b = true := by
  cases b <;> simp [illegalUnless]

/-- A code of one of fewer kinds is a code of one of more. -/
theorem accepts_mono {n : Nat} {x : Bool} {ks ls : List Kind} {code : BitVec 9} (hsub : ks ⊆ ls) (h : accepts n x ks code = true) :
    accepts n x ls code = true := by
  obtain ⟨kd, hkd, hok⟩ := List.any_eq_true.1 h
  exact List.any_eq_true.2 ⟨kd, hsub hkd, hok⟩

/-! ## Class S -/

theorem exec_scalarRows : ∀ row ∈ scalarRows, ∀ (g : Grp) (f : RI) (s : State), exec (row.1 g f) s = scalarBin row.2 g f s := by
  intro row h
  fin_cases h <;> exact fun _ _ _ => rfl

theorem scalarTwoSourceResult : ScalarTwoSourceResult := by
  intro row hrow g f s s1 k act h
  rw [exec_scalarRows row hrow]
  exact issue_group h rfl

theorem exec_scalarUnRows : ∀ row ∈ scalarUnRows, ∀ (g : Grp) (f : RI) (s : State),
    exec (row.1 g f) s = scalarUn row.2.2.2 [.s, .p, .x, .z] [.s, .p, .z] g f s := by
  intro row h
  fin_cases h <;> exact fun _ _ _ => rfl

theorem scalarUnRows_kinds : ∀ row ∈ scalarUnRows, row.2.1 ⊆ [.s, .p, .x, .z] ∧ row.2.2.1 ⊆ [.s, .p, .z] := by
  intro row h
  fin_cases h <;> exact ⟨by simp, by simp⟩

theorem scalarIss_legal_mono {s : State} {g : Grp} {f : RI} {as as' bs ds ds' : List Kind} (ha : as ⊆ as') (hd : ds ⊆ ds')
    (h : (scalarIss s g f as bs ds).bad = none) : (scalarIss s g f as' bs ds').bad = none := by
  simp only [scalarIss, illegalUnless_eq_none, Bool.and_eq_true] at h ⊢
  obtain ⟨⟨⟨⟨⟨hoa, hob⟩, hc⟩, hdst⟩, hmod⟩, himm⟩ := h
  exact ⟨⟨⟨⟨⟨accepts_mono ha hoa, hob⟩, hc⟩, accepts_mono hd hdst⟩, hmod⟩, himm⟩

/-- A scalar operation of one source, issued with kinds among those it takes, writes its value. -/
theorem scalarUn_issues {op : W64 → W64} {as as' ds ds' : List Kind} (ha : as ⊆ as') (hd : ds ⊆ ds') {g : Grp} {f : RI} {s s1 : State}
    {k : Group} {act : W32} (h : Issues (scalarIss s g f as [.z] ds) g s k s1 act) :
    scalarUn op as' ds' g f s = .next (completed (scalarIss s g f as [.z] ds) g s1
      (k.putD (Ops3.of f).dst act (op (k.opS (Ops3.of f).ext (Ops3.of f).a)))) := by
  have hwide : scalarIss s g f as' [.z] ds' = { scalarIss s g f as [.z] ds with bad := none } := by
    rw [← scalarIss_legal_mono ha hd h.legal]; rfl
  exact issue_group (h.of_legal hwide) rfl

theorem readCr_crRows : ∀ row ∈ crRows, ∀ (s : State) (g : Grp) (k : Group), readCr s g k row.1 = some (row.2 s g k) := by
  intro row h
  fin_cases h <;> exact fun _ _ _ => rfl

theorem writeCr_barWdog (k : Group) {v : W64} (h : v.toNat < 64) :
    writeCr k 1 v = some { k with barWdog := max 12 (min 32 v.toNat) } := by
  have hclamp : clamp 12 32 v.toNat = max 12 (min 32 v.toNat) := by unfold clamp; split_ifs <;> omega
  simp [writeCr, Nat.not_le.2 h, hclamp]

theorem writeCr_runAhead (k : Group) {v : W64} (h : v.toNat < 4096) :
    writeCr k 2 v = some { k with runAheadMax := v.setWidth 12 } := by
  simp [writeCr, Nat.not_le.2 h]

theorem execWrcr_issues {g : Grp} {f : IWord} {s s1 : State} {k k' : Group} {act : W32} (h : Issues (wrcrIss s g f) g s k s1 act)
    (hw : writeCr k f.imm.toNat (k.opS f.ext f.a) = some k') :
    exec (.wrcr g f) s = .next (completed (wrcrIss s g f) g s1 k') :=
  issue_group h (by simp only [hw])

theorem scalarOneSourceAndControlResult : ScalarOneSourceAndControlResult := by
  refine ⟨fun row hrow g f s s1 k act h => ?_, fun g f s s1 k act h => execSpset_issues h,
    fun row hrow g f s s1 k act h hn => ?_, fun g f s s1 k act h => ⟨fun hf hv => ?_, fun hf hv => ?_⟩⟩
  · obtain ⟨ha, hd⟩ := scalarUnRows_kinds row hrow
    rw [exec_scalarUnRows row hrow]
    exact scalarUn_issues ha hd h
  · exact issue_group h (by simp only [hn, readCr_crRows row hrow, Option.getD_some])
  · exact execWrcr_issues h (by rw [hf]; exact writeCr_barWdog k hv)
  · exact execWrcr_issues h (by rw [hf]; exact writeCr_runAhead k hv)

/-- Settles O34: every row is `scalarBin` or `scalarUn` at its value, and the control registers are read and written by
`readCr` and `writeCr`. -/
theorem scalarResult : Obligations.ScalarResult := ⟨scalarTwoSourceResult, scalarOneSourceAndControlResult⟩

/-! ## Classes V and V64 -/

theorem Gives.of_body {c : Instr} {g : Grp} {x : State → Iss} {body : State → Group → W32 → Res} {out : Group → W32 → Group}
    (hc : ∀ s, exec c s = issue (x s) g body s) (hb : ∀ s k act, body s k act = .done (s.setGroup g (out k act))) :
    Gives c g x out := fun s s1 k act h => (hc s).trans (issue_group h (hb s1 k act))

theorem vectorIntegerResult : VectorIntegerResult := by
  refine ⟨fun row h => ?_, fun row h => ?_, fun row h => ?_⟩ <;> fin_cases h <;>
    exact fun _ _ => Gives.of_body (fun _ => rfl) fun _ _ _ => rfl

theorem vectorFloatResult : VectorFloatResult := by
  refine ⟨fun row h => ?_, fun row h => ?_, fun row h => ?_⟩ <;> fin_cases h <;>
    exact fun _ _ => Gives.of_body (fun _ => rfl) fun _ _ _ => rfl

/-- Settles O35: every row is one of the shared operations of classes V and V64. -/
theorem vectorArithmeticResult : Obligations.VectorArithmeticResult := ⟨vectorIntegerResult, vectorFloatResult⟩

theorem rIss_legal_mono {s : State} {g : Grp} {f : RWord} {as as' bs bs' cs ds : List Kind} {nr nw : Nat} {ok : Bool}
    (ha : as ⊆ as') (hb : bs ⊆ bs') (h : (rIss s g f false as bs cs ds nr nw ok).bad = none) :
    (rIss s g f false as' bs' cs ds nr nw ok).bad = none := by
  simp only [rIss, Bool.false_and, Bool.false_eq_true, if_false, illegalUnless_eq_none, Bool.and_eq_true] at h ⊢
  obtain ⟨⟨⟨⟨hfa, hfb⟩, hfc⟩, hdst⟩, hmod⟩ := h
  exact ⟨⟨⟨⟨accepts_mono ha hfa, accepts_mono hb hfb⟩, hfc⟩, hdst⟩, hmod⟩

/-- A cross-lane operation, issued with kinds among those it takes, writes its scalar register. -/
theorem gives_toScalar {as as' bs bs' : List Kind} (ha : as ⊆ as') (hb : bs ⊆ bs') {ok : Bool} {val : Group → W32 → W64} {g : Grp}
    {f : RWord} {c : Instr} (hc : ∀ s, exec c s = toScalar as' bs' ok val g f s) :
    Gives c g (fun s => rIss s g f false as bs [.z] [.s] 1 1 ok) fun k act => k.putS f.dst (val k act) := by
  intro s s1 k act h
  have hwide : rIss s g f false as' bs' [.z] [.s] 1 1 ok =
      { rIss s g f false as bs [.z] [.s] 1 1 ok with bad := none } := by
    rw [← rIss_legal_mono ha hb h.legal]; rfl
  rw [hc]
  exact issue_group (h.of_legal hwide) rfl

theorem flagWord_decide (p : Prop) [Decidable p] : flagWord (decide p) = if p then 1 else 0 := by
  by_cases h : p <;> simp [flagWord, h]

theorem moveAndCrossLaneResult : MoveAndCrossLaneResult := by
  refine ⟨fun row h => ?_, fun row h => ?_, fun g f => Gives.of_body (fun _ => rfl) fun _ _ _ => rfl⟩
  · fin_cases h <;> exact fun _ _ => Gives.of_body (fun _ => rfl) fun _ _ _ => rfl
  · fin_cases h <;> intro g f
    · exact gives_toScalar (by simp) (by simp) fun _ => rfl
    · simp only [← flagWord_decide]; exact gives_toScalar (List.Subset.refl _) (List.Subset.refl _) fun _ => rfl
    · simp only [← flagWord_decide]; exact gives_toScalar (List.Subset.refl _) (List.Subset.refl _) fun _ => rfl
    · exact gives_toScalar (List.Subset.refl _) (List.Subset.refl _) fun _ => rfl
    · exact gives_toScalar (List.Subset.refl _) (List.Subset.refl _) fun _ => rfl

theorem compareAndConvertResult : CompareAndConvertResult :=
  ⟨fun _ _ _ => Gives.of_body (fun _ => rfl) fun _ _ _ => rfl, fun _ _ _ => Gives.of_body (fun _ => rfl) fun _ _ _ => rfl,
    fun _ _ _ => Gives.of_body (fun _ => rfl) fun _ _ _ => rfl, fun _ _ _ => Gives.of_body (fun _ => rfl) fun _ _ _ => rfl⟩

/-- Settles O36: the rows are `moveOp` and `toScalar`; VGET takes more kinds than the statement asks for. -/
theorem moveCompareConvertResult : Obligations.MoveCompareConvertResult := ⟨moveAndCrossLaneResult, compareAndConvertResult⟩

end Sys2Proof.Machine
end

section
/-! PROOFS. Classes T, C and Y: the fences, the traps, the branches, the waits and the tally instructions. -/

namespace Sys2Proof.Machine

open Sys2Proof.Claims

/-! ## What an issued instruction does with its body's result -/

section
variable {x : Iss} {g : Grp} {s s1 s2 : State} {k : Group} {act : W32} {body : State → Group → W32 → Res}

theorem issue_passed (h : Issues x g s k s1 act) (hb : body s1 k act = .done s2) :
    issue x g body s = .next (passed s2 g x.ext) := by
  rw [issue_eq body h, hb]; rfl

theorem issue_stall (h : Issues x g s k s1 act) (hb : body s1 k act = .stall s2) :
    issue x g body s = .next (stallAt s2 g []) := by
  rw [issue_eq body h, hb]; rfl

theorem issue_fault {st : W16} {addr : Nat} {aux : W64} (h : Issues x g s k s1 act) (hb : body s1 k act = .fault st addr aux) :
    issue x g body s = .next (s1.modGroup g fun k' => beginPark k' 6 st addr aux) := by
  rw [issue_eq body h, hb]; rfl

end

/-- The fetch before an instruction leaves its group as it was. -/
theorem Issues.slot_after {x : Iss} {g : Grp} {s s1 : State} {k : Group} {act : W32} (h : Issues x g s k s1 act) :
    s1.group? g = some k := by
  rw [← h.slot, ← (fetch_only s g k (instrLen x.ext)).group? g, h.fetched]

/-! ## Fences and traps -/

theorem fenceIssue_scope0 {hold : State → Group → Bool} {g : Grp} {f : RWord} {s s1 : State} {k : Group} {act : W32}
    (h : Issues (sysIss s g f [.z] [.z] .ender true (fenceModOk f)) g s k s1 act) (hu : s1.unitOps g = false)
    (h0 : fenceScope f = 0) : fenceIssue hold g f s = .next (passed s1 g f.ext) :=
  issue_passed h (by simp [hu, h0])

theorem fenceIssue_pass {hold : State → Group → Bool} {g : Grp} {f : RWord} {s s1 : State} {k : Group} {act : W32}
    (h : Issues (sysIss s g f [.z] [.z] .ender true (fenceModOk f)) g s k s1 act) (hu : s1.unitOps g = false)
    (h0 : fenceScope f ≠ 0) (hh : hold s1 k = false) :
    fenceIssue hold g f s =
      .next (completed (sysIss s g f [.z] [.z] .ender true (fenceModOk f)) g s1 { k with ordSeq := k.seq }) :=
  issue_group h (by simp [hu, h0, hh, fencePass])

/-- Settles O3, fence by fence; BRK has placed its path itself, and a word of no instruction faults at its issue. -/
theorem fenceAndTrapResult : Obligations.FenceAndTrapResult := by
  unfold Obligations.FenceAndTrapResult
  refine ⟨fun g f s s1 k act h hu => ⟨fun h0 c hc => ?_, fun h0 => ⟨fenceIssue_pass h hu h0 rfl, fun hsb hnsa => ?_,
    fun hsb hreqs => ?_⟩⟩, fun g f s s1 k act h => issue_jump h rfl, fun g w x s s1 k hs hc hr hd hf => ?_⟩
  · simp only [List.mem_cons, List.not_mem_nil, or_false] at hc
    obtain rfl | rfl | rfl := hc <;> exact fenceIssue_scope0 h hu h0
  · exact fenceIssue_pass h hu h0 (by simp [hsb, hnsa])
  · exact fenceIssue_pass h hu h0 (by simp [hsb, hreqs])
  · show execIllegalOpcode g w x s = _
    simp only [execIllegalOpcode, hd]
    exact issue_bad _ hs hc hr hf rfl

/-! ## Branches -/

/-- Every step of `xBranch` but the first is the one of the rows (R113, R114). -/
theorem xBranch_of_target {g : Grp} {f : RWord} {reconv : VAddr} {link : Bool} {s : State} {k : Group} {act : W32}
    (h : ∀ i ∈ maskList act, targetFault k f i = none) :
    (backTurn k ((maskList act).map fun i => va (xTarget k f i)) = true → xBranch g f reconv link s k act = backStall s g k) ∧
    (backTurn k ((maskList act).map fun i => va (xTarget k f i)) = false → xBranch g f reconv link s k act =
      .jump (s.setGroup g (branchTo (if link then k.putPair f.dst act fun _ => linkPair (nextPc k f.ext) else k) act
        (fun i => (va (xTarget k f i), .run)) (nextPc k f.ext) reconv))) := by
  have hno := List.findSome?_eq_none_iff.2 h
  exact ⟨fun hb => by simp only [xBranch, hno, hb, if_true], fun hb => by simp only [xBranch, hno, hb, Bool.false_eq_true, if_false]⟩

theorem branchResult : BranchResult := by
  refine ⟨fun g f s s1 k act h => ⟨fun hb => ?_, fun hb hd => ?_, fun hb hd hr => ?_⟩, fun g f s s1 k act h => ⟨fun hb => ?_, fun hb => ?_⟩,
    fun row hrow g f s s1 k act h hf => ?_⟩
  · exact issue_jump h (by simp [hb, backStall])
  · exact issue_jump h (by simpa [hb] using hd)
  · exact issue_fault h (by simp [hb, hd, hr])
  · exact issue_jump h (by simp [hb, backStall])
  · exact issue_jump h (by simp [hb])
  · fin_cases hrow <;> exact ⟨fun hb => issue_jump h ((xBranch_of_target hf).1 hb), fun hb => issue_jump h ((xBranch_of_target hf).2 hb)⟩

theorem waitAndExitResult : WaitAndExitResult := by
  refine ⟨fun g f s s1 k act h => ⟨fun hl hq => ?_, fun p hl hp => ?_, fun hl hp => ?_⟩, fun g f s s1 k act h => ?_,
    fun g f s s1 k act h => issue_jump h rfl, fun g f s s1 s2 k act v pa leaf h hv ha hsame hload hord hpoison =>
      ⟨fun l wt hm => ?_, fun s3 hm hread => ⟨fun heq => ?_, fun hne => ?_⟩⟩⟩
  · exact issue_jump h (by simp only [hl, hq, if_true])
  · exact issue_jump h (by simp only [hl, hp, if_false])
  · exact issue_jump h (by simp only [hl, hp, if_false])
  · exact issue_jump h (by simp)
  · exact issue_stall h (by simp [hv, ha, hsame, hload, hord, hpoison, hm])
  · exact issue_jump h (by simp [hv, ha, hsame, hload, hord, hpoison, hm, hread, heq])
  · exact issue_passed h (by simp [hv, ha, hsame, hload, hord, hpoison, hm, hread, hne])

/-- Settles O39: each instruction's body, evaluated under the hypotheses, places the path itself or lets it go on. -/
theorem branchWaitAndExitResult : Obligations.BranchWaitAndExitResult := ⟨branchResult, waitAndExitResult⟩

/-! ## Tally instructions -/

theorem State.tallyOf_index {s : State} {ctx h n : Nat} (ht : s.tallyOf ctx h = some n) : h / 32768 = n := by
  unfold State.tallyOf at ht
  dsimp only at ht
  split at ht
  · exact Option.some.inj ht
  · cases ht

theorem withTally_of_names {g : Grp} {f : RWord} {s1 : State} {k : Group} {n : Nat} (h : Names g f s1 k n) (body : Nat → Res) :
    withTally s1 k f body = body n := by
  simp only [withTally, State.tallyOf_index h.tally, h.alive, h.tally, Bool.false_eq_true, if_false]

theorem tlyHold_of_names {g : Grp} {f : RWord} {s1 : State} {k : Group} {n : Nat} (h : Names g f s1 k n) : tlyHold s1 g k f = false := by
  unfold tlyHold
  by_cases hr : isRel (tlyMark f.mod) (tlyScope f.mod) = true
  · obtain ⟨hreqs, hsb⟩ := h.settled hr
    simp [hreqs, hsb]
  · simp [hr]

theorem tlyArith_issues {op : TallyOp} {g : Grp} {f : RWord} {s s1 : State} {k : Group} {act : W32} {n : Nat}
    (h : Issues (tlyIss s g f [.s, .x] [.z] [.s, .z] true true false 1) g s k s1 act) (hn : Names g f s1 k n) :
    tlyArith op g f s = .next (gaveS (tallyApply s1 n op (k.opS f.ext f.b).toNat) g f (w64 (s1.tally n).value)) :=
  issue_passed h (by simp only [tlyHold_of_names hn, withTally_of_names hn, Bool.false_eq_true, if_false])

/-- The answer of a registration for a queue, the Steward or the partner is its body's. -/
theorem watchAnswer_body {r : State × Option Nat} {put : State → W64 → Res} :
    (match r with
      | (s1, none) => put s1 (watchWord 0x0602 0)
      | (s1, some w) => put s1 (watchWord 0 (watchHandle w (s1.watch w).tag))) = put r.1 (watchAnswer r) := by
  obtain ⟨s1, _ | w⟩ := r <;> rfl

theorem tallyInstructionDone : TallyInstructionDone := by
  refine ⟨fun row hrow g f s s1 k act n h hn => ?_, fun g f s s1 k act n h hn => ?_, fun g f s s1 k act n h hn =>
    ⟨fun hr hq => ?_, fun q hr hq => ?_, fun hr => ?_, fun hr => ?_, fun hr => ?_⟩,
    fun g f s s1 k act h => ⟨fun hc => ?_, fun hc => ?_⟩⟩
  · fin_cases hrow <;> exact tlyArith_issues h hn
  · exact issue_group h (by simp only [withTally_of_names hn])
  · exact issue_passed h (by simp only [withTally_of_names hn, hr, hq])
  · exact issue_passed h (by simp only [withTally_of_names hn, hr, hq]; generalize register _ _ _ _ _ _ _ = r; exact watchAnswer_body (put := fun s w => .done (s.modGroup g fun k => k.putS f.dst w)))
  · exact issue_passed h (by simp only [withTally_of_names hn, hr]; generalize register _ _ _ _ _ _ _ = r; exact watchAnswer_body (put := fun s w => .done (s.modGroup g fun k => k.putS f.dst w)))
  · exact issue_passed h (by simp only [withTally_of_names hn, hr]; generalize register _ _ _ _ _ _ _ = r; exact watchAnswer_body (put := fun s w => .done (s.modGroup g fun k => k.putS f.dst w)))
  · intro r
    have hreg : register s1 n k.ctx (k.opS f.ext f.b).toNat (tlyCmp f.mod) (.path k.station k.inst k.index) 0 = r := rfl
    clear_value r
    obtain ⟨s2, o⟩ := r
    refine ⟨fun hw => ?_, fun w b hw hb => ?_, fun w hw hb => ?_⟩ <;> obtain rfl : o = _ := hw
    · exact issue_passed h (by simp only [withTally_of_names hn, hr, hreg])
    · exact issue_passed h (by simp only [withTally_of_names hn, hr, hreg, hb])
    · exact issue_jump h (by simp only [withTally_of_names hn, hr, hreg, hb])
  · exact issue_passed h (by simp only [hc, if_true])
  · exact issue_passed h (by simp only [hc, Bool.false_eq_true, if_false, State.modGroup_some _ h.slot_after])

/-! A bell changes no tally. -/

theorem OnlyTranslated.tallies {s t : State} (h : OnlyTranslated s t) : t.tallies = s.tallies := by
  obtain ⟨_, _, _, _, _, _, _, _, _, _, _, rfl, -⟩ := h; rfl

theorem freeWatch_tallies (s : State) (w : Nat) : (freeWatch s w).tallies = s.tallies := rfl

theorem queueEvent_tallies (s : State) (ctx : Nat) (bell : Bool) (tag : Nat) (payload : List Byte) :
    (queueEvent s ctx bell tag payload).tallies = s.tallies := by
  unfold queueEvent
  split
  · rfl
  · split
    · rfl
    · split <;> rfl

theorem fire_tallies (s : State) (w : Nat) (status : W16) : (fire s w status).tallies = s.tallies := by
  rw [← (countUp_only s 1 (hallOfWatch w) 6 1).tallies]
  unfold fire
  generalize countUp s 1 (hallOfWatch w) 6 1 = s1
  extract_lets _ x t r
  clear_value r
  split
  · rw [freeWatch_tallies, queueEvent_tallies]
  · rfl

theorem foldl_keeps {σ α β : Type} {p : σ → β} {f : σ → α → σ} (hf : ∀ s a, p (f s a) = p s) (l : List α) (s : σ) :
    p (l.foldl f s) = p s := by
  induction l generalizing s with
  | nil => rfl
  | cons a l ih => rw [List.foldl_cons, ih, hf]

theorem evalWatches_tallies (s : State) (n : Nat) : (evalWatches s n).tallies = s.tallies := by
  unfold evalWatches
  exact foldl_keeps (p := State.tallies) (fun s a => by split <;> simp only [fire_tallies]) _ s

theorem State.tally_congr {s t : State} (h : t.tallies = s.tallies) (n : Nat) : t.tally n = s.tally n := by
  simp only [State.tally, h]

theorem tallyOperationValue : TallyOperationValue := by
  intro s n op v
  have hcount := (countUp_only s 1 (hallOfTally n) 5 1).tallies
  unfold tallyApply
  dsimp only
  cases hf : (s.tally n).frozen with
  | true => exact ⟨State.tally_congr hcount n, fun m _ => State.tally_congr hcount m⟩
  | false =>
    simp only [Bool.false_eq_true, if_false, State.tally_congr (evalWatches_tallies _ n), State.tally_setTally, true_and]
    intro m hm
    rw [State.tally_setTally_other _ _ hm, State.tally_congr hcount]

/-- Settles O53: the instruction's body names its tally, and what the slice then does to the watches changes no tally. -/
theorem tallyInstructionResult : Obligations.TallyInstructionResult := ⟨tallyInstructionDone, tallyOperationValue⟩

/-! ## A uniform branch -/

theorem tfind_tmap {α : Type} (f : Nat → α → α) (t : Table α) (n : Nat) : tfind (tmap f t) n = (tfind t n).map (f n) := by
  induction t with
  | nil => rfl
  | cons e t ih =>
    obtain ⟨a, v⟩ := e
    by_cases h : a = n
    · subst h; simp [tmap, tfind]
    · simpa [tmap, tfind, h] using ih

theorem mem_maskList {m : W32} {i : Nat} : i ∈ maskList m ↔ m.getLsbD i = true := by
  simp only [maskList, List.mem_filter, List.mem_range, bit, and_iff_right_iff_imp]
  exact BitVec.lt_of_getLsbD

theorem maskList_ne_nil {m : W32} (h : m ≠ 0) : maskList m ≠ [] := by
  intro hnil
  refine h (BitVec.eq_of_getLsbD_eq fun i _ => ?_)
  have hi : i ∉ maskList m := by simp [hnil]
  simpa [mem_maskList] using hi

theorem distinct_const {α : Type} [DecidableEq α] {l : List α} {a : α} (hne : l ≠ []) (h : ∀ x ∈ l, x = a) : distinct l = [a] := by
  induction l with
  | nil => exact absurd rfl hne
  | cons x l ih =>
    obtain rfl := h x (by simp)
    rcases l.eq_nil_or_concat with rfl | hl
    · rfl
    · have htail : distinct l = [x] := ih (by rintro rfl; simp at hl) fun y hy => h y (by simp [hy])
      simp [distinct, htail]

/-- A turn used leaves the active path's lanes and place. -/
theorem useTurn_active {k : Group} {i : Nat} {p : Path} (hact : k.active = some i) (hp : k.path? i = some p) :
    useTurn k = { k with opp := k.opp + 1, stack := tput (countWaits k).stack i { p with wait := 0, turn := .go } } := by
  have hfind : tfind (tmap (fun j (q : Path) => if runnable q = true ∧ k.active ≠ some j then
      { q with wait := min (q.wait + 1) 0xFFFF } else q) k.stack) i = some p := by
    have hp' : tfind k.stack i = some p := hp
    simp [tfind_tmap, hp', hact]
  simp only [useTurn, countWaits, hact] at hfind ⊢
  simp only [hfind]

/-- A path that has no parent keeps its place under a new PC (R58). -/
theorem setPc_noParent {k : Group} {i : Nat} {p : Path} (pc : VAddr) (hp : k.path? i = some p) (hparent : p.parent = none) :
    setPc k i pc = { k with stack := tput k.stack i { p with pc := pc } } := by
  have hsettle : settle 64 (tput k.stack i { p with pc := pc }) i = tput k.stack i { p with pc := pc } := by
    simp [settle, tfind_tput_self, hparent]
  simp only [setPc, hp, hsettle, tfind_tput_self]

/-- Settles O2: every lane of the path has the branch's destination, so `branchTo` sets the path's PC, and a path without a
parent rejoins nothing. -/
theorem uniformBranchMovesThePath : Obligations.UniformBranchMovesThePath := by
  unfold Obligations.UniformBranchMovesThePath
  intro k i p act t next reconv hact hp hparent _ hmask hsub
  have hdest : distinct ((maskList p.mask).map fun j => if bit act j then (t, PathKind.run) else (next, .run)) = [(t, .run)] := by
    refine distinct_const (by simpa using maskList_ne_nil hmask) fun x hx => ?_
    obtain ⟨j, hj, rfl⟩ := List.mem_map.1 hx
    have hlane : bit act j = true := by
      have hzero := congrArg (BitVec.getLsbD · j) hsub
      simpa [bit, mem_maskList.1 hj, BitVec.lt_of_getLsbD (mem_maskList.1 hj)] using hzero
    rw [if_pos hlane]
  have hbranch : branchTo k act (fun _ => (t, .run)) next reconv = setPc (useTurn k) i t := by
    simp only [branchTo, hact, hp, hdest]
  have hturn : (useTurn k).path? i = some { p with wait := 0, turn := .go } := by
    rw [useTurn_active hact hp]
    exact tfind_tput_self _ _ _
  rw [hbranch, setPc_noParent t hturn hparent, useTurn_active hact hp]
  exact ⟨hact, tfind_tput_self _ _ _, rfl, rfl, rfl, rfl⟩

end Sys2Proof.Machine
end

section
/-! PROOFS. The frame of the register instructions: what issue may do to a group and its module beside the instruction's body. -/

namespace Sys2Proof.Machine

open Sys2Proof.Claims

/-! ## What leaves the registers -/

/-- No register of the group differs. -/
def SameRegs (k k' : Group) : Prop := k'.sregs = k.sregs ∧ k'.vfile = k.vfile ∧ k'.preds = k.preds

theorem SameRegs.refl (k : Group) : SameRegs k k := ⟨rfl, rfl, rfl⟩

theorem SameRegs.trans {a b c : Group} (h : SameRegs a b) (h' : SameRegs b c) : SameRegs a c :=
  ⟨h'.1.trans h.1, h'.2.1.trans h.2.1, h'.2.2.trans h.2.2⟩

theorem regsKept_refl (dst : Nat) (flags : Bool) (k : Group) : RegsKept dst flags k k :=
  ⟨fun _ _ _ => rfl, fun _ _ _ => rfl, fun _ _ => rfl⟩

theorem regsKept_trans {dst : Nat} {flags : Bool} {a b c : Group} (h : RegsKept dst flags a b) (h' : RegsKept dst flags b c) :
    RegsKept dst flags a c := by
  obtain ⟨hs, hv, hp⟩ := h
  obtain ⟨hs', hv', hp'⟩ := h'
  exact ⟨fun r h1 h2 => (hs' r h1 h2).trans (hs r h1 h2), fun r h1 h2 => (hv' r h1 h2).trans (hv r h1 h2),
    fun p h1 => (hp' p h1).trans (hp p h1)⟩

theorem SameRegs.kept {k k' : Group} (h : SameRegs k k') (dst : Nat) (flags : Bool) : RegsKept dst flags k k' := by
  obtain ⟨hs, hv, hp⟩ := h
  unfold RegsKept Group.s Group.v Group.pred
  rw [hs, hv, hp]
  exact regsKept_refl dst flags k

theorem countWaits_sameRegs (k : Group) : SameRegs k (countWaits k) := ⟨rfl, rfl, rfl⟩

theorem useTurn_sameRegs (k : Group) : SameRegs k (useTurn k) := by
  unfold useTurn
  dsimp only
  split
  · exact ⟨rfl, rfl, rfl⟩
  · split <;> exact ⟨rfl, rfl, rfl⟩

theorem loseTurn_sameRegs (t : Turn) (k : Group) : SameRegs k (loseTurn t k) := by
  unfold loseTurn
  dsimp only
  split
  · exact ⟨rfl, rfl, rfl⟩
  · split <;> exact ⟨rfl, rfl, rfl⟩

theorem switchPath_sameRegs (k : Group) : SameRegs k (switchPath k) := by
  unfold switchPath
  split
  · exact ⟨rfl, rfl, rfl⟩
  · unfold idlePath
    split <;> exact ⟨rfl, rfl, rfl⟩

theorem setPc_sameRegs (k : Group) (i : Nat) (pc : VAddr) : SameRegs k (setPc k i pc) := by
  unfold setPc
  split
  · exact .refl k
  · dsimp only
    split
    · exact ⟨rfl, rfl, rfl⟩
    · exact SameRegs.trans ⟨rfl, rfl, rfl⟩ (switchPath_sameRegs _)

theorem goOn_sameRegs (k : Group) (pc : VAddr) : SameRegs k (goOn k pc) := by
  unfold goOn
  split
  · exact .refl k
  · exact (useTurn_sameRegs k).trans (setPc_sameRegs _ _ _)

theorem beginPark_sameRegs (k : Group) (reason : BitVec 8) (status : W16) (addr : Nat) (aux : W64) :
    SameRegs k (beginPark k reason status addr aux) := by
  unfold beginPark
  cases k.mode with
  | running => exact ⟨rfl, rfl, rfl⟩
  | waitParked => dsimp only; split <;> exact ⟨rfl, rfl, rfl⟩
  | parking p => dsimp only; split <;> exact ⟨rfl, rfl, rfl⟩
  | stopped => exact .refl k

/-! ## Issue -/

/-- From `s` to `t` only the group of slot `g`, which is `k`, and what a translation may change. -/
def Stays (g : Grp) (dst : Nat) (flags : Bool) (k : Group) (s t : State) : Prop :=
  ∃ u, OnlyTranslated s u ∧ (t = u ∨ ∃ k', t = u.setGroup g k' ∧ RegsKept dst flags k k')

section
variable {g : Grp} {dst : Nat} {flags : Bool} {k k1 : Group} {s s1 : State}

theorem Stays.refl : Stays g dst flags k s s := ⟨s, .refl s, .inl rfl⟩

theorem Stays.setGroup (h : OnlyTranslated s s1) (hk : RegsKept dst flags k k1) : Stays g dst flags k s (s1.setGroup g k1) :=
  ⟨s1, h, .inr ⟨k1, rfl, hk⟩⟩

theorem Stays.modGroup (h : OnlyTranslated s s1) (hs : s.group? g = some k) {f : Group → Group} (hf : SameRegs k (f k)) :
    Stays g dst flags k s (s1.modGroup g f) := by
  rw [State.modGroup_some f ((h.group? g).trans hs)]
  exact .setGroup h (hf.kept dst flags)

/-- A count after a change of a group is one before it. -/
theorem setGroup_only (h : OnlyTranslated (s.setGroup g k1) s1) : ∃ u, OnlyTranslated s u ∧ s1 = u.setGroup g k1 := by
  obtain ⟨spare, tlb, walks, slices, heat, counters, regs, events, severe, life, lost, rfl, hsl⟩ := h
  exact ⟨_, ⟨spare, tlb, walks, slices, heat, counters, regs, events, severe, life, lost, rfl, hsl⟩, rfl⟩

theorem Stays.enterRunAhead (hk : RegsKept dst flags k k1) :
    Stays g dst flags k s (Sys2Proof.Machine.enterRunAhead g (s.setGroup g k1)) := by
  unfold Sys2Proof.Machine.enterRunAhead
  simp only [State.group?_setGroup, State.setGroup_setGroup]
  split
  · exact .setGroup (.refl s) hk
  · split
    · obtain ⟨u, hu, e⟩ := setGroup_only (countUp_only (s.setGroup g _) 0 g.core 4 1)
      rw [e]
      exact .setGroup hu (regsKept_trans hk (SameRegs.kept (.refl k1) dst flags))
    · exact .setGroup (.refl s) hk

theorem Stays.stallAt (hs : s.group? g = some k) (regs : List Nat) : Stays g dst flags k s (Sys2Proof.Machine.stallAt s g regs) := by
  unfold Sys2Proof.Machine.stallAt
  rw [State.modGroup_some _ hs]
  exact .enterRunAhead ((loseTurn_sameRegs _ k).kept dst flags)

theorem Stays.runAheadIssue {x : Iss} {r : RunAhead} {body : State → Group → W32 → Res} :
    Stays g dst flags k s (Sys2Proof.Machine.runAheadIssue x g k r body noPf s) := by
  have hold : ∀ k' : Group, k' = endRunAhead k ∨ (∃ r', k' = { k with ra := some r' }) → Stays g dst flags k s (s.setGroup g k') := by
    rintro k' (rfl | ⟨r', rfl⟩) <;> exact .setGroup (.refl s) (SameRegs.kept ⟨rfl, rfl, rfl⟩ dst flags)
  unfold Sys2Proof.Machine.runAheadIssue noPf
  extract_lets stop gg act hold' keep skip
  have hstop : Stays g dst flags k s stop := hold _ (.inl rfl)
  have hhold : ∀ gg ws inv, Stays g dst flags k s (hold' s gg ws inv) := by
    intro gg ws inv
    refine hold _ ?_
    split
    · exact .inl rfl
    · exact .inr ⟨_, rfl⟩
  have hkeep : ∀ gg inv, Stays g dst flags k s (keep s gg inv) := fun gg inv => hhold gg x.writes inv
  have hskip : Stays g dst flags k s skip := hhold _ _ _
  clear_value keep skip stop
  iterate 2 (split; · exact hstop)
  iterate 2 (split; · exact hskip)
  split
  · exact hkeep _ _
  · cases x.cls with
    | store => exact hkeep _ _
    | ender => exact hkeep _ _
    | load => exact hkeep _ _
    | alu =>
      dsimp only
      split
      · split
        · exact hkeep _ _
        · exact hstop
      · split
        · exact hkeep _ _
        · exact hstop
      · exact .refl
      · exact hstop

/-- A fetch that does not go on faults the group or parks it. -/
theorem fetch_stops {s : State} {g : Grp} {k : Group} {n : Nat} {s1 : State} {r : Res} (h : fetch s g k n = (s1, some r)) :
    (∃ st a x, r = .fault st a x) ∨ ∃ p a, r = .park p a := by
  unfold fetch at h
  dsimp only at h
  split at h
  · obtain ⟨-, rfl⟩ := by simpa using h
    exact .inl ⟨_, _, _, rfl⟩
  · obtain ⟨-, rfl⟩ := by simpa using h
    exact .inr ⟨_, _, rfl⟩
  · split at h
    · obtain ⟨-, rfl⟩ := by simpa using h
      exact .inl ⟨_, _, _, rfl⟩
    · split at h
      · obtain ⟨-, rfl⟩ := by simpa using h
        unfold poisonRes
        split
        · split
          · exact .inl ⟨_, _, _, rfl⟩
          · exact .inr ⟨_, _, rfl⟩
        · exact .inl ⟨_, _, _, rfl⟩
      · simp at h

/-- A body that answers with the group alone, its registers kept but the destination, keeps the frame on every path through
issue. -/
theorem issue_frame {x : Iss} {body : State → Group → W32 → Res}
    (hbody : ∀ s k act, ∃ k', body s k act = .done (s.setGroup g k') ∧ RegsKept dst flags k k') {t : State}
    (h : issue x g body s = .next t) : OnlyGroup g dst flags s t := by
  obtain rfl : issuePf x g body noPf s = t := by simpa [issue] using h
  unfold issuePf
  cases hs : s.group? g with
  | none => exact ⟨fun _ => rfl, fun k hk => by simp [hs] at hk⟩
  | some k =>
    refine ⟨fun hn => by simp [hs] at hn, fun k' hk => ?_⟩
    obtain rfl : k = k' := by simpa [hs] using hk
    show Stays g dst flags k s _
    dsimp only
    split
    · exact .refl
    cases hra : k.ra with
    | some r => exact .runAheadIssue
    | none =>
      have hfetch := fetch_only s g k (instrLen x.ext)
      dsimp only
      rcases hf : fetch s g k (instrLen x.ext) with ⟨s1, _ | res⟩
      · rw [hf] at hfetch
        dsimp only
        split
        · exact .modGroup hfetch hs (beginPark_sameRegs k _ _ _ _)
        · split
          · exact .stallAt hs _
          · obtain ⟨k', hdone, hkept⟩ := hbody s1 k (k.lanesOn x.gp x.gn)
            split
            · exact .modGroup hfetch hs (goOn_sameRegs k _)
            · rw [hdone]
              simp only [applyRes, State.modGroup_setGroup]
              exact .setGroup hfetch (regsKept_trans hkept ((goOn_sameRegs k' _).kept dst flags))
      · rw [hf] at hfetch
        obtain ⟨st, a, y, rfl⟩ | ⟨p, a, rfl⟩ := fetch_stops hf <;> exact .modGroup hfetch hs (beginPark_sameRegs k _ _ _ _)

end

/-! ## The destinations -/

theorem putS_kept (k : Group) (c : BitVec 9) (v : W64) (flags : Bool) : RegsKept c.toNat flags k (k.putS c v) := by
  unfold Group.putS
  split
  case isTrue hc =>
    exact ⟨fun r hr _ => Group.s_setS_other _ _ (by omega), fun _ _ _ => rfl, fun _ _ => rfl⟩
  case isFalse => exact regsKept_refl _ _ _

theorem setPred_kept (k : Group) (c : BitVec 9) (m : W32) (flags : Bool) : RegsKept c.toNat flags k (k.setPred (c.toNat - 0x140) m) := by
  refine ⟨fun r _ _ => ?_, fun r _ _ => ?_, fun p hp => ?_⟩
  · unfold Group.setPred; split <;> rfl
  · unfold Group.setPred; split <;> rfl
  · by_cases hc : c.toNat < 0x140
    · rw [Nat.sub_eq_zero_of_le (Nat.le_of_lt hc), Group.setPred_zero]
    · exact Group.pred_setPred_other k _ (by omega)

theorem setV_kept (k : Group) (r : Nat) (x : Line) (flags : Bool) : RegsKept r flags k (k.setV r x) :=
  ⟨fun _ _ _ => rfl, fun _ hn _ => Group.v_setV_other _ _ hn, fun _ _ => rfl⟩

theorem putV_kept (k : Group) (c : Nat) (act : W32) (f : Nat → W32) (flags : Bool) : RegsKept c flags k (k.putV c act f) := by
  unfold Group.putV
  split
  · exact setV_kept _ _ _ _
  · exact regsKept_refl _ _ _

theorem setV_succ_kept (k : Group) (r : Nat) (x : Line) (flags : Bool) : RegsKept r flags k (k.setV (r + 1) x) :=
  ⟨fun _ _ _ => rfl, fun _ _ hn => Group.v_setV_other _ _ hn, fun _ _ => rfl⟩

theorem putPair_kept (k : Group) (c : BitVec 9) (act : W32) (f : Nat → W64) (flags : Bool) :
    RegsKept c.toNat flags k (k.putPair c act f) := by
  refine regsKept_trans (putV_kept k c.toNat act (fun i => (f i).setWidth 32) flags) ?_
  unfold Group.putPair
  generalize k.putV c.toNat act (fun i => (f i).setWidth 32) = k1
  unfold Group.putV
  split
  · exact setV_succ_kept _ _ _ _
  · exact regsKept_refl _ _ _

theorem recordFlags_kept (k : Group) (m : BitVec 9) (fl dst : Nat) : RegsKept dst true k (recordFlags k m fl) := by
  unfold recordFlags
  split
  · exact ⟨fun r _ hr => Group.s_setS_other _ _ (hr rfl), fun _ _ _ => rfl, fun _ _ => rfl⟩
  · exact regsKept_refl _ _ _

theorem putP_kept (k : Group) (c : BitVec 9) (act m : W32) (flags : Bool) : RegsKept c.toNat flags k (k.putP c act m) :=
  setPred_kept k c _ flags

theorem putD_kept (k : Group) (c : BitVec 9) (act : W32) (v : W64) (flags : Bool) : RegsKept c.toNat flags k (k.putD c act v) := by
  unfold Group.putD
  split
  · exact putP_kept ..
  · exact putS_kept ..

/-! ## The classes -/

section
variable {g : Grp} {s t : State}

theorem scalarBin_frame {op : W64 → W64 → W64} {f : RI} (h : scalarBin op g f s = .next t) :
    OnlyGroup g (Ops3.of f).dst.toNat false s t :=
  issue_frame (fun _ _ _ => ⟨_, rfl, putS_kept ..⟩) h

theorem scalarUn_frame {op : W64 → W64} {as ds : List Kind} {f : RI} (h : scalarUn op as ds g f s = .next t) :
    OnlyGroup g (Ops3.of f).dst.toNat false s t :=
  issue_frame (fun _ _ _ => ⟨_, rfl, putD_kept ..⟩) h

theorem vecBin_frame {op : (n : Nat) → BitVec n → BitVec n → BitVec n} {f : RI} (h : vecBin op g f s = .next t) :
    OnlyGroup g (Ops3.of f).dst.toNat false s t :=
  issue_frame (fun _ _ _ => ⟨_, rfl, putV_kept ..⟩) h

theorem vecUn_frame {op : (n : Nat) → BitVec n → BitVec n} {f : RI} (h : vecUn op g f s = .next t) :
    OnlyGroup g (Ops3.of f).dst.toNat false s t :=
  issue_frame (fun _ _ _ => ⟨_, rfl, putV_kept ..⟩) h

theorem fpOp_frame {bs cs : List Kind} {op : Fmt → Rm → Nat → Nat → Nat → Nat × Nat} {f : RWord} (h : fpOp bs cs op g f s = .next t) :
    OnlyGroup g f.dst.toNat true s t :=
  issue_frame (fun _ _ _ => ⟨_, rfl, regsKept_trans (putV_kept ..) (recordFlags_kept ..)⟩) h

theorem fpDivOp_frame {bs : List Kind} {op : Fmt → Rm → Nat → Nat → Nat × Nat} {f : RWord} (h : fpDivOp bs op g f s = .next t) :
    OnlyGroup g f.dst.toNat true s t :=
  issue_frame (fun _ _ _ => ⟨_, rfl, regsKept_trans (putV_kept ..) (recordFlags_kept ..)⟩) h

theorem fp64Op_frame {bs cs : List Kind} {op : Rm → Nat → Nat → Nat → Nat × Nat} {f : RWord} (h : fp64Op bs cs op g f s = .next t) :
    OnlyGroup g f.dst.toNat true s t :=
  issue_frame (fun _ _ _ => ⟨_, rfl, regsKept_trans (putPair_kept ..) (recordFlags_kept ..)⟩) h

theorem intDivOp_frame {op : W32 → W32 → W32} {f : RWord} (h : intDivOp op g f s = .next t) : OnlyGroup g f.dst.toNat true s t :=
  issue_frame (fun _ _ _ => ⟨_, rfl, putV_kept ..⟩) h

theorem moveOp_frame {as bs cs : List Kind} {val : Group → Nat → W32} {f : RWord} (h : moveOp as bs cs val g f s = .next t) :
    OnlyGroup g f.dst.toNat true s t :=
  issue_frame (fun _ _ _ => ⟨_, rfl, putV_kept ..⟩) h

theorem toScalar_frame {as bs : List Kind} {ok : Bool} {val : Group → W32 → W64} {f : RWord} (h : toScalar as bs ok val g f s = .next t) :
    OnlyGroup g f.dst.toNat true s t :=
  issue_frame (fun _ _ _ => ⟨_, rfl, putS_kept ..⟩) h

theorem execVredFadd_frame {f : RWord} (h : execVredFadd g f s = .next t) : OnlyGroup g f.dst.toNat true s t := by
  refine issue_frame (fun s k act => ⟨_, rfl, ?_⟩) h
  generalize redFadd _ _ = sum
  exact regsKept_trans (putS_kept ..) (recordFlags_kept ..)

end

/-! The rows of each table are one operation of the model. -/

theorem exec_vecRows : ∀ row ∈ vecRows, ∀ (g : Grp) (f : RI) (s : State), exec (row.1 g f) s = vecBin row.2 g f s := by
  intro row h
  fin_cases h <;> exact fun _ _ _ => rfl

theorem exec_vecUnRows : ∀ row ∈ vecUnRows, ∀ (g : Grp) (f : RI) (s : State), exec (row.1 g f) s = vecUn row.2 g f s := by
  intro row h
  fin_cases h <;> exact fun _ _ _ => rfl

theorem exec_fpRows : ∀ row ∈ fpRows, ∀ (g : Grp) (f : RWord) (s : State), exec (row.1 g f) s = fpOp row.2.1 row.2.2.1 row.2.2.2 g f s := by
  intro row h
  fin_cases h <;> exact fun _ _ _ => rfl

theorem exec_fp64Rows : ∀ row ∈ fp64Rows, ∀ (g : Grp) (f : RWord) (s : State), exec (row.1 g f) s = fp64Op row.2.1 row.2.2.1 row.2.2.2 g f s := by
  intro row h
  fin_cases h <;> exact fun _ _ _ => rfl

theorem exec_fpDivRows : ∀ row ∈ fpDivRows, ∀ (g : Grp) (f : RWord) (s : State), exec (row.1 g f) s = fpDivOp row.2.1 row.2.2 g f s := by
  intro row h
  fin_cases h <;> exact fun _ _ _ => rfl

theorem exec_intDivRows : ∀ row ∈ intDivRows, ∀ (g : Grp) (f : RWord) (s : State), exec (row.1 g f) s = intDivOp row.2 g f s := by
  intro row h
  fin_cases h <;> exact fun _ _ _ => rfl

theorem exec_moveRows : ∀ row ∈ moveRows, ∀ (g : Grp) (f : RWord) (s : State), exec (row.1 g f) s = moveOp row.2.1 row.2.2.1 row.2.2.2.1 (row.2.2.2.2 f) g f s := by
  intro row h
  fin_cases h <;> exact fun _ _ _ => rfl

theorem exec_crossRows : ∀ row ∈ crossRows, ∀ (g : Grp) (f : RWord), ∃ as bs val, ∀ s, exec (row.1 g f) s = toScalar as bs (row.2.2.2.1 f.mod) val g f s := by
  intro row h
  fin_cases h <;> exact fun _ _ => ⟨_, _, _, fun _ => rfl⟩

/-- Settles O31: every register instruction is `issue` over a body that changes its destination and, where it records flags,
s63; the paths that do not reach the body change no register. -/
theorem registerInstructionsFrame : Obligations.RegisterInstructionsFrame := by
  unfold Obligations.RegisterInstructionsFrame
  refine ⟨fun op hop g f s t h => ?_, fun op hop g f s t h => ?_, fun c g f s t => ⟨fun h => ?_, fun h => ?_⟩,
    fun ty g f s t => ⟨fun h => ?_, fun h => ?_⟩, fun g f s t h => ?_⟩
  · simp only [List.mem_append, List.mem_map, List.mem_singleton] at hop
    obtain (((⟨row, hrow, rfl⟩ | ⟨row, hrow, rfl⟩) | rfl) | ⟨row, hrow, rfl⟩) | ⟨row, hrow, rfl⟩ := hop
    · exact scalarBin_frame (exec_scalarRows row hrow g f s ▸ h)
    · exact scalarUn_frame (exec_scalarUnRows row hrow g f s ▸ h)
    · exact issue_frame (fun _ _ _ => ⟨_, rfl, setPred_kept ..⟩) h
    · exact vecBin_frame (exec_vecRows row hrow g f s ▸ h)
    · exact vecUn_frame (exec_vecUnRows row hrow g f s ▸ h)
  · simp only [List.mem_append, List.mem_map, List.mem_singleton] at hop
    obtain (((((⟨row, hrow, rfl⟩ | ⟨row, hrow, rfl⟩) | ⟨row, hrow, rfl⟩) | ⟨row, hrow, rfl⟩) | ⟨row, hrow, rfl⟩) |
      ⟨row, hrow, rfl⟩) | rfl := hop
    · exact fpOp_frame (exec_fpRows row hrow g f s ▸ h)
    · exact fp64Op_frame (exec_fp64Rows row hrow g f s ▸ h)
    · exact fpDivOp_frame (exec_fpDivRows row hrow g f s ▸ h)
    · exact intDivOp_frame (exec_intDivRows row hrow g f s ▸ h)
    · exact moveOp_frame (exec_moveRows row hrow g f s ▸ h)
    · obtain ⟨as, bs, val, hexec⟩ := exec_crossRows row hrow g f
      exact toScalar_frame (hexec s ▸ h)
    · exact execVredFadd_frame h
  · exact issue_frame (fun _ _ _ => ⟨_, rfl, regsKept_trans (putP_kept ..) (recordFlags_kept ..)⟩) h
  · exact issue_frame (fun _ _ _ => ⟨_, rfl, regsKept_trans (putP_kept ..) (recordFlags_kept ..)⟩) h
  · exact issue_frame (fun _ _ _ => ⟨_, rfl, regsKept_trans (putV_kept ..) (recordFlags_kept ..)⟩) h
  · refine issue_frame (fun s k act => ⟨_, rfl, regsKept_trans ?_ (recordFlags_kept ..)⟩) h
    dsimp only
    split
    · exact putPair_kept ..
    · exact putV_kept ..
  · exact issue_frame (fun _ _ _ => ⟨_, rfl, putS_kept ..⟩) h

end Sys2Proof.Machine
end

section
/-! PROOFS. Class M: loads, prefetches, stores, atomics and the larder's views. -/

namespace Sys2Proof.Machine

open Sys2Proof.Claims

/-! ## Issue with a prefetcher -/

section
variable {x : Iss} {g : Grp} {s s1 s2 : State} {k k' : Group} {act : W32} {body : State → Group → W32 → Res}
  {pf : State → Grp → Group → W32 → State × Ahead}

theorem issuePf_group (h : Issues x g s k s1 act) (hb : body s1 k act = .done (s2.setGroup g k')) :
    issuePf x g body pf s = completed x g s2 k' := by
  rw [issuePf_eq body pf h, hb]
  simp [applyRes, completed]

theorem issuePf_passed (h : Issues x g s k s1 act) (hb : body s1 k act = .done s2) : issuePf x g body pf s = passed s2 g x.ext := by
  rw [issuePf_eq body pf h, hb]; rfl

theorem issuePf_stall (h : Issues x g s k s1 act) (hb : body s1 k act = .stall s2) : issuePf x g body pf s = stallAt s2 g [] := by
  rw [issuePf_eq body pf h, hb]; rfl

end

/-! ## Loads and stores -/

/-- The three parts of `Aims` in one equation for the model's checks. -/
theorem lanesAccess_of_aims {g : Grp} {f : MWord} {atom scalar : Bool} {need : Need} {attr : W64 → Nat → Bool} {s1 : State} {k : Group}
    {act : W32} {s2 : State} {as : List (Nat × Nat × Nat × W64)} (h : Aims g f atom scalar need attr s1 k act s2 as) :
    ∃ ls, lanesAccess s1 g k need (szBytes f.sz) attr (memAddrs k act atom scalar f) = (s2, ls) ∧ lanesRes ls = none ∧
      lanesOk ls = as := by
  obtain ⟨hs, hc, hl⟩ := h
  exact ⟨_, by rw [← hs], hc, hl⟩

theorem loadIssue_body {g : Grp} {f : MWord} {scalar : Bool} {s s1 : State} {k : Group} {act : W32}
    (h : Issues (loadIss f g scalar s) g s k s1 act) :
    (∀ s2 k', loadBody g f scalar s1 k act = .done (s2.setGroup g k') →
      loadIssue g f scalar s = .next (completed (loadIss f g scalar s) g s2 k')) ∧
    (∀ s2, loadBody g f scalar s1 k act = .done s2 → loadIssue g f scalar s = .next (passed s2 g f.ext)) ∧
    (∀ s2, loadBody g f scalar s1 k act = .stall s2 → loadIssue g f scalar s = .next (stallAt s2 g [])) :=
  ⟨fun _ _ hb => congrArg Host.Outcome.next (issuePf_group h hb), fun _ hb => congrArg Host.Outcome.next (issuePf_passed h hb),
    fun _ hb => congrArg Host.Outcome.next (issuePf_stall h hb)⟩

theorem exec_loadRows : ∀ row ∈ loadRows, ∀ (g : Grp) (f : MWord) (s : State), exec (row.1 g f) s = loadIssue g f row.2 s := by
  intro row h
  fin_cases h <;> exact fun _ _ _ => rfl

theorem exec_storeRows : ∀ row ∈ storeRows, ∀ (g : Grp) (f : MWord) (s : State), exec (row.1 g f) s = storeIssue g f row.2 s := by
  intro row h
  fin_cases h <;> exact fun _ _ _ => rfl

theorem exec_atomRows : ∀ row ∈ atomRows, ∀ (g : Grp) (f : MWord) (s : State),
    exec (row.1 g f) s = issue (atomIss s g f row.2) g (atomBody g f row.2) s := by
  intro row h
  fin_cases h <;> exact fun _ _ _ => rfl

theorem loadResult : LoadResult := by
  refine ⟨fun row hrow g f s s1 s2 k act as h ha => ?_, fun g f s s1 k act h => ?_⟩
  · obtain ⟨ls, hacc, hclean, hlanes⟩ := lanesAccess_of_aims ha
    obtain ⟨hgroup, hpassed, hstall⟩ := loadIssue_body h
    rw [exec_loadRows row hrow]
    refine ⟨fun hdev hbusy hsb => hgroup _ _ ?_, fun hdev hsame hloads s3 h3 => ⟨fun hmiss hpoison s4 ready hread =>
      ⟨fun hr => hgroup _ _ ?_, fun hr => hstall _ ?_⟩, fun hmiss => hpassed _ ?_⟩⟩
    · simp [loadBody, hacc, hclean, hlanes, hdev, hbusy, hsb]
    · simp [loadBody, hacc, hclean, hlanes, hdev, hsame, hloads, h3, hmiss, hpoison, hread, hr]
    · simp [loadBody, hacc, hclean, hlanes, hdev, hsame, hloads, h3, hmiss, hpoison, hread, hr]
    · simp [loadBody, hacc, hclean, hlanes, hdev, hsame, hloads, h3, hmiss]
  · exact congrArg Host.Outcome.next (issuePf_passed h rfl)

theorem storeResult : StoreResult := by
  intro row hrow g f s s1 s2 k act as h ha hdev hsame hrel hroom
  obtain ⟨ls, hacc, hclean, hlanes⟩ := lanesAccess_of_aims ha
  rw [exec_storeRows row hrow]
  have hwait : (as.any (fun a => s2.onDevice a.2.2.1) && (k.memBusy || !(s2.sbOf g).isEmpty)) = false := by
    cases hd : as.any fun a => s2.onDevice a.2.2.1 with
    | false => rfl
    | true =>
      obtain ⟨hbusy, hsb⟩ := hdev hd
      simp [hbusy, hsb]
  have hmark : (isRel f.mark f.scope && !k.reqs.isEmpty) = false := by
    cases hr : isRel f.mark f.scope with
    | false => rfl
    | true => simp [hrel hr]
  refine congrArg Host.Outcome.next (issuePf_group h ?_)
  simp [storeBody, hacc, hclean, hlanes, hwait, hsame, hmark, Nat.not_lt.2 hroom]

/-- Settles O37: the body is evaluated under the checks' result, and what it answers is the completed, the pending or the
waiting instruction. -/
theorem loadAndStoreResult : Obligations.LoadAndStoreResult := ⟨loadResult, storeResult⟩

/-! ## Atomics -/

/-- No fault and no poison among lanes that are looked at one by one. -/
theorem find?_eq_none_of_false {α : Type} {p : α → Bool} {l : List α} (h : ∀ a ∈ l, p a = false) : l.find? p = none := by
  simpa using h

theorem any_eq_false_of_false {α : Type} {p : α → Bool} {l : List α} (h : ∀ a ∈ l, p a = false) : l.any p = false := by
  simpa using h

theorem mem_distinct {α : Type} [DecidableEq α] {x : α} {l : List α} : x ∈ distinct l ↔ x ∈ l := by
  induction l with
  | nil => simp [distinct]
  | cons a l ih => by_cases h : x = a <;> simp [distinct, ih, h]

theorem all_distinct_map {α β : Type} [DecidableEq β] {f : α → β} {p : β → Bool} {l : List α} :
    (distinct (l.map f)).all p = true ↔ ∀ a ∈ l, p (f a) = true := by
  simp [mem_distinct]

theorem rowLane_of_row {k : Group} {f : MWord} {o : Nat} (h : effAddr k false f 0 = o) (hal : o % 512 = 0) (hin : o + 512 ≤ 2 ^ 20) :
    rowLane k f = .ok 0 o o 0 := by
  rw [rowLane, h, larderLane, if_neg (not_not.2 hal), if_neg (Nat.not_lt.2 hin)]

theorem atomicInstructionResult : AtomicResult := by
  intro row hrow g f x s s1 k act hx h hrel
  rw [exec_atomRows row hrow]
  have hmark : (isRel f.mark f.scope && (!k.reqs.isEmpty || !(s1.sbOf g).isEmpty)) = false := by
    cases hr : isRel f.mark f.scope with
    | false => rfl
    | true =>
      obtain ⟨hreqs, hsb⟩ := hrel hr
      simp [hreqs, hsb]
  have hext : f.ext.getD 0 = x := by simp [hx]
  refine ⟨fun hloc hclean hlanes => ?_, fun s2 as hloc ha hsb => ?_⟩
  · refine congrArg Host.Outcome.next (issuePf_group h ?_)
    have hscore := any_eq_false_of_false fun a ha => (hlanes a ha).1
    have hpoison := find?_eq_none_of_false fun a ha => (hlanes a ha).2
    simp only [atomBody, hmark, hext, hloc, atomLarder, hclean, hscore, hpoison, if_true, Bool.false_eq_true, if_false]
  · obtain ⟨ls, hacc, hclean, hlanes⟩ := lanesAccess_of_aims ha
    have hbuf : (as.any fun a => (s2.sbOf g).any fun e => decide (e.line = lineNo a.2.2.1)) = false := by simpa using hsb
    have hbody : atomBody g f row.2 s1 k act = if locOf x = 0 then atomL1 g f row.2 x as s2 k
        else if scatterAhead s2 g k then .wait else atomNear g f x as s2 k := by
      simp only [atomBody, hmark, hext, hloc, hacc, hclean, hlanes, hbuf, Bool.false_eq_true, if_false]
    refine ⟨fun h0 hown => ?_, fun h0 hno => ?_, fun h1 hscatter => ?_⟩
    · have hall : (distinct (as.map fun a => lineNo a.2.2.1)).all (ownsLine s2 g.core) = true :=
        all_distinct_map.2 fun a ha => (hown a ha).1
      have hpoison := find?_eq_none_of_false fun a ha => (hown a ha).2
      refine issue_passed h (hbody.trans ?_)
      simp only [h0, if_true, atomL1, hall, hpoison]
    · have hall : ¬ (distinct (as.map fun a => lineNo a.2.2.1)).all (ownsLine s2 g.core) = true := by
        obtain ⟨a, ha, hna⟩ := hno
        exact fun hall => by simp [all_distinct_map.1 hall a ha] at hna
      refine issue_stall h (hbody.trans ?_)
      simp only [h0, if_true, atomL1, hall, Bool.false_eq_true, if_false]
    · refine congrArg Host.Outcome.next (issuePf_group h (hbody.trans ?_))
      simp only [h1, hscatter, atomNear, Nat.one_ne_zero, if_false, Bool.false_eq_true]

/-! ## The larder's views -/

theorem larderViewResult : LarderViewResult := by
  intro g f s s1 k act as o
  refine ⟨fun hclean hlanes => ⟨fun h hlane => ?_, fun h hrel hlane => ?_⟩, fun ho hal hin => ⟨fun h hscore hpoison => ?_, fun h hrel hscore => ?_⟩⟩
  · have hscore := any_eq_false_of_false fun a ha => (hlane a ha).1
    have hpoison := find?_eq_none_of_false fun a ha => (hlane a ha).2
    refine congrArg Host.Outcome.next (issuePf_passed h ?_)
    simp only [lldBody, hclean, hlanes, hscore, hpoison, Bool.false_eq_true, if_false]
  · have hscore := any_eq_false_of_false hlane
    refine issue_passed h ?_
    simp only [hclean, hlanes, hrel, hscore, Bool.or_false, Bool.false_eq_true, if_false]
  · refine congrArg Host.Outcome.next (issuePf_group h ?_)
    simp only [lldRBody, rowLane_of_row ho hal hin, hscore, hpoison, Bool.false_eq_true, if_false]
  · refine issue_done h ?_ h.slot_after
    simp only [rowLane_of_row ho hal hin, hrel, hscore, Bool.or_false, Bool.false_eq_true, if_false]

/-- Settles O38: an atomic's body and the larder's bodies are evaluated under what the lanes' checks gave. -/
theorem atomicAndLarderViewResult : Obligations.AtomicAndLarderViewResult := ⟨atomicInstructionResult, larderViewResult⟩

/-! ## Packed fields -/

theorem packFields_lt (k : Nat) (f : Nat → Nat) (n : Nat) : packFields k f n < 2 ^ (k * n) := by
  induction n with
  | zero => simp [packFields]
  | succ n ih =>
    have hmod : f n % 2 ^ k < 2 ^ k := Nat.mod_lt _ (Nat.two_pow_pos k)
    have hle : (f n % 2 ^ k + 1) * 2 ^ (k * n) ≤ 2 ^ k * 2 ^ (k * n) := Nat.mul_le_mul_right _ hmod
    calc packFields k f n + f n % 2 ^ k * 2 ^ (k * n) < (f n % 2 ^ k + 1) * 2 ^ (k * n) := by rw [Nat.add_mul]; omega
      _ ≤ 2 ^ (k * (n + 1)) := by rwa [Nat.mul_succ, Nat.pow_add, Nat.mul_comm (2 ^ (k * n))]

/-- Field `i` of a packed word. -/
theorem packFields_field (k : Nat) (f : Nat → Nat) {n i : Nat} (hi : i < n) : packFields k f n / 2 ^ (k * i) % 2 ^ k = f i % 2 ^ k := by
  induction n with
  | zero => omega
  | succ n ih =>
    show (packFields k f n + f n % 2 ^ k * 2 ^ (k * n)) / 2 ^ (k * i) % 2 ^ k = _
    rcases Nat.lt_succ_iff_lt_or_eq.1 hi with hlt | rfl
    · obtain ⟨d, hd⟩ := Nat.exists_eq_add_of_lt hlt
      have hsplit : 2 ^ (k * n) = 2 ^ k * 2 ^ (k * d) * 2 ^ (k * i) := by
        rw [hd, ← Nat.pow_add, ← Nat.pow_add]
        congr 1; ring
      rw [hsplit, ← Nat.mul_assoc, Nat.add_mul_div_right _ _ (Nat.two_pow_pos _), ← ih hlt, Nat.mul_left_comm,
        Nat.add_mul_mod_self_left]
    · rw [Nat.add_mul_div_right _ _ (Nat.two_pow_pos _), Nat.div_eq_of_lt (packFields_lt k f i), Nat.zero_add, Nat.mod_mod]

/-- Bit `i` of a mask built bit by bit. -/
theorem testBit_packFields (p : Nat → Bool) {n i : Nat} (hi : i < n) :
    (packFields 1 (fun j => if p j then 1 else 0) n).testBit i = p i := by
  have hfield := packFields_field 1 (fun j => if p j then 1 else 0) hi
  rw [Nat.one_mul, Nat.pow_one] at hfield
  rw [Nat.testBit_eq_decide_div_mod_eq, hfield]
  cases p i <;> rfl

theorem lineByte_lineOf (f : Nat → Byte) {i : Nat} (hi : i < 128) : lineByte (lineOf f) i = f i := by
  refine BitVec.eq_of_toNat_eq ?_
  have hfield := packFields_field 8 (fun j => (f j).toNat) hi
  have hlt := packFields_lt 8 (fun j => (f j).toNat) 128
  rw [lineByte, lineOf, BitVec.extractLsb'_toNat, BitVec.toNat_ofNat, Nat.mod_eq_of_lt hlt, Nat.shiftRight_eq_div_pow, hfield]
  exact Nat.mod_eq_of_lt (f i).isLt

/-! ## The entries of a store -/

theorem length_leBytes (n v : Nat) : (leBytes n v).length = n := by
  induction n generalizing v with
  | zero => rfl
  | succ n ih => simp [leBytes, ih]

theorem length_storeBytes (k : Group) (f : MWord) (scalar : Bool) (i : Nat) : (storeBytes k f scalar i).length = szBytes f.sz := by
  unfold storeBytes
  dsimp only
  split <;> exact length_leBytes _ _

/-- A line put in its place among rising lines. -/
def insertLine (l : Nat) (ls : List Nat) : List Nat :=
  (ls.takeWhile fun x => decide (x < l)) ++ l :: (ls.dropWhile fun x => decide (x < l))

theorem mem_insertLine {l x : Nat} {ls : List Nat} : x ∈ insertLine l ls ↔ x = l ∨ x ∈ ls := by
  have hsplit : x ∈ ls ↔ x ∈ ls.takeWhile (fun x => decide (x < l)) ∨ x ∈ ls.dropWhile (fun x => decide (x < l)) := by
    rw [← List.mem_append, List.takeWhile_append_dropWhile]
  rw [insertLine, List.mem_append, List.mem_cons, hsplit]
  exact or_left_comm

theorem insertLine_rising {l : Nat} {ls : List Nat} (hr : ls.Pairwise (· < ·)) (hn : l ∉ ls) : (insertLine l ls).Pairwise (· < ·) := by
  induction ls with
  | nil => simp [insertLine]
  | cons a ls ih =>
    obtain ⟨hna, hnl⟩ := List.ne_and_not_mem_of_not_mem_cons hn
    obtain ⟨ha, hls⟩ := List.pairwise_cons.1 hr
    by_cases hlt : a < l
    · have hcons : insertLine l (a :: ls) = a :: insertLine l ls := by simp [insertLine, hlt]
      rw [hcons]
      refine List.pairwise_cons.2 ⟨fun x hx => ?_, ih hls hnl⟩
      obtain rfl | hx := mem_insertLine.1 hx
      · exact hlt
      · exact ha x hx
    · have hcons : insertLine l (a :: ls) = l :: a :: ls := by simp [insertLine, hlt]
      rw [hcons]
      refine List.pairwise_cons.2 ⟨fun x hx => ?_, hr⟩
      obtain rfl | hx := List.mem_cons.1 hx
      · omega
      · exact Nat.lt_of_le_of_lt (Nat.not_lt.1 hlt) (ha x hx)

theorem nodup_distinct {α : Type} [DecidableEq α] (l : List α) : (distinct l).Nodup := by
  induction l with
  | nil => exact List.nodup_nil
  | cons a l ih => exact List.nodup_cons.2 ⟨by simp, ih.filter _⟩

/-- Sorting by insertion: the same lines, rising. -/
theorem foldr_insertLine {ls : List Nat} (hn : ls.Nodup) :
    (ls.foldr insertLine []).Pairwise (· < ·) ∧ ∀ x, x ∈ ls.foldr insertLine [] ↔ x ∈ ls := by
  induction ls with
  | nil => simp
  | cons a ls ih =>
    obtain ⟨hna, hnl⟩ := List.nodup_cons.1 hn
    obtain ⟨hr, hm⟩ := ih hnl
    refine ⟨insertLine_rising hr fun h => hna ((hm a).1 h), fun x => ?_⟩
    rw [List.foldr_cons, mem_insertLine, hm, List.mem_cons]

theorem storeLines_rising (as : List (Nat × Nat × Nat × W64)) : (storeLines as).Pairwise (· < ·) :=
  (foldr_insertLine (nodup_distinct _)).1

theorem mem_storeLines {as : List (Nat × Nat × Nat × W64)} {l : Nat} : l ∈ storeLines as ↔ ∃ a ∈ as, lineNo a.2.2.1 = l :=
  ((foldr_insertLine (nodup_distinct _)).2 l).trans (by rw [mem_distinct, List.mem_map])

theorem storeEntries_lines (s : State) (g : Grp) (k : Group) (f : MWord) (scalar : Bool) (as : List (Nat × Nat × Nat × W64)) :
    (storeEntries s g k f scalar as).map (·.line) = storeLines as := by
  simp [storeEntries, lineEntry, Function.comp_def]

/-- The bytes of a line entry: those of the writes that fall into the line. -/
theorem lineEntry_mask (g : Grp) (k : Group) (f : MWord) (e : Option Nat) (attr l v : Nat) (ws : List (Nat × List Byte)) {i : Nat}
    (hi : i < 128) : (lineEntry g k f e attr l v ws).mask.getLsbD i = true ↔
      ∃ w ∈ ws, ∃ j < w.2.length, w.1 + j = 128 * l + i := by
  have hmask : (lineEntry g k f e attr l v ws).mask.getLsbD i = ((ws.flatMap fun w => (List.range w.2.length).filterMap fun i =>
      if lineNo (w.1 + i) = l then some ((w.1 + i) % 128, (nth? w.2 i).getD 0) else none).any fun b => b.1 = i) := by
    simp only [lineEntry, BitVec.getLsbD_ofNat, hi, decide_true, Bool.true_and]
    rw [testBit_packFields _ hi]
  simp only [hmask, List.any_eq_true, List.mem_flatMap, List.mem_filterMap, List.mem_range, decide_eq_true_eq]
  constructor
  · rintro ⟨b, ⟨w, hw, j, hj, hb⟩, rfl⟩
    split at hb
    · obtain rfl := Option.some.inj hb
      exact ⟨w, hw, j, hj, by dsimp only; unfold lineNo at *; omega⟩
    · cases hb
  · rintro ⟨w, hw, j, hj, hsum⟩
    exact ⟨(i, (nth? w.2 j).getD 0), ⟨w, hw, j, hj, by unfold lineNo; rw [if_pos (by omega)]; congr 2; omega⟩, rfl⟩

/-- Settles O1: the lines are the distinct lines of the lanes, sorted by insertion, and the mask of a line's entry is built
byte by byte from the lanes of that line. -/
theorem storeEntriesCoverTheStore : Obligations.StoreEntriesCoverTheStore := by
  unfold Obligations.StoreEntriesCoverTheStore
  intro s g k f scalar as
  rw [storeEntries_lines]
  refine ⟨storeLines_rising as, fun l => mem_storeLines, fun e he => ?_⟩
  obtain ⟨l, hl, rfl⟩ := List.mem_map.1 he
  refine ⟨rfl, rfl, rfl, fun i hi => ?_⟩
  dsimp only
  rw [lineEntry_mask _ _ _ _ _ _ _ _ hi]
  simp only [List.mem_map, List.mem_filter, decide_eq_true_eq]
  constructor
  · rintro ⟨w, ⟨a, ⟨ha, rfl⟩, rfl⟩, j, hj, hsum⟩
    exact ⟨a, ha, rfl, j, length_storeBytes k f scalar a.1 ▸ hj, hsum⟩
  · rintro ⟨a, ha, rfl, j, hj, hsum⟩
    exact ⟨_, ⟨a, ⟨ha, rfl⟩, rfl⟩, j, (length_storeBytes k f scalar a.1).symm ▸ hj, hsum⟩

end Sys2Proof.Machine
end

section
/-! PROOFS. The events of a group: its paths, its loads, its park and the answers that reach it. -/

namespace Sys2Proof.Machine

open Sys2Proof.Claims

theorem onRunning_next {s : State} {g : Grp} {k : Group} {f : Group → Group} (hs : s.group? g = some k) (hm : k.mode = .running) :
    onRunning s g f = .next (s.setGroup g (f k)) := by
  simp only [onRunning, hs, hm, if_true]

/-! ## The scheduler -/

theorem pathEventsResult : PathEventsResult := by
  refine ⟨fun g s k i p hs hm hlong hmust => ?_, fun g i s k p l hs hm hp hk => ?_, fun g i s k b hs hm hb => ⟨fun hd => ?_, fun hd => ?_⟩,
    fun g s k r hs hr hspent => ?_⟩
  · have hswitch : mustSwitch k = true := by
      unfold mustSwitch
      rcases hmust with h | h | ⟨⟨rs, h⟩, hother⟩
      · simp [h]
      · simp [h]
      · simp [h, hother]
    refine (onRunning_next hs hm).trans ?_
    simp only [hlong, hswitch, and_self, if_true]
  · refine (onRunning_next hs hm).trans ?_
    simp [hp, spinWaiting, hk]
  · show execBarrierStall g i s = _
    simp [execBarrierStall, hs, hb, hd, beginPark, hm, endRunAhead]
  · show execBarrierStall g i s = _
    simp [execBarrierStall, hs, hb, Nat.not_le.2 hd]
  · show execRunAheadLimit g s = _
    simp [execRunAheadLimit, hs, hr, hspent, endRunAhead]

/-! ## Loads -/

theorem enterRunAhead_of_not_starved {g : Grp} {s : State} {k : Group} (hs : s.group? g = some k) (h : ∀ l, ¬Starved s g k l) :
    enterRunAhead g s = s := by
  unfold enterRunAhead
  simp only [hs]
  cases hl : missedLoad k with
  | none => rfl
  | some l =>
    dsimp only
    rw [if_neg fun hc => ?_]
    simp only [Bool.and_eq_true, decide_eq_true_eq, Option.isNone_iff_eq_none, Bool.not_eq_true'] at hc
    obtain ⟨⟨⟨⟨hrun, hra⟩, hother⟩, hbusy⟩, hlim⟩ := hc
    exact h l ⟨hrun, hra, hl, hother, hbusy, hlim⟩

/-- What run-ahead starts with: the architectural registers, and the active path at the instruction it cannot issue (R67). -/
def shadowOf (k : Group) (l : PendingLoad) : RunAhead :=
  { load := l.id, resume := k.pc, sregs := k.sregs, vregs := k.vfile, preds := k.preds, stack := k.stack, active := k.active,
    writtenS := [], writtenV := [], invalid := k.pendingRegs, issued := 0 }

theorem enterRunAhead_of_starved {g : Grp} {s : State} {k : Group} {l : PendingLoad} (hs : s.group? g = some k) (h : Starved s g k l) :
    enterRunAhead g s = countUp (s.setGroup g { k with ra := some (shadowOf k l) }) 0 g.core 4 1 := by
  obtain ⟨hrun, hra, hl, hother, hbusy, hlim⟩ := h
  simp [enterRunAhead, hs, hl, hrun, hra, hother, hbusy, hlim, shadowOf]

theorem execMissNotice_noted {g : Grp} {ld : Nat} {s : State} {k : Group} {l : PendingLoad} (hs : s.group? g = some k)
    (hl : (k.loads.find? fun x => decide (x.id = ld)) = some l)
    (hnote : (l.addrs.any fun a => (s.core g.core).notes.contains (lineNo a.2.2.toNat)) = true) :
    exec (.missNotice g ld) s = .next (enterRunAhead g (s.setGroup g
      { k with loads := k.loads.map fun x => if x.id = ld then { x with noticed := true } else x })) := by
  show execMissNotice g ld s = _
  simp only [execMissNotice, hs, hl, hnote, if_true]

theorem execLoadDataArrival_found {g : Grp} {s : State} {k : Group} {l : PendingLoad} (hs : s.group? g = some k)
    (hl : (k.loads.find? fun x => decide (x.id = l.id)) = some l) (hm : arrivalMissing s g k l = []) (ho : olderSame k l = false) :
    exec (.loadDataArrival g l.id) s = match arrivalPoison s g k l with
      | some a =>
        if leafCommons a.2.2.2 = true ∧ s.failedCommons a.2.2.1 = true then .next (s.setGroup g (beginPark k 6 0x0703 a.2.1 0))
        else if leafCommons a.2.2.2 then .next (s.setGroup g (beginPark k 4 0 a.2.1 0))
        else .next (s.setGroup g (beginPark k 6 0x0701 a.2.1 0))
      | none =>
        match readHomes s g.core (homeLanes s (fun _ pa => (l.knownByte pa).isSome) (arrivalLanes s g k l) (szBytes l.sz)) (szBytes l.sz) with
        | (s1, false) => .next s1
        | (s1, true) => .next (s1.modGroup g fun _ => arrivalDone s g k l) := by
  show execLoadDataArrival g l.id s = _
  simp only [execLoadDataArrival, hs, hl, hm, ho, List.isEmpty_nil, Bool.true_eq_false, Bool.false_eq_true, if_false] <;> rfl

theorem loadEventsResult : LoadEventsResult := by
  refine ⟨fun g ld s k l hs hl hnote => ?_, fun g s k l hs hl => ⟨fun hm => ?_, fun hm ho => ?_, fun hm ho => ⟨fun hp s1 ready hr => ?_,
    fun a hp hc => ?_, fun a hp hc => ?_⟩⟩⟩
  · refine ⟨fun l' hl' => ?_, fun hno => ?_⟩
    · refine ⟨_, _, shadowOf { k with loads := k.loads.map fun x => if x.id = ld then { x with noticed := true } else x } l',
        execMissNotice_noted hs hl hnote, ?_, rfl, rfl, rfl, rfl, rfl, rfl, rfl, ?_, ?_⟩ <;>
      rw [enterRunAhead_of_starved (State.group?_setGroup _ _ _) hl', State.setGroup_setGroup]
      · rw [(countUp_only _ 0 g.core 4 1).group?, State.group?_setGroup]
      · rw [(countUp_only _ 0 g.core 4 1).mem]; rfl
      · rw [(countUp_only _ 0 g.core 4 1).cores]; rfl
    · rw [execMissNotice_noted hs hl hnote, enterRunAhead_of_not_starved (State.group?_setGroup _ _ _) hno]
  · show execLoadDataArrival g l.id s = _
    simp [execLoadDataArrival, hs, hl, hm]
  · show execLoadDataArrival g l.id s = _
    simp [execLoadDataArrival, hs, hl, hm, ho]
  · rw [execLoadDataArrival_found hs hl hm ho, hp, hr]
    cases ready <;> rfl
  · rw [execLoadDataArrival_found hs hl hm ho, hp]
    simp [hc]
  · rw [execLoadDataArrival_found hs hl hm ho, hp]
    by_cases hf : s.failedCommons a.2.2.1 = true <;> simp [hc, hf]

/-- Settles O40: each event is evaluated under its hypotheses; run-ahead starts exactly when the group is starved. -/
theorem pathAndLoadEventsResult : Obligations.PathAndLoadEventsResult := ⟨pathEventsResult, loadEventsResult⟩

/-! ## Parks and answers -/

theorem modCore_sb (s : State) (c : Nat) (f : Core → Core) : ((s.modCore c f).core c) = f (s.core c) := State.core_setCore _ _ _

theorem modCore_group? (s : State) (c : Nat) (f : Core → Core) (g : Grp) : (s.modCore c f).group? g = s.group? g := rfl

theorem dropGroup_group? (s : State) (g : Grp) : (s.dropGroup g).group? g = none := tfind_tdel_self _ _

theorem dropGroup_group?_other (s : State) {g g' : Grp} (h : gkey g' ≠ gkey g) : (s.dropGroup g).group? g' = s.group? g' :=
  tfind_tdel_other _ h

/-- Dropping a group leaves its core's store buffer. -/
theorem dropGroup_sb (s : State) (g : Grp) : ((s.dropGroup g).core g.core).sb = (s.core g.core).sb := by
  have hcore : (s.dropGroup g).core g.core = (match (s.core g.core).held with
      | some h => if h.slot = g.slot then { s.core g.core with held := none } else s.core g.core
      | none => s.core g.core) := State.core_setCore _ _ _
  rw [hcore]
  split
  · split <;> rfl
  · rfl

/-- What a lost context of a parked group adds to the state: an entry of the loss queue. -/
theorem parkLoss_eq (s : State) (g : Grp) (k : Group) (p : ParkReq) : ∃ q, parkLoss s g k p = { s with lossQ := q } ∧
    (∀ c, p.reason = 6 → s.ctx? k.ctx = some c → q = s.lossQ ++
      [{ ctx := k.ctx, gen := c.gen, status := p.status, core := g.core, station := w32 k.station,
         addr := if p.status = 0x0410 ∨ p.status = 0x0680 then p.aux else p.addr.setWidth 64, logged := false }]) ∧
    (p.reason ≠ 6 → q = s.lossQ) := by
  unfold parkLoss lose addLoss
  by_cases hr : p.reason = 6
  · rw [if_pos hr]
    cases hc : s.ctx? k.ctx with
    | none => exact ⟨s.lossQ, rfl, fun _ _ h => absurd h (by simp), fun h => absurd hr h⟩
    | some c => exact ⟨_, rfl, fun _ _ h => by rw [Option.some.inj h], fun h => absurd hr h⟩
  · rw [if_neg hr]
    exact ⟨s.lossQ, rfl, fun c h => absurd h hr, fun _ => rfl⟩

/-- The module without the group of a slot, its buffered stores and its claims on near-store atomics (R73). -/
def withoutGroup (s : State) (g : Grp) : State :=
  (s.modCore g.core fun c => { c with sb := c.sb.filter fun e => decide (e.slot ≠ g.slot), nsa := orphanNear c g.slot }).dropGroup g

theorem withoutGroup_sb (s : State) (g : Grp) :
    ((withoutGroup s g).core g.core).sb = (s.core g.core).sb.filter fun e => decide (e.slot ≠ g.slot) := by
  rw [withoutGroup, dropGroup_sb, modCore_sb]

theorem execParkComplete_parking {g : Grp} {s : State} {k : Group} {p : ParkReq} (hs : s.group? g = some k) (hp : k.mode = .parking p)
    (hdrained : (s.sbOf g).all (tentative k) = true) (hdone : p.reason = 6 ∨ (k.reqs = [] ∧ s.unitOps g = false)) :
    exec (.parkComplete g) s =
      .next (parkLoss { withoutGroup s g with parked := s.parked ++ [parkRecord s g k p] } g k p) := by
  have hready : (decide (p.reason = 6) || (k.reqs.isEmpty && !s.unitOps g)) = true := by
    rcases hdone with h | ⟨hreqs, hunit⟩
    · simp [h]
    · simp [hreqs, hunit]
  show execParkComplete g s = _
  simp only [execParkComplete, hs, hp, hdrained, hready, Bool.and_self, if_true]
  rfl

theorem withoutGroup_mem (s : State) (g : Grp) : (withoutGroup s g).mem = s.mem := rfl
theorem withoutGroup_lossQ (s : State) (g : Grp) : (withoutGroup s g).lossQ = s.lossQ := rfl
theorem withoutGroup_ctx? (s : State) (g : Grp) (c : Nat) : (withoutGroup s g).ctx? c = s.ctx? c := rfl
theorem withoutGroup_group? (s : State) (g : Grp) : (withoutGroup s g).group? g = none := dropGroup_group? _ _

theorem withoutGroup_group?_other (s : State) {g g' : Grp} (h : gkey g' ≠ gkey g) : (withoutGroup s g).group? g' = s.group? g' :=
  dropGroup_group?_other _ h

theorem parkCompleteResult : ParkCompleteResult := by
  intro g s k p hs hp hdrained hdone
  have hsb := withoutGroup_sb s g
  have hmem := withoutGroup_mem s g
  have hlossQ := withoutGroup_lossQ s g
  have hctx := withoutGroup_ctx? s g k.ctx
  have hgone := withoutGroup_group? s g
  have hother := fun g' => withoutGroup_group?_other s (g := g) (g' := g')
  rw [execParkComplete_parking hs hp hdrained hdone]
  generalize withoutGroup s g = s1 at *
  obtain ⟨q, hloss, hlost, hkept⟩ := parkLoss_eq { s1 with parked := s.parked ++ [parkRecord s g k p] } g k p
  rw [hloss]
  refine ⟨_, rfl, hgone, ?_, rfl, hmem, hother, fun c h6 hc => ?_, fun h6 => (hkept h6).trans hlossQ⟩
  · show (s1.core g.core).sb.filter _ = []
    simp [hsb]
  · exact hlossQ ▸ hlost c h6 (hctx.trans hc)

/-! What an answer writes. -/

theorem setV_reqs (k : Group) (r : Nat) (x : Line) : (k.setV r x).reqs = k.reqs := rfl

theorem putLoaded_reqs (k : Group) (dst : BitVec 9) (sz : BitVec 3) (scalar : Bool) (vals : List (Nat × Nat)) :
    (putLoaded k dst sz scalar vals).reqs = k.reqs := by
  unfold putLoaded
  split
  · unfold Group.putS
    split <;> rfl
  · refine foldl_keeps (p := Group.reqs) (fun k j => ?_) _ k
    unfold Group.putV
    split
    · exact setV_reqs _ _ _
    · rfl

theorem putAnswer_reqs (k : Group) (r : Req) (v : W64) : (putAnswer k r v).reqs = k.reqs := by
  unfold putAnswer
  split
  · split <;> exact putLoaded_reqs _ _ _ _ _
  · rfl

/-- An answer to a scalar destination of 8, 16 or 32 bits or more is written as it came. -/
theorem putAnswer_scalar {k : Group} {r : Req} {v : W64} {d : BitVec 9} (hd : r.dst = some d) (hlo : 0x100 ≤ d.toNat) (h1 : r.sz ≠ 1)
    (h3 : r.sz ≠ 3) : putAnswer k r v = k.putS d v := by
  have hext : extendSz r.sz true v.toNat = v.toNat := by
    unfold extendSz
    dsimp only
    split
    · exact absurd (BitVec.eq_of_toNat_eq ‹_›) h1
    · exact absurd (BitVec.eq_of_toNat_eq ‹_›) h3
    · rfl
  simp [putAnswer, hd, Nat.not_lt.2 hlo, putLoaded, hext, w64]

theorem execWriteAck_answered {g : Grp} {s : State} {k : Group} {r : Req} {v : W64} (hs : s.group? g = some k)
    (hr : (k.reqs.find? fun x => decide (x.id = r.id)) = some r) (ha : r.answer = some v) (hw : ackWaits s k r = false) :
    exec (.writeAck g r.id) s = .next (s.setGroup g
      (Group.deliver { k with reqs := k.reqs.filter fun x => decide (x.id ≠ r.id) } r.seq fun x => putAnswer x r v)) := by
  show execWriteAck g r.id s = _
  simp only [execWriteAck, hs, hr, ha, hw, Bool.false_eq_true, if_false]

theorem beginPark_running {k : Group} {reason : BitVec 8} {status : W16} {addr : Nat} {aux : W64} (h : k.mode = .running) :
    (beginPark k reason status addr aux).mode = .parking { reason := reason, status := status, addr := va addr, aux := aux } := by
  simp only [beginPark, h]

theorem beginPark_outstanding (k : Group) (reason : BitVec 8) (status : W16) (addr : Nat) (aux : W64) :
    (beginPark k reason status addr aux).reqs = k.reqs ∧ (beginPark k reason status addr aux).loads = k.loads := by
  unfold beginPark
  cases k.mode with
  | running => exact ⟨rfl, rfl⟩
  | waitParked => dsimp only; split <;> exact ⟨rfl, rfl⟩
  | parking p => dsimp only; split <;> exact ⟨rfl, rfl⟩
  | stopped => exact ⟨rfl, rfl⟩

/-- The group without the request whose end point is lost. -/
def forget (k : Group) (w : Awaited) : Group :=
  match w with
  | .request id => { k with reqs := k.reqs.filter fun r => decide (r.id ≠ id) }
  | _ => k

theorem execFenceEndpointLost_target {g : Grp} {w : Awaited} {s : State} {k : Group} {pa : PAddr} (hs : s.group? g = some k)
    (ht : reqTarget s g k w = some pa) : exec (.fenceEndpointLost g w) s =
      .next ((discard s g k w).setGroup g (beginPark (forget k w) 6 0x0410 0 (pa.setWidth 64))) := by
  show execFenceEndpointLost g w s = _
  simp only [execFenceEndpointLost, hs, ht]
  cases w <;> rfl

theorem groupAnswersResult : GroupAnswersResult := by
  refine ⟨fun w s b st i ix hb hr hf => ?_, fun g s k r v hs hr ha hw => ?_, fun g w s k pa hs hm ht => ?_⟩
  · show execGroupWake w s = _
    simp only [execGroupWake, hb, hr, hf, if_true]
  · refine ⟨_, execWriteAck_answered hs hr ha hw, putAnswer_reqs _ _ _, fun hd => ?_, fun d hd hlo hhi h1 h3 => ?_⟩
    · simp [Group.deliver, putAnswer, hd]
    · simp only [Group.deliver, putAnswer_scalar hd hlo h1 h3, Group.putS, hlo, hhi, and_self, if_true]
      exact ⟨Group.s_setS _ _ _, rfl⟩
  · refine ⟨_, _, execFenceEndpointLost_target hs ht, State.group?_setGroup _ _ _, beginPark_running (by cases w <;> exact hm), ?_, ?_, ?_, rfl⟩
    · rintro id rfl r hr
      rw [(beginPark_outstanding ..).1] at hr
      simpa using (List.mem_filter.1 hr).2
    · rintro n e rfl he
      show ((discard s g k (.store n)).core g.core).sb = _
      simp [discard, modCore_sb, he]
    · rintro id rfl
      refine ⟨(beginPark_outstanding ..).2, ?_⟩
      show ((discard s g k (.load id)).core g.core).sb = _
      simp [discard, modCore_sb]

/-- Settles O41: PARK_COMPLETE empties the slot and queues the loss, and each answer is evaluated under its hypotheses. -/
theorem parkAndStewardAnswersResult : Obligations.ParkAndStewardAnswersResult := ⟨parkCompleteResult, groupAnswersResult⟩

end Sys2Proof.Machine
end

section
/-! PROOFS. Memory byte by byte: what a recalled line, a folded pool line and a drained store leave. -/

namespace Sys2Proof.Machine

open Sys2Proof.Claims

/-! ## A line taken back from the caches (R323) -/

theorem State.byte_congr {s t : State} (h : t.mem = s.mem) (a : Nat) : t.byte a = s.byte a := by
  simp only [State.byte, h]

theorem OnlyTranslated.byte {s t : State} (h : OnlyTranslated s t) (a : Nat) : t.byte a = s.byte a := State.byte_congr h.mem a

theorem OnlyTranslated.cohByte {s t : State} (h : OnlyTranslated s t) (a : Nat) : t.cohByte a = s.cohByte a := by
  obtain ⟨_, _, _, _, _, _, _, _, _, _, _, rfl, -⟩ := h; rfl

/-- From `s` to `t` nothing but memory, the copies of lines, their messages and directory entries, and the spins on them. -/
def OnlyRecalled (s t : State) : Prop :=
  ∃ mem cores groups net dir clock, t = { s with
    mem := mem, cores := cores, groups := groups, net := net, dir := dir, dirClock := clock }

theorem OnlyRecalled.refl (s : State) : OnlyRecalled s s := ⟨_, _, _, _, _, _, rfl⟩

theorem OnlyRecalled.trans {a b c : State} (h : OnlyRecalled a b) (h' : OnlyRecalled b c) : OnlyRecalled a c := by
  obtain ⟨_, _, _, _, _, _, rfl⟩ := h
  obtain ⟨_, _, _, _, _, _, rfl⟩ := h'
  exact ⟨_, _, _, _, _, _, rfl⟩

theorem OnlyRecalled.slices {s t : State} (h : OnlyRecalled s t) : t.slices = s.slices := by
  obtain ⟨_, _, _, _, _, _, rfl⟩ := h; rfl

theorem OnlyRecalled.slice {s t : State} (h : OnlyRecalled s t) (n : Nat) : t.slice n = s.slice n := by
  simp only [State.slice, h.slices]

theorem OnlyRecalled.homeOf {s t : State} (h : OnlyRecalled s t) (pa : Nat) : t.homeOf pa = s.homeOf pa := by
  obtain ⟨_, _, _, _, _, _, rfl⟩ := h
  exact homeOf_congr rfl rfl rfl rfl pa

theorem dropCopy_only (l : Nat) (s : State) (c : Nat) : OnlyRecalled s (dropCopy l s c) := by
  unfold dropCopy
  split
  · exact .refl s
  · exact ⟨_, _, _, _, _, _, rfl⟩

theorem foldl_only {α : Type} {f : State → α → State} (hf : ∀ s a, OnlyRecalled s (f s a)) (l : List α) (s : State) :
    OnlyRecalled s (l.foldl f s) := by
  induction l generalizing s with
  | nil => exact .refl s
  | cons a l ih => exact (hf s a).trans (ih _)

theorem recallLine_only (s : State) (l : Nat) : OnlyRecalled s (recallLine s l) := by
  unfold recallLine
  split
  · dsimp only
    split
    · exact ⟨_, _, _, _, _, _, rfl⟩
    · refine OnlyRecalled.trans (b := (s.cores.map (·.1)).foldl (dropCopy l)
        { s with mem := putBytes s.mem (128 * l) ((List.range 128).map (lineByte (s.cohLine l))) }) ?_ ⟨_, _, _, _, _, _, rfl⟩
      exact OnlyRecalled.trans ⟨_, _, _, _, _, _, rfl⟩ (foldl_only (dropCopy_only l) _ _)
  · exact .refl s

theorem recallLine_mem (s : State) (l : Nat) : (recallLine s l).mem =
    if s.lineShared l then putBytes s.mem (128 * l) ((List.range 128).map (lineByte (s.cohLine l))) else s.mem := by
  unfold recallLine
  by_cases h : s.lineShared l = true
  · simp only [h, if_true]
    split
    · rfl
    · simp only [State.setDir, mem_foldl_dropCopy]
  · simp only [h, if_false, Bool.false_eq_true]

/-- A recalled line reads at its home as the caches held it; other lines are as before. -/
theorem recallLine_byte (s : State) (l a : Nat) : (recallLine s l).byte a = if lineNo a = l then s.cohByte a else s.byte a := by
  have hline : lineNo a = l ↔ 128 * l ≤ a ∧ a < 128 * l + 128 := by unfold lineNo; omega
  unfold State.byte State.cohByte
  rw [recallLine_mem]
  by_cases hl : lineNo a = l
  · subst hl
    by_cases hs : s.lineShared (lineNo a) = true
    · obtain ⟨hlo, hhi⟩ := hline.1 rfl
      have hidx : a - 128 * lineNo a = a % 128 := by unfold lineNo; omega
      have hlt : a % 128 < 128 := Nat.mod_lt _ (by omega)
      rw [if_pos hs, if_pos rfl, if_pos hs, tget_putBytes, if_pos (by simpa using ⟨hlo, hhi⟩), hidx]
      simp [hlt]
    · simp [hs, State.byte]
  · by_cases hs : s.lineShared l = true
    · rw [if_pos hs, if_neg hl, tget_putBytes, if_neg (by simpa [hline] using hl)]
    · rw [if_neg hs, if_neg hl]

/-! ## Committed pool lines folded into their home -/

theorem tget_foldl_tset {α : Type} (l : List α) (f : α → Nat) (b : α → Byte) (m : List Host.Cell) {n : Nat} (h : ∀ x ∈ l, f x ≠ n) :
    tget 0 (l.foldl (fun m x => tset 0 m (f x) (b x)) m) n = tget 0 m n := by
  induction l generalizing m with
  | nil => rfl
  | cons x l ih =>
    rw [List.foldl_cons, ih _ fun y hy => h y (List.mem_cons_of_mem _ hy), tget_tset_other _ _ _ (h x List.mem_cons_self).symm]

theorem foldOne_byte_other (s : State) (p : PoolLine) {a : Nat} (h : lineNo a ≠ p.line) : (foldOne s p).byte a = s.byte a := by
  have hfold : (foldOne s p).byte a = (recallLine s p.line).byte a := by
    refine tget_foldl_tset _ _ _ _ fun i hi => ?_
    have hlt : i < 128 := List.mem_range.1 (List.mem_filter.1 hi).1
    unfold lineNo at h
    omega
  rw [hfold, recallLine_byte, if_neg h]

theorem mem_newestFirst {ps : List PoolLine} {p : PoolLine} : p ∈ newestFirst ps ↔ p ∈ ps := by
  induction ps with
  | nil => simp [newestFirst]
  | cons q ps ih =>
    rw [List.mem_cons, ← ih]
    show p ∈ (newestFirst ps).takeWhile (fun x => decide (q.seq < x.seq)) ++ q :: (newestFirst ps).dropWhile _ ↔ _
    rw [List.mem_append, List.mem_cons, or_left_comm, ← List.mem_append, List.takeWhile_append_dropWhile]

theorem foldl_foldOne_byte_other {ps : List PoolLine} {a : Nat} (h : ∀ p ∈ ps, lineNo a ≠ p.line) (s : State) :
    (ps.foldl foldOne s).byte a = s.byte a := by
  induction ps generalizing s with
  | nil => rfl
  | cons p ps ih =>
    rw [List.foldl_cons, ih fun q hq => h q (List.mem_cons_of_mem _ hq), foldOne_byte_other s p (h p List.mem_cons_self)]

theorem foldCommitted_byte_other (s : State) (h l : Nat) {a : Nat} (hl : lineNo a ≠ l) : (foldCommitted s h l).byte a = s.byte a := by
  have hfold : ∀ q : PoolLine → Bool, ((newestFirst ((s.slice h).pool.filter fun p => decide (p.line = l) && q p)).reverse.foldl
      foldOne s).byte a = s.byte a := fun q => by
    refine foldl_foldOne_byte_other (fun p hp => ?_) s
    have hmem := (List.mem_filter.1 (mem_newestFirst.1 (List.mem_reverse.1 hp))).2
    simp only [Bool.and_eq_true, decide_eq_true_eq] at hmem
    exact hmem.1 ▸ hl
  unfold foldCommitted
  dsimp only
  split
  · exact hfold _
  · exact (State.byte_congr (mem_sweepEpochs _) a).trans (hfold _)

/-- A line that no pool line covers has nothing to fold. -/
theorem foldCommitted_of_free {s : State} {h l : Nat} (hfree : ∀ p ∈ (s.slice h).pool, p.line ≠ l) : foldCommitted s h l = s := by
  have hnone : ∀ q : PoolLine → Bool, (s.slice h).pool.filter (fun p => decide (p.line = l) && q p) = [] := by
    intro q
    simpa using fun p hp he => absurd he (hfree p hp)
  simp only [foldCommitted, hnone]
  rfl

/-! ## A store performed at its home -/

theorem refreshFlight_byte (s : State) (l a : Nat) : (refreshFlight s l).byte a = s.byte a := State.byte_congr (mem_refreshFlight s l) a

/-- Writes whose value is a function of the address: each address written reads as that value. -/
theorem tget_foldl_cells {l : List Host.Cell} {v : Nat → Byte} (h : ∀ c ∈ l, c.2 = v c.1) (m : List Host.Cell) (a : Nat) :
    tget 0 (l.foldl (fun m c => tset 0 m c.1 c.2) m) a = if ∃ c ∈ l, c.1 = a then v a else tget 0 m a := by
  induction l using List.reverseRecOn with
  | nil => simp
  | append_singleton l c ih =>
    rw [List.foldl_concat]
    by_cases hc : c.1 = a
    · subst hc
      rw [tget_tset_self, if_pos ⟨c, by simp, rfl⟩, h c (by simp)]
    · rw [tget_tset_other _ _ _ (Ne.symm hc), ih fun x hx => h x (by simp [hx])]
      simp [hc]

theorem tget_entryBytes (e : SbEntry) (m : List Host.Cell) (a : Nat) :
    tget 0 ((entryBytes e).foldl (fun m c => tset 0 m c.1 c.2) m) a =
      if lineNo a = e.line ∧ e.mask.getLsbD (a % 128) = true then lineByte e.data (a % 128) else tget 0 m a := by
  have hval : ∀ c ∈ entryBytes e, c.2 = lineByte e.data (c.1 % 128) := by
    rintro c hc
    obtain ⟨i, hi, rfl⟩ := List.mem_map.1 hc
    have hlt : i < 128 := List.mem_range.1 (List.mem_filter.1 hi).1
    rw [Nat.mul_add_mod, Nat.mod_eq_of_lt hlt]
  have hkey : (∃ c ∈ entryBytes e, c.1 = a) ↔ lineNo a = e.line ∧ e.mask.getLsbD (a % 128) = true := by
    simp only [entryBytes, List.mem_map, List.mem_filter, List.mem_range]
    constructor
    · rintro ⟨c, ⟨i, ⟨hlt, hm⟩, rfl⟩, rfl⟩
      rw [Nat.mul_add_mod, Nat.mod_eq_of_lt hlt]
      exact ⟨by unfold lineNo; omega, hm⟩
    · rintro ⟨hline, hm⟩
      exact ⟨_, ⟨a % 128, ⟨Nat.mod_lt _ (by omega), hm⟩, rfl⟩, by unfold lineNo at hline; omega⟩
  rw [tget_foldl_cells (v := fun a => lineByte e.data (a % 128)) hval]
  simp only [hkey]

theorem OnlyTranslated.pool {s t : State} (h : OnlyTranslated s t) (n : Nat) : (t.slice n).pool = (s.slice n).pool := by
  obtain ⟨_, _, _, _, _, _, _, _, _, _, _, rfl, hs⟩ := h
  obtain ⟨_, _, e⟩ := hs n
  show (tget Slice.reset _ n).pool = _
  rw [e]; rfl

theorem OnlyTranslated.homeOf {s t : State} (h : OnlyTranslated s t) (pa : Nat) : t.homeOf pa = s.homeOf pa := by
  obtain ⟨_, _, _, _, _, _, _, _, _, _, _, rfl, -⟩ := h
  exact homeOf_congr rfl rfl rfl rfl pa

theorem pool_of_not_held {s : State} {l : Nat} (h : s.isHeld (128 * l) = false) : ∀ p ∈ (s.slice (s.homeOf (128 * l))).pool, p.line ≠ l := by
  have hl : lineNo (128 * l) = l := by unfold lineNo; omega
  simpa [State.isHeld, State.poolOf, hl] using h

/-- A store performed at a home whose line no pool line covers: its own bytes, the coherent view of the rest of its line, and
every other line as before. -/
theorem entryWrite_byte {s : State} {e : SbEntry} (hfree : s.isHeld (128 * e.line) = false) (a : Nat) :
    (entryWrite s e).byte a = if lineNo a = e.line ∧ e.mask.getLsbD (a % 128) = true then lineByte e.data (a % 128)
      else if lineNo a = e.line then s.cohByte a else s.byte a := by
  have hhome := homeWrite_only s .core e.attr.toNat (entryAddr e) (entryBytes e).length
  unfold entryWrite
  generalize homeWrite s .core e.attr.toNat (entryAddr e) (entryBytes e).length = u at hhome ⊢
  have hrec := recallLine_only u e.line
  have hnone : ∀ p ∈ ((recallLine u e.line).slice ((recallLine u e.line).homeOf (128 * e.line))).pool, p.line ≠ e.line := by
    rw [hrec.homeOf, hrec.slice, hhome.homeOf, hhome.pool]
    exact pool_of_not_held hfree
  dsimp only
  rw [foldCommitted_of_free hnone, refreshFlight_byte]
  refine (tget_entryBytes e (recallLine u e.line).mem a).trans ?_
  rw [← hhome.cohByte, ← hhome.byte, ← recallLine_byte]
  rfl

/-! ## Store drains -/

section
variable {c i : Nat} {s : State} {e : SbEntry}

theorem execStoreDrain_drainable (he : nth? (s.core c).sb i = some e) (hd : drainable s c i e = true) :
    exec (.storeDrain c i) s = .next (performEntry s c i e) := by
  show execStoreDrain c i s = _
  simp only [execStoreDrain, he, hd, if_true]

theorem lineNo_entryAddr (e : SbEntry) : lineNo (entryAddr e) = e.line := by
  have hlt : ((List.range 128).find? fun i => e.mask.getLsbD i).getD 0 < 128 := by
    cases hf : (List.range 128).find? fun i => e.mask.getLsbD i with
    | none => simp
    | some j => exact List.mem_range.1 (List.mem_of_find?_eq_some hf)
  unfold entryAddr lineNo
  omega

theorem isHeld_entryAddr (s : State) (e : SbEntry) : s.isHeld (entryAddr e) = s.isHeld (128 * e.line) := by
  have hhome : s.homeOf (128 * e.line) = s.homeOf (entryAddr e) := by rw [← homeOf_line s (entryAddr e), lineNo_entryAddr]
  have hl : lineNo (128 * e.line) = e.line := by unfold lineNo; omega
  simp only [State.isHeld, State.poolOf, hhome, lineNo_entryAddr, hl]

theorem dropEntry_byte (s : State) (c i a : Nat) : (dropEntry s c i).byte a = s.byte a := rfl

theorem dropEntry_sb (s : State) (c i : Nat) : ((dropEntry s c i).core c).sb = dropNth (s.core c).sb i := by
  unfold dropEntry
  rw [modCore_sb]

theorem awaitAck_byte (s : State) (c : Nat) (e : SbEntry) (a : Nat) : (awaitAck s c e).byte a = s.byte a := by
  unfold awaitAck State.modGroup
  split <;> rfl

theorem awaitAck_core (s : State) (c c' : Nat) (e : SbEntry) : (awaitAck s c e).core c' = s.core c' := by
  unfold awaitAck State.modGroup
  split <;> rfl

/-- A store outside any epoch to a line that is idle and that the L1 need not own goes to its home (R306). -/
theorem performEntry_through (h : WritesThrough s e) : performEntry s c i e = dropEntry (entryWrite s e) c i ∨
    performEntry s c i e = awaitAck (dropEntry (entryWrite s e) c i) c e := by
  obtain ⟨hhome, hstorage, hplain, hfree, hidle, hown⟩ := h
  have hclaim : claimLine s e.line true = (s, true) := by rw [claimLine, hidle, if_pos rfl]
  unfold performEntry
  dsimp only
  rw [if_neg (not_not.2 hhome)]
  obtain ⟨g, q, hp⟩ | ⟨g, d, v, hp⟩ | ⟨g, o, hp⟩ := hstorage
  · have hattr : ¬e.attr = 0#3 := hown.resolve_left fun ⟨_, _, hb⟩ => by simp [hp] at hb
    simp [hp, hplain, hattr, hclaim]
  · have hattr : ¬e.attr = 0#3 := hown.resolve_left fun ⟨_, _, hb⟩ => by simp [hp] at hb
    simp [hp, hplain, hattr, hclaim]
  · simp [hp, hplain, hclaim]

theorem performEntry_through_byte (h : WritesThrough s e) (a : Nat) : (performEntry s c i e).byte a =
    if lineNo a = e.line ∧ e.mask.getLsbD (a % 128) = true then lineByte e.data (a % 128)
    else if lineNo a = e.line then s.cohByte a else s.byte a := by
  rw [← entryWrite_byte h.free]
  obtain ht | ht := performEntry_through (c := c) (i := i) h
  · rw [ht, dropEntry_byte]
  · rw [ht, awaitAck_byte, dropEntry_byte]

end

/-! The store buffers stand when a line goes home. -/

theorem modCore_sb_of (s : State) (c c' : Nat) {f : Core → Core} (hf : ∀ k, (f k).sb = k.sb) :
    ((s.modCore c f).core c').sb = (s.core c').sb := by
  by_cases h : c' = c
  · subst h
    rw [modCore_sb, hf]
  · rw [State.modCore, State.core_setCore_other _ _ h]

theorem wakeSpins_core (s : State) (c l c' : Nat) : (wakeSpins s c l).core c' = s.core c' := rfl

theorem dropCopy_sb (l : Nat) (s : State) (c c' : Nat) : ((dropCopy l s c).core c').sb = (s.core c').sb := by
  unfold dropCopy
  split
  · rfl
  · rw [wakeSpins_core]
    exact modCore_sb_of s c c' fun _ => rfl

theorem recallLine_sb (s : State) (l c : Nat) : ((recallLine s l).core c).sb = (s.core c).sb := by
  unfold recallLine
  split
  · dsimp only
    split
    · rfl
    · exact foldl_keeps (p := fun s : State => (s.core c).sb) (fun s a => dropCopy_sb l s a c) _ _
  · rfl

theorem foldOne_sb (s : State) (p : PoolLine) (c : Nat) : ((foldOne s p).core c).sb = (s.core c).sb := recallLine_sb s p.line c

theorem foldCommitted_sb (s : State) (h l c : Nat) : ((foldCommitted s h l).core c).sb = (s.core c).sb := by
  have hfold := fun ps => foldl_keeps (p := fun s : State => (s.core c).sb) (fun s p => foldOne_sb s p c) ps s
  unfold foldCommitted
  dsimp only
  split <;> exact hfold _

/-- A change of every core that keeps its store buffer. -/
theorem tget_tmap_sb {f : Nat → Core → Core} (hf : ∀ n k, (f n k).sb = k.sb) (t : Table Core) (c : Nat) :
    (tget Core.reset (tmap f t) c).sb = (tget Core.reset t c).sb := by
  simp only [tget, tfind_tmap]
  cases tfind t c with
  | none => rfl
  | some k => exact hf c k

theorem refreshFlight_sb (s : State) (l c : Nat) : ((refreshFlight s l).core c).sb = (s.core c).sb := by
  unfold refreshFlight
  split
  · refine (foldl_keeps (p := fun s : State => (s.core c).sb) (fun s (e : Nat × Core) => congrArg Core.sb (wakeSpins_core s e.1 l c))
      _ _).trans ?_
    unfold State.core
    dsimp only
    refine tget_tmap_sb ?_ s.cores c
    exact fun _ _ => rfl
  · rfl

theorem entryWrite_sb (s : State) (e : SbEntry) (c : Nat) : ((entryWrite s e).core c).sb = (s.core c).sb := by
  have hhome := homeWrite_only s .core e.attr.toNat (entryAddr e) (entryBytes e).length
  unfold entryWrite
  generalize homeWrite s .core e.attr.toNat (entryAddr e) (entryBytes e).length = u at hhome ⊢
  dsimp only
  rw [refreshFlight_sb]
  show ((foldCommitted (recallLine u e.line) ((recallLine u e.line).homeOf (128 * e.line)) e.line).core c).sb = _
  rw [foldCommitted_sb, recallLine_sb, State.core, State.core, hhome.cores]

/-- Settles O5: the drain is `entryWrite` and the entry's removal, and `entryWrite_byte` gives every byte. -/
theorem storeDrainWritesExactlyItsBytes : Obligations.StoreDrainWritesExactlyItsBytes := by
  unfold Obligations.StoreDrainWritesExactlyItsBytes
  intro c i s e he hd hw
  have hbyte := performEntry_through_byte (c := c) (i := i) hw
  have hin : ∀ j < 128, lineNo (128 * e.line + j) = e.line ∧ (128 * e.line + j) % 128 = j := fun j hj => by unfold lineNo; omega
  refine ⟨_, execStoreDrain_drainable he hd, fun j hj hm => ?_, fun j hj hm => ?_, fun a ha => ?_, ?_⟩
  · obtain ⟨hl, hr⟩ := hin j hj
    rw [hbyte, hl, hr, if_pos ⟨rfl, hm⟩]
  · obtain ⟨hl, hr⟩ := hin j hj
    rw [hbyte, hl, hr, if_neg (by simp [hm]), if_pos rfl]
  · rw [hbyte, if_neg (fun h => ha h.1), if_neg ha]
  · obtain ht | ht := performEntry_through (c := c) (i := i) hw
    · rw [ht, dropEntry_sb, entryWrite_sb]
    · rw [ht, awaitAck_core, dropEntry_sb, entryWrite_sb]

/-! The end points of a drain. -/

section
variable {c i : Nat} {s : State} {e : SbEntry}

theorem performEntry_refused (h : s.homeStatus (entryAddr e) ≠ 0) :
    performEntry s c i e = storeFault s c i e (s.homeStatus (entryAddr e)) := by
  simp only [performEntry, ne_eq, h, not_false_eq_true, if_true]

/-- A store to a plain cacheable line whose home takes it is performed in the L1. -/
theorem performEntry_cached (hhome : s.homeStatus (entryAddr e) = 0) (hplain : e.epoch = none) (hheld : s.isHeld (entryAddr e) = false)
    (hattr : e.attr = 0)
    (hplace : (∃ h q, s.placeOf (entryAddr e) = .hbm h q) ∨ ∃ h d v, s.placeOf (entryAddr e) = .cellar h d v) :
    performEntry s c i e = match tfind (s.core c).l1 e.line with
      | some y =>
        if y.dirtyOwner then wakeSpins (dropEntry (s.modCore c fun k =>
          { k with l1 := tput k.l1 e.line { y with st := .m, data := merged e y.data } }) c i) c e.line
        else requestLine s c e.line true false
      | none => requestLine s c e.line true false := by
  unfold performEntry
  dsimp only
  rw [if_neg (not_not.2 hhome)]
  obtain ⟨h, q, hp⟩ | ⟨h, d, v, hp⟩ := hplace <;> simp [hp, hplain, hheld, hattr, merged] <;> rfl

theorem performEntry_doorbell {n qi : Nat} {q : Queue} (hhome : s.homeStatus (entryAddr e) = 0)
    (hplace : s.placeOf (entryAddr e) = .doorbell n 0) (hq : (s.queues.find? fun x => decide (x.2.slot = some n)) = some (qi, q))
    (hsize : e.size = 8) (hctx : q.ctx = e.ctx) : performEntry s c i e = announceTail (dropEntry s c i) qi (entryWord e) := by
  simp [performEntry, hhome, hplace, hq, hsize, hctx]

theorem performEntry_egress {off : Nat} (hhome : s.homeStatus (entryAddr e) = 0) (hplace : s.placeOf (entryAddr e) = .egress off)
    (hoff : off % 65536 < 0x8000) : performEntry s c i e =
      queueEvent (dropEntry s c i) (off / 65536) false (off % 65536 / 128) (postPayload e) := by
  simp [performEntry, hhome, hplace, hoff]

theorem performEntry_epochPage {x off : Nat} (hhome : s.homeStatus (entryAddr e) = 0)
    (hplace : s.placeOf (entryAddr e) = .epochPage x off) : performEntry s c i e =
      { dropEntry s c i with epochQ := tput s.epochQ (s.ctxPart x) ((tget [] s.epochQ (s.ctxPart x)) ++
        [{ ctx := x, offset := off, size := e.size, word := w64 (entryWord e) }]) } := by
  simp only [performEntry, hhome, hplace, ne_eq, not_true_eq_false, if_false]

/-- The L1 line, the store buffer and memory after a store is performed in the L1. -/
theorem cachedStore_result {y : L1Line} {t : State} (ht : t = wakeSpins (dropEntry (s.modCore c fun k =>
      { k with l1 := tput k.l1 e.line y }) c i) c e.line) :
    t.mem = s.mem ∧ (t.core c).sb = dropNth (s.core c).sb i ∧ tfind (t.core c).l1 e.line = some y ∧
      ∀ l, l ≠ e.line → tfind (t.core c).l1 l = tfind (s.core c).l1 l := by
  subst ht
  rw [mem_wakeSpins, wakeSpins_core, dropEntry, modCore_sb, modCore_sb]
  exact ⟨rfl, rfl, tfind_tput_self _ _ _, fun l hl => tfind_tput_other _ _ hl⟩

end

/-- Settles O4, by the end point of the entry's address. -/
theorem storeDrainResult : Obligations.StoreDrainResult := by
  unfold Obligations.StoreDrainResult
  intro c i s e he hd
  rw [execStoreDrain_drainable he hd]
  refine ⟨fun h => by rw [performEntry_refused h], fun hhome => ⟨fun hplain hheld hattr hplace => ⟨fun y hy ho => ?_, fun hno => ?_⟩,
    fun n hp qi q hq hsize hctx => by rw [performEntry_doorbell hhome hp hq hsize hctx],
    fun off hp hoff => by rw [performEntry_egress hhome hp hoff], fun x off hp => ?_⟩⟩
  · rw [performEntry_cached hhome hplain hheld hattr hplace, hy]
    simp only [ho, if_true]
    exact ⟨_, rfl, cachedStore_result rfl⟩
  · rw [performEntry_cached hhome hplain hheld hattr hplace]
    cases hy : tfind (s.core c).l1 e.line with
    | none => rfl
    | some y => simp only [hno y hy, Bool.false_eq_true, if_false]
  · rw [performEntry_epochPage hhome hp]
    refine ⟨_, rfl, rfl, ?_⟩
    simp [tget, tfind_tput_self]

end Sys2Proof.Machine
end

section
/-! PROOFS. The granary: what a read in an epoch sees, what a fold leaves. -/

namespace Sys2Proof.Machine

open Sys2Proof.Claims

/-! ## The newest pool line -/

theorem newestFirst_falling (ps : List PoolLine) : (newestFirst ps).Pairwise fun a b => b.seq ≤ a.seq := by
  induction ps with
  | nil => exact List.Pairwise.nil
  | cons p ps ih =>
    show (((newestFirst ps).takeWhile fun q => decide (p.seq < q.seq)) ++ p :: (newestFirst ps).dropWhile _).Pairwise _
    generalize newestFirst ps = l at ih
    induction l with
    | nil => simp
    | cons q l ihl =>
      obtain ⟨hq, hl⟩ := List.pairwise_cons.1 ih
      by_cases hlt : p.seq < q.seq
      · simp only [hlt, List.takeWhile_cons, List.dropWhile_cons, decide_true, if_true, List.cons_append]
        refine List.pairwise_cons.2 ⟨fun x hx => ?_, ihl hl⟩
        rw [List.mem_append, List.mem_cons, or_left_comm, ← List.mem_append, List.takeWhile_append_dropWhile] at hx
        obtain rfl | hx := hx
        · exact Nat.le_of_lt hlt
        · exact hq x hx
      · simp only [hlt, List.takeWhile_cons, List.dropWhile_cons, decide_false, Bool.false_eq_true, if_false, List.nil_append]
        refine List.pairwise_cons.2 ⟨fun x hx => ?_, ih⟩
        obtain rfl | hx := List.mem_cons.1 hx
        · exact Nat.not_lt.1 hlt
        · exact (hq x hx).trans (Nat.not_lt.1 hlt)

/-- A search of the lines, newest first, finds the newest that qualifies. -/
theorem find?_newestFirst {ps : List PoolLine} {ok : PoolLine → Bool} {p : PoolLine} (hp : p ∈ ps) (hok : ok p = true)
    (hnew : ∀ r ∈ ps, ok r = true → r = p ∨ r.seq < p.seq) : (newestFirst ps).find? ok = some p := by
  obtain ⟨x, hx⟩ := Option.isSome_iff_exists.1 (List.find?_isSome.2 ⟨p, mem_newestFirst.2 hp, hok⟩)
  obtain ⟨hxok, before, after, hsplit, hbefore⟩ := List.find?_eq_some_iff_append.1 hx
  rw [hx]
  congr 1
  refine (hnew x (mem_newestFirst.1 (List.mem_of_find?_eq_some hx)) hxok).resolve_right fun hlt => ?_
  have hmem : p ∈ before ++ x :: after := hsplit ▸ mem_newestFirst.2 hp
  have hfall := newestFirst_falling ps
  rw [hsplit] at hfall
  obtain hb | ha := List.mem_append.1 hmem
  · simpa [hok] using hbefore p hb
  · obtain rfl | ha := List.mem_cons.1 ha
    · omega
    · have := List.rel_of_pairwise_cons (List.pairwise_append.1 hfall).2.1 ha
      omega

/-! ## What a read in an epoch sees (R250, R256) -/

/-- The pool lines of an address that qualify, newest first. -/
def newestOf (s : State) (pa : Nat) (q : PoolLine → Bool) : List PoolLine := newestFirst ((s.poolOf pa).filter q)

theorem find?_newestOf {s : State} {pa : Nat} {Q : PoolLine → Prop} {q : PoolLine → Bool} (hq : ∀ p, q p = true ↔ Q p) {p : PoolLine}
    (h : Newest s pa Q p) : (newestOf s pa q).find? (fun p => p.mask.getLsbD (pa % 128)) = some p := by
  obtain ⟨hmem, hQ, hmask, hnew⟩ := h
  refine find?_newestFirst (List.mem_filter.2 ⟨hmem, (hq p).2 hQ⟩) hmask fun r hr hrm => ?_
  obtain ⟨hrm', hrq⟩ := List.mem_filter.1 hr
  exact hnew r hrm' ((hq r).1 hrq) hrm

theorem find?_newestOf_none {s : State} {pa : Nat} {Q : PoolLine → Prop} {q : PoolLine → Bool} (hq : ∀ p, q p = true ↔ Q p)
    (h : NoneHolds s pa Q) : (newestOf s pa q).find? (fun p => p.mask.getLsbD (pa % 128)) = none := by
  refine List.find?_eq_none.2 fun r hr => ?_
  obtain ⟨hrm, hrq⟩ := List.mem_filter.1 (mem_newestFirst.1 hr)
  simp [h r hrm ((hq r).1 hrq)]

def heldBy (n : Nat) (p : PoolLine) : Bool := decide (p.tag = .held n)

def isCommitted (p : PoolLine) : Bool :=
  match p.tag with
  | .committed _ => true
  | _ => false

theorem heldBy_iff (n : Nat) (p : PoolLine) : heldBy n p = true ↔ p.tag = .held n := decide_eq_true_iff

theorem isCommitted_iff (p : PoolLine) : isCommitted p = true ↔ TaggedCommitted p := by
  unfold isCommitted TaggedCommitted
  cases p.tag <;> simp

theorem viewOpen_iff (s : State) (pa n : Nat) : s.viewOpen n (s.homeOf pa) = true ↔ Shown s pa n := by
  unfold State.viewOpen Shown
  cases (s.epoch n).cmd <;> simp

theorem viewOf_plain (s : State) (pa : Nat) : s.viewOf pa none = newestOf s pa isCommitted := rfl

/-- The pool lines of an epoch's parent, where it is a child. -/
def parentLines (s : State) (pa n : Nat) : List PoolLine :=
  match (s.epoch n).parent with
  | none => []
  | some q => newestOf s pa (heldBy (n / 64 * 64 + q))

theorem viewOf_shown {s : State} {pa n : Nat} (h : Shown s pa n) :
    s.viewOf pa (some n) = newestOf s pa (heldBy n) ++ (parentLines s pa n ++ s.viewOf pa none) := by
  rw [← List.append_assoc]
  simp only [State.viewOf, (viewOpen_iff s pa n).2 h, if_true, List.nil_append]
  rfl

theorem viewOf_not_shown {s : State} {pa n : Nat} (h : ¬Shown s pa n) : s.viewOf pa (some n) = s.viewOf pa none := by
  have hclosed : s.viewOpen n (s.homeOf pa) = false := Bool.eq_false_iff.2 fun ho => h ((viewOpen_iff s pa n).1 ho)
  simp only [State.viewOf, hclosed, Bool.false_eq_true, if_false, List.nil_append]

theorem readByte_of_find {s : State} {pa : Nat} {e : Option Nat} {p : PoolLine}
    (h : (s.viewOf pa e).find? (fun p => p.mask.getLsbD (pa % 128)) = some p) : s.readByte e pa = lineByte p.data (pa % 128) := by
  simp only [State.readByte, h]

/-- Settles O33: the view of a read is a list of the pool's lines, newest first, in the order of the statement. -/
theorem epochReadSees : Obligations.EpochReadSees := by
  unfold Obligations.EpochReadSees
  intro s pa n
  refine ⟨fun hs => ⟨fun p hp => readByte_of_find ?_, fun hown => ⟨fun q p hq hp => readByte_of_find ?_, fun hparent => ?_⟩⟩,
    fun hs => ?_, fun p hp => readByte_of_find ?_, fun hno => ?_⟩
  · rw [viewOf_shown hs, List.find?_append, find?_newestOf (heldBy_iff n) hp]
    rfl
  · rw [viewOf_shown hs, List.find?_append, find?_newestOf_none (heldBy_iff n) hown, Option.none_or, List.find?_append, parentLines, hq]
    dsimp only
    rw [find?_newestOf (heldBy_iff _) hp]
    rfl
  · have hnone : (parentLines s pa n).find? (fun p => p.mask.getLsbD (pa % 128)) = none := by
      unfold parentLines
      split
      · rfl
      · exact find?_newestOf_none (heldBy_iff _) (hparent _ ‹_›)
    simp only [State.readByte, viewOf_shown hs, List.find?_append, find?_newestOf_none (heldBy_iff n) hown, hnone, Option.none_or]
  · simp only [State.readByte, viewOf_not_shown hs]
  · rw [viewOf_plain, find?_newestOf isCommitted_iff hp]
  · simp only [State.readByte, viewOf_plain, find?_newestOf_none isCommitted_iff hno]

/-! ## Folding (R251, R259) -/

theorem OnlyRecalled.poison {s t : State} (h : OnlyRecalled s t) : t.poison = s.poison := by
  obtain ⟨_, _, _, _, _, _, rfl⟩ := h; rfl

theorem foldOne_slices (s : State) (p : PoolLine) : (foldOne s p).slices = s.slices := (recallLine_only s p.line).slices

theorem foldOne_poison (s : State) (p : PoolLine) : (foldOne s p).poison = foldPoison s.poison p := by
  rw [← (recallLine_only s p.line).poison]; rfl

/-- The groups keep their slots. -/
def slotsOf (s : State) : List Nat := s.groups.map (·.1)

theorem wakeSpins_slots (s : State) (c l : Nat) : slotsOf (wakeSpins s c l) = slotsOf s := by
  simp [slotsOf, wakeSpins, tmap, Function.comp_def]

theorem dropCopy_slots (l : Nat) (s : State) (c : Nat) : slotsOf (dropCopy l s c) = slotsOf s := by
  unfold dropCopy
  split
  · rfl
  · rw [wakeSpins_slots]; rfl

theorem recallLine_slots (s : State) (l : Nat) : slotsOf (recallLine s l) = slotsOf s := by
  unfold recallLine
  split
  · dsimp only
    split
    · rfl
    · exact foldl_keeps (p := slotsOf) (dropCopy_slots l) _ _
  · rfl

theorem foldOne_slots (s : State) (p : PoolLine) : slotsOf (foldOne s p) = slotsOf s := recallLine_slots s p.line

theorem foldl_foldOne_slice (ps : List PoolLine) (s : State) (h : Nat) : (ps.foldl foldOne s).slice h = s.slice h :=
  foldl_keeps (p := fun s : State => s.slice h) (fun s p => congrArg (tget Slice.reset · h) (foldOne_slices s p)) ps s

/-- The committed pool lines of a line. -/
def committedAt (l : Nat) (p : PoolLine) : Bool := decide (p.line = l) && isCommitted p

/-- The lines that a fold of line `l` writes, oldest first. -/
def toFold (s : State) (h l : Nat) : List PoolLine := (newestFirst ((s.slice h).pool.filter (committedAt l))).reverse

theorem mem_toFold {s : State} {h l : Nat} {p : PoolLine} : p ∈ toFold s h l ↔ p ∈ (s.slice h).pool ∧ committedAt l p = true := by
  rw [toFold, List.mem_reverse, mem_newestFirst, List.mem_filter]

theorem foldCommitted_eq (s : State) (h l : Nat) : foldCommitted s h l =
    if (toFold s h l).isEmpty then (toFold s h l).foldl foldOne s
    else sweepEpochs (((toFold s h l).foldl foldOne s).setSlice h { ((toFold s h l).foldl foldOne s).slice h with
      pool := (((toFold s h l).foldl foldOne s).slice h).pool.filter fun p => !committedAt l p }) := rfl

theorem sweepEpochs_slice (s : State) (h : Nat) : (sweepEpochs s).slice h = s.slice h := rfl

theorem foldCommitted_pool (s : State) (h l : Nat) :
    ((foldCommitted s h l).slice h).pool = (s.slice h).pool.filter fun p => !committedAt l p := by
  rw [foldCommitted_eq]
  split
  case isTrue hempty =>
    rw [foldl_foldOne_slice]
    refine (List.filter_eq_self.2 fun p hp => ?_).symm
    have hnot : p ∉ toFold s h l := by simp [List.isEmpty_iff.1 hempty]
    simpa [mem_toFold, hp] using hnot
  case isFalse =>
    rw [sweepEpochs_slice, State.slice, State.setSlice, tget_tset_self, foldl_foldOne_slice]

theorem foldCommitted_slots (s : State) (h l : Nat) : slotsOf (foldCommitted s h l) = slotsOf s := by
  have hfold := foldl_keeps (p := slotsOf) foldOne_slots (toFold s h l) s
  rw [foldCommitted_eq]
  split
  · exact hfold
  · exact hfold

theorem foldCommitted_poison (s : State) (h l : Nat) : (foldCommitted s h l).poison = (toFold s h l).foldl foldPoison s.poison := by
  have hfold : ∀ (ps : List PoolLine) (s : State), (ps.foldl foldOne s).poison = ps.foldl foldPoison s.poison := by
    intro ps
    induction ps with
    | nil => exact fun _ => rfl
    | cons p ps ih => exact fun s => (ih _).trans (by rw [foldOne_poison, List.foldl_cons])
  rw [foldCommitted_eq, ← hfold]
  split <;> rfl

theorem mem_addOnce {α : Type} [DecidableEq α] {x y : α} {l : List α} : y ∈ addOnce x l ↔ y = x ∨ y ∈ l := by
  unfold addOnce
  split
  · exact ⟨Or.inr, fun h => h.elim (fun e => e ▸ ‹_›) id⟩
  · rw [List.mem_append, List.mem_singleton, or_comm]

/-- A fold poisons the sectors of its line, and only when the pool line is poisoned. -/
theorem mem_foldPoison {ks : List Nat} {p : PoolLine} {k : Nat} (h : k ∈ foldPoison ks p) :
    k ∈ ks ∨ (p.poisoned = true ∧ k / 4 = p.line) := by
  unfold foldPoison at h
  have hin : ∀ j ∈ List.range 4, j < 4 := fun j hj => List.mem_range.1 hj
  generalize List.range 4 = js at h hin
  induction js generalizing ks with
  | nil => exact .inl h
  | cons j js ih =>
    rw [List.foldl_cons] at h
    refine (ih h fun i hi => hin i (List.mem_cons_of_mem _ hi)).elim (fun hk => ?_) .inr
    dsimp only at hk
    split at hk
    case isTrue hp =>
      obtain rfl | hk := mem_addOnce.1 hk
      · have hj := hin j List.mem_cons_self
        simp only [Bool.and_eq_true] at hp
        exact .inr ⟨hp.1, by omega⟩
      · exact .inl hk
    case isFalse =>
      split at hk
      · exact .inl (List.mem_filter.1 hk).1
      · exact .inl hk

theorem mem_foldl_foldPoison {ps : List PoolLine} {ks : List Nat} {k : Nat} (h : k ∈ ps.foldl foldPoison ks) :
    k ∈ ks ∨ ∃ p ∈ ps, p.poisoned = true ∧ k / 4 = p.line := by
  induction ps generalizing ks with
  | nil => exact .inl h
  | cons p ps ih =>
    obtain hk | ⟨q, hq, hkq⟩ := ih h
    · exact (mem_foldPoison hk).imp_right fun hkp => ⟨p, List.mem_cons_self, hkp⟩
    · exact .inr ⟨q, List.mem_cons_of_mem _ hq, hkq⟩

/-- The folds of a slice's lines, one after another. -/
def foldLines (h : Nat) (ls : List Nat) (s : State) : State := ls.foldl (fun s l => foldCommitted s h l) s

theorem foldLines_pool (h : Nat) (ls : List Nat) (s : State) :
    ((foldLines h ls s).slice h).pool = (s.slice h).pool.filter fun p => !(ls.contains p.line && isCommitted p) := by
  induction ls generalizing s with
  | nil => simp [foldLines]
  | cons l ls ih =>
    refine (ih _).trans ?_
    rw [foldCommitted_pool, List.filter_filter]
    refine List.filter_congr fun p _ => ?_
    rw [List.contains_cons, beq_eq_decide, committedAt]
    cases decide (p.line = l) <;> cases ls.contains p.line <;> cases isCommitted p <;> rfl

theorem foldLines_poison {h : Nat} {ls : List Nat} {s : State} {k : Nat} (hk : k ∈ (foldLines h ls s).poison) :
    k ∈ s.poison ∨ ∃ p ∈ (s.slice h).pool, p.poisoned = true ∧ k / 4 = p.line := by
  induction ls generalizing s with
  | nil => exact .inl hk
  | cons l ls ih =>
    obtain hk | ⟨p, hp, hkp⟩ := ih (s := foldCommitted s h l) hk
    · rw [foldCommitted_poison] at hk
      exact (mem_foldl_foldPoison hk).imp_right fun ⟨p, hp, hkp⟩ => ⟨p, (mem_toFold.1 hp).1, hkp⟩
    · rw [foldCommitted_pool] at hp
      exact .inr ⟨p, (List.mem_filter.1 hp).1, hkp⟩

/-- Settles O9: each line's fold takes its committed lines out of the pool, and the void ones go at the end. -/
theorem poolFoldKeepsHeldLines : Obligations.PoolFoldKeepsHeldLines := by
  unfold Obligations.PoolFoldKeepsHeldLines
  intro h s
  have hpool := foldLines_pool h (distinct ((s.slice h).pool.map (·.line))) s
  refine ⟨_, rfl, ?_, foldl_keeps (p := slotsOf) (fun s l => foldCommitted_slots s h l) _ s, fun k hk => foldLines_poison hk⟩
  rw [sweepEpochs_slice, State.slice, State.setSlice, tget_tset_self]
  show ((foldLines h _ s).slice h).pool.filter _ = _
  rw [hpool, List.filter_filter]
  refine List.filter_congr fun p hp => ?_
  have hin : (distinct ((s.slice h).pool.map (·.line))).contains p.line = true := by
    rw [List.contains_iff_mem, mem_distinct]
    exact List.mem_map_of_mem hp
  rw [hin, Bool.true_and, isCommitted, stillHeld]
  cases p.tag <;> rfl

end Sys2Proof.Machine
end

section
/-! PROOFS. The sieve's set operations on sorted inputs, and the leaf a walk ends in. -/

namespace Sys2Proof.Machine

open Sys2Proof.Claims

/-! ## Sorted sets (R208, R209) -/

/-- The keys of a merge. -/
def mergeKeys (fn n : Nat) (as : List (Nat × Nat)) (bs : List Nat) : List Nat := (mergeSets fn false false n as bs).map (·.1)

/-- Equal keys meet once, unless the operation is the difference. -/
theorem mergeKeys_same (fn n a i : Nat) (as : List (Nat × Nat)) (bs : List Nat) : mergeKeys fn (n + 1) ((a, i) :: as) (a :: bs) =
    if fn = 2 then mergeKeys fn n as bs else a :: mergeKeys fn n as bs := by
  unfold mergeKeys
  rw [mergeSets, if_pos rfl]
  split <;> rfl

/-- A key of A alone is kept, unless the operation is the intersection. -/
theorem mergeKeys_left (fn n i : Nat) {a b : Nat} (as : List (Nat × Nat)) (bs : List Nat) (h : a < b) :
    mergeKeys fn (n + 1) ((a, i) :: as) (b :: bs) =
      if fn = 0 then mergeKeys fn n as (b :: bs) else a :: mergeKeys fn n as (b :: bs) := by
  unfold mergeKeys
  rw [mergeSets, if_neg (Nat.ne_of_lt h), if_pos h]
  split <;> rfl

/-- A key of B alone is kept by the union alone. -/
theorem mergeKeys_right (fn n i : Nat) {a b : Nat} (as : List (Nat × Nat)) (bs : List Nat) (h : b < a) :
    mergeKeys fn (n + 1) ((a, i) :: as) (b :: bs) =
      if fn = 1 then b :: mergeKeys fn n ((a, i) :: as) bs else mergeKeys fn n ((a, i) :: as) bs := by
  unfold mergeKeys
  rw [mergeSets, if_neg (Nat.ne_of_gt h), if_neg (Nat.not_lt.2 (Nat.le_of_lt h))]
  split <;> rfl

/-- A key below every key of a sorted list is not in it. -/
theorem not_mem_of_lt_head {a b : Nat} {bs : List Nat} (hb : (b :: bs).Pairwise (· < ·)) (hlt : a < b) : a ∉ b :: bs := by
  intro h
  obtain rfl | h := List.mem_cons.1 h
  · omega
  · have := List.rel_of_pairwise_cons hb h
    omega

theorem filter_mem_cons_of_lt (p : Bool → Bool) {b : Nat} {as bs : List Nat} (h : ∀ x ∈ as, b < x) :
    as.filter (fun x => p (decide (x ∈ b :: bs))) = as.filter fun x => p (decide (x ∈ bs)) :=
  List.filter_congr fun x hx => by simp [Nat.ne_of_gt (h x hx)]

/-- Intersection (`fn` 0) and difference (`fn` 2): the keys of A whose membership in B is the one asked for. -/
theorem mergeKeys_filter {fn : Nat} {p : Bool → Bool} (hfn : fn = 0 ∧ p = id ∨ fn = 2 ∧ p = not) {n : Nat} {as : List (Nat × Nat)}
    {bs : List Nat} (ha : (as.map (·.1)).Pairwise (· < ·)) (hb : bs.Pairwise (· < ·)) (hn : as.length + bs.length < n) :
    mergeKeys fn n as bs = (as.map (·.1)).filter fun a => p (decide (a ∈ bs)) := by
  induction n generalizing as bs with
  | zero => omega
  | succ n ih =>
    match as, bs with
    | [], bs => obtain ⟨rfl, rfl⟩ | ⟨rfl, rfl⟩ := hfn <;> simp [mergeKeys, mergeSets]
    | (a, i) :: as, [] => obtain ⟨rfl, rfl⟩ | ⟨rfl, rfl⟩ := hfn <;> simp [mergeKeys, mergeSets]
    | (a, i) :: as, b :: bs =>
      obtain ⟨hlow, ha'⟩ := List.pairwise_cons.1 ha
      obtain ⟨_, hb'⟩ := List.pairwise_cons.1 hb
      simp only [List.length_cons] at hn ih
      obtain hlt | rfl | hgt := Nat.lt_trichotomy a b
      · have hout : decide (a ∈ b :: bs) = false := decide_eq_false (not_mem_of_lt_head hb hlt)
        rw [mergeKeys_left _ _ _ _ _ hlt, ih ha' hb (by simp only [List.length_cons]; omega), List.map_cons, List.filter_cons, hout]
        obtain ⟨rfl, rfl⟩ | ⟨rfl, rfl⟩ := hfn <;> rfl
      · rw [mergeKeys_same, ih ha' hb' (by omega), List.map_cons, List.filter_cons, filter_mem_cons_of_lt p hlow]
        obtain ⟨rfl, rfl⟩ | ⟨rfl, rfl⟩ := hfn <;> simp
      · have hall : ∀ x ∈ ((a, i) :: as).map (·.1), b < x := by
          rw [List.map_cons]
          exact fun x hx => (List.mem_cons.1 hx).elim (fun e => e ▸ hgt) fun hx => hgt.trans (hlow x hx)
        rw [mergeKeys_right _ _ _ _ _ hgt, ih ha hb' (by simp only [List.length_cons]; omega), filter_mem_cons_of_lt p hall]
        obtain ⟨rfl, _⟩ | ⟨rfl, _⟩ := hfn <;> rfl

theorem mem_mergeKeys_union {n : Nat} {as : List (Nat × Nat)} {bs : List Nat} (hn : as.length + bs.length < n) (x : Nat) :
    x ∈ mergeKeys 1 n as bs ↔ x ∈ as.map (·.1) ∨ x ∈ bs := by
  induction n generalizing as bs with
  | zero => omega
  | succ n ih =>
    match as, bs with
    | [], bs => simp [mergeKeys, mergeSets]
    | (a, i) :: as, [] => simp [mergeKeys, mergeSets]
    | (a, i) :: as, b :: bs =>
      simp only [List.length_cons] at hn ih
      rw [List.map_cons, List.mem_cons, List.mem_cons]
      obtain hlt | rfl | hgt := Nat.lt_trichotomy a b
      · rw [mergeKeys_left _ _ _ _ _ hlt, if_neg (by omega), List.mem_cons, ih (by simp only [List.length_cons]; omega), List.mem_cons]
        tauto
      · rw [mergeKeys_same, if_neg (by omega), List.mem_cons, ih (by omega)]
        tauto
      · rw [mergeKeys_right _ _ _ _ _ hgt, if_pos rfl, List.mem_cons, ih (by simp only [List.length_cons]; omega), List.map_cons,
          List.mem_cons]
        tauto

theorem mergeKeys_union_rising {n : Nat} {as : List (Nat × Nat)} {bs : List Nat} (ha : (as.map (·.1)).Pairwise (· < ·))
    (hb : bs.Pairwise (· < ·)) (hn : as.length + bs.length < n) : (mergeKeys 1 n as bs).Pairwise (· < ·) := by
  induction n generalizing as bs with
  | zero => omega
  | succ n ih =>
    match as, bs with
    | [], bs => simpa [mergeKeys, mergeSets, Function.comp_def] using hb
    | (a, i) :: as, [] => simpa [mergeKeys, mergeSets] using ha
    | (a, i) :: as, b :: bs =>
      obtain ⟨hlow, ha'⟩ := List.pairwise_cons.1 ha
      obtain ⟨hlowb, hb'⟩ := List.pairwise_cons.1 hb
      simp only [List.length_cons] at hn ih
      obtain hlt | rfl | hgt := Nat.lt_trichotomy a b
      · have hlen : as.length + (b :: bs).length < n := by simp only [List.length_cons]; omega
        rw [mergeKeys_left _ _ _ _ _ hlt, if_neg (by omega)]
        refine List.pairwise_cons.2 ⟨fun x hx => ?_, ih ha' hb hlen⟩
        obtain hx | hx := (mem_mergeKeys_union hlen x).1 hx
        · exact hlow x hx
        · exact (List.mem_cons.1 hx).elim (fun e => e ▸ hlt) fun hx => hlt.trans (hlowb x hx)
      · have hlen : as.length + bs.length < n := by omega
        rw [mergeKeys_same, if_neg (by omega)]
        refine List.pairwise_cons.2 ⟨fun x hx => ?_, ih ha' hb' hlen⟩
        exact ((mem_mergeKeys_union hlen x).1 hx).elim (hlow x) (hlowb x)
      · have hlen : ((a, i) :: as).length + bs.length < n := by simp only [List.length_cons]; omega
        rw [mergeKeys_right _ _ _ _ _ hgt, if_pos rfl]
        refine List.pairwise_cons.2 ⟨fun x hx => ?_, ih ha hb' hlen⟩
        obtain hx | hx := (mem_mergeKeys_union hlen x).1 hx
        · rw [List.map_cons] at hx
          exact (List.mem_cons.1 hx).elim (fun e => e ▸ hgt) fun hx => hgt.trans (hlow x hx)
        · exact hlowb x hx

/-- Settles O6: the merge takes the smaller of the two heads at each step. -/
theorem sortedSetOperations : Obligations.SortedSetOperations := by
  unfold Obligations.SortedSetOperations
  intro as bs n ha hb hn
  have hkeys : (as.zip (List.range as.length)).map (·.1) = as := List.map_fst_zip (by simp)
  have hrise : ((as.zip (List.range as.length)).map (·.1)).Pairwise (· < ·) := hkeys.symm ▸ ha
  have hlen : (as.zip (List.range as.length)).length + bs.length < n := by simpa using hn
  refine ⟨?_, ?_, mergeKeys_union_rising hrise hb hlen, fun x => ?_⟩
  · exact (mergeKeys_filter (.inl ⟨rfl, rfl⟩) hrise hb hlen).trans (by rw [hkeys]; rfl)
  · refine (mergeKeys_filter (.inr ⟨rfl, rfl⟩) hrise hb hlen).trans ?_
    rw [hkeys]
    exact List.filter_congr fun x _ => by simp
  · exact (mem_mergeKeys_union hlen x).trans (by rw [hkeys])

/-! ## The leaf of a walk (R276 to R278) -/

theorem malformed_leaf_high {c : Bool} {level : Nat} {e : W64} (h : level = 3 ∨ level = 4) (hleaf : leafIs e = true) :
    malformed c level e = true := by
  obtain rfl | rfl := h <;> simp [malformed, hleaf]

theorem walkFrom_leaf {s : State} {v : Nat} {levels : List Nat} {table l at_ : Nat} {e : W64} (hlevels : ∀ x ∈ levels, x ≤ 4)
    (h : walkFrom s v levels table = .leaf l at_ e) :
    leafV e = true ∧ leafIs e = true ∧ malformed s.orderC l e = false ∧ l ≤ 2 ∧ s.homeStatus at_ = 0 ∧ s.tableEntry at_ = e := by
  induction levels generalizing table with
  | nil => cases h
  | cons level levels ih =>
    unfold walkFrom at h
    dsimp only at h
    split_ifs at h with hstatus hpoison hvalid hmal hleaf
    · simp only [Walk.leaf.injEq] at h
      obtain ⟨rfl, rfl, rfl⟩ := h
      have hle := hlevels level List.mem_cons_self
      refine ⟨by simpa using hvalid, hleaf, by simpa using hmal, ?_, not_not.1 hstatus, rfl⟩
      by_contra hgt
      exact hmal (malformed_leaf_high (by omega) hleaf)
    · exact ih (fun x hx => hlevels x (List.mem_cons_of_mem _ hx)) h

/-- Settles O10: a leaf is answered after the checks of its entry alone, and levels 3 and 4 have no well-formed leaf. -/
theorem walkEndsInWellFormedLeaf : Obligations.WalkEndsInWellFormedLeaf := by
  unfold Obligations.WalkEndsInWellFormedLeaf
  intro s ctx v l at_ e h
  unfold State.walk at h
  split at h
  · cases h
  · split at h
    · cases h
    · exact walkFrom_leaf (by decide) h

end Sys2Proof.Machine
end

section
/-! PROOFS. The home slice: reads, fills, near-store atomics and tentative writes. -/

namespace Sys2Proof.Machine

open Sys2Proof.Claims

/-! ## Reads at the home -/

section
variable {cls : RClass} {c ctx : Nat} {attr : BitVec 3} {pa : PAddr} {ecc : Ecc} {s : State}

theorem execHomeRead_rejected (hr : s.power.st = .ready) (ha : attr.toNat < 4) (hd : (s.placeOf pa.toNat).isDevice = false)
    (hst : s.sliceStatus ctx pa.toNat ≠ 0) :
    exec (.homeRead cls c ctx attr pa ecc) s = .next (rejectRequest s cls c ctx pa.toNat (s.sliceStatus ctx pa.toNat)) := by
  show execHomeRead cls c ctx attr pa ecc s = _
  unfold execHomeRead
  simp only [hr, Nat.not_le.2 ha, hd, hst, ne_eq, not_true_eq_false, not_false_eq_true, Bool.false_eq_true, or_self, if_true, if_false]

/-- A read that the slice performs, on a line that no cache owns. -/
theorem execHomeRead_idle (h : Performs s ctx pa.toNat) (ha : attr.toNat < 4) (hidle : s.homeIdle (lineNo pa.toNat) false = true) :
    (inBin s pa.toNat → exec (.homeRead cls c ctx attr pa ecc) s =
      .next (answerRead (eccOutcome s pa.toNat (s.storeOf pa.toNat) ecc) c ctx pa.toNat)) ∧
    (¬inBin s pa.toNat → ∀ x, (s.slice (s.homeOf pa.toNat)).hit (lineNo pa.toNat) = some x →
      exec (.homeRead cls c ctx attr pa ecc) s =
        if attr = 3 then .next (answerRead (eccOutcome (dropLine s (s.homeOf pa.toNat) (lineNo pa.toNat)) pa.toNat
          (s.storeOf pa.toNat) ecc) c ctx pa.toNat)
        else if ecc = .uncorrectable ∧ x.dirty = false then
          .next (readMiss (lifeUp (dropLine s (s.homeOf pa.toNat) (lineNo pa.toNat)) 18 1) cls c ctx (s.homeOf pa.toNat) pa.toNat
            (decide (attr.toNat ≤ 1)) .clean)
        else .next (answerRead (eccOutcome (countUp (touchLine s (s.homeOf pa.toNat) (lineNo pa.toNat) false) 1 (s.homeOf pa.toNat) 0 1)
          pa.toNat (0x04, BitVec.ofNat 8 (s.homeOf pa.toNat), BitVec.ofNat 16 (16 * x.way + setOf (lineNo pa.toNat) % 16), 2) ecc)
            c ctx pa.toNat)) ∧
    (¬inBin s pa.toNat → (s.slice (s.homeOf pa.toNat)).hit (lineNo pa.toNat) = none →
      exec (.homeRead cls c ctx attr pa ecc) s = .next (readMiss s cls c ctx (s.homeOf pa.toNat) pa.toNat (decide (attr.toNat ≤ 1)) ecc)) := by
  obtain ⟨hready, hhome, hstorage⟩ := h
  have hexec : exec (.homeRead cls c ctx attr pa ecc) s = execHomeRead cls c ctx attr pa ecc s := rfl
  rw [hexec]
  unfold execHomeRead
  simp only [hready, Nat.not_le.2 ha, hstorage, hhome, hidle, ne_eq, not_true_eq_false, Bool.false_eq_true, Bool.true_eq_false, or_self, if_false]
  refine ⟨?_, ?_, ?_⟩
  · rintro ⟨h, o, hb⟩
    simp [hb]
  · intro hb x hx
    split
    · exact absurd ⟨_, _, ‹_›⟩ hb
    · simp only [hx]
  · intro hb hx
    split
    · exact absurd ⟨_, _, ‹_›⟩ hb
    · simp only [hx]

theorem execHomeRead_busy (h : Performs s ctx pa.toNat) (ha : attr.toNat < 4) (hidle : s.homeIdle (lineNo pa.toNat) false = false) :
    exec (.homeRead cls c ctx attr pa ecc) s = .next (homeCall s (lineNo pa.toNat) false) := by
  obtain ⟨hready, hhome, hstorage⟩ := h
  show execHomeRead cls c ctx attr pa ecc s = _
  unfold execHomeRead
  simp only [hready, Nat.not_le.2 ha, hstorage, hhome, hidle, ne_eq, not_true_eq_false, Bool.false_eq_true, or_self, if_true, if_false]

end

theorem homeReadResult : HomeReadResult := by
  intro cls c ctx attr pa ecc s
  refine ⟨execHomeRead_rejected, fun h ha => ⟨execHomeRead_busy h ha, fun hidle => (execHomeRead_idle h ha hidle).1,
    fun hidle hbin => ⟨fun x hx => ⟨fun h3 => ?_, fun h3 hecc => ?_⟩, fun hhit hfill => ⟨fun w hattr hw => ?_, fun hattr => ?_⟩,
      fun f hhit hfill => ?_⟩⟩⟩
  · rw [(execHomeRead_idle h ha hidle).2.1 hbin x hx, if_pos h3]
  · rw [(execHomeRead_idle h ha hidle).2.1 hbin x hx, if_neg h3, if_neg fun hc => hecc.elim (· hc.1) fun hd => by simp [hc.2] at hd]
  · rw [(execHomeRead_idle h ha hidle).2.2 hbin hhit]
    simp only [readMiss, hfill, hattr, decide_true, if_true, hw]
  · rw [(execHomeRead_idle h ha hidle).2.2 hbin hhit]
    simp only [readMiss, hfill, Nat.not_le.2 hattr, decide_false, Bool.false_eq_true, if_false]
  · rw [(execHomeRead_idle h ha hidle).2.2 hbin hhit]
    simp only [readMiss, hfill]

/-! ## Fills -/

theorem execFillSectorArrival_taken {h l sec : Nat} {ecc : Ecc} {s : State} {f : Fill} (hf : (s.slice h).filling l = some f)
    (hv : f.victim = none) (hsec : sec < 4) (hgot : f.got.getLsbD sec = false) (hfirst : f.got = 0 → sec = f.first) :
    let got := f.got ||| BitVec.ofNat 4 (2 ^ sec)
    let r := answerJoined l got (eccOutcome s (128 * l + 32 * sec) (s.storeOf (128 * l + 32 * sec)) ecc) f.joined
    exec (.fillSectorArrival h l sec ecc) s = if got = 15 then .next (fillDone r.1 h { f with got := got, joined := r.2 })
      else .next (r.1.setSlice h { r.1.slice h with
        fills := (r.1.slice h).fills.map fun x => if x.line = l then { f with got := got, joined := r.2 } else x }) := by
  have hgo : ¬(f.victim.isSome = true ∨ 4 ≤ sec ∨ f.got.getLsbD sec = true ∨ (f.got = 0 ∧ sec ≠ f.first)) := by
    rw [hv, hgot]
    rintro (h | h | h | ⟨h, hne⟩)
    · simp at h
    · omega
    · simp at h
    · exact hne (hfirst h)
  intro got r
  show execFillSectorArrival h l sec ecc s = _
  unfold execFillSectorArrival
  simp only [hf, if_neg hgo]
  rfl

theorem fillDone_slice (s : State) (h : Nat) (f : Fill) (hc : (s.slice h).isCache f.way = true) : (fillDone s h f).slice h =
    { s.slice h with
      fills := (s.slice h).fills.filter fun x => decide (x.line ≠ f.line)
      lines := { line := f.line, way := f.way, dirty := f.dirty } :: (s.slice h).lines } := by
  unfold fillDone
  dsimp only
  rw [if_pos hc, hc, Bool.not_true, Bool.false_and, if_neg Bool.false_ne_true]
  exact tget_tset_self _ _ _ _

theorem fillEventsResult : FillEventsResult := by
  refine ⟨fun h l sec ecc s f hf hv hsec hgot hfirst => ⟨fun hfull => ?_, fun hpart => ?_⟩, fun s h f hc => ⟨fun x hx => ?_, ?_⟩,
    fun h l s f hf => ?_⟩
  · exact (execFillSectorArrival_taken hf hv hsec hgot hfirst).trans (if_pos hfull)
  · exact (execFillSectorArrival_taken hf hv hsec hgot hfirst).trans (if_neg hpart)
  · rw [fillDone_slice s h f hc] at hx
    simpa using (List.mem_filter.1 hx).2
  · rw [fillDone_slice s h f hc]
    rfl
  · show resumed (victimAccepted h l s) = _
    simp only [victimAccepted, hf, resumed]

/-- Settles O44: each way a read can go is one branch of HOME_READ, and the fill's events are evaluated in turn. -/
theorem homeReadAndFillResult : Obligations.HomeReadAndFillResult := ⟨homeReadResult, fillEventsResult⟩

/-! ## Near-store atomics -/

theorem nearStoreAtomicDone : NearStoreAtomicDone := by
  intro c h s r hr
  have hlanes : (if r.req.isNone then [] else (s.core c).nsa.filter fun q => decide (q.slot = r.slot) && q.req.isSome) =
      if r.req = none then [] else (s.core c).nsa.filter fun q => decide (q.slot = r.slot) && q.req.isSome := by
    simp only [Option.isNone_iff_eq_none]
  have hexec : exec (.nearStoreAtomic c h) s = execNearStoreAtomic c h s := rfl
  rw [hexec]
  simp only [execNearStoreAtomic, hr, hlanes]
  generalize (if r.req = none then [] else (s.core c).nsa.filter fun q => decide (q.slot = r.slot) && q.req.isSome) = lanes
  have hclean : (∀ q ∈ lanes, (nsTry s q).2.1 = 0) → lanes.find? (fun q => decide ((nsTry s q).2.1 ≠ 0)) = none := fun hok =>
    find?_eq_none_of_false fun q hq => by simp [hok q hq]
  refine ⟨fun hok hidle => ?_, fun hok hidle => ?_, fun q hq => ?_⟩
  · simp only [hclean hok, hidle, if_true]
  · simp only [hclean hok, hidle, Bool.true_eq_false, if_false]
  · simp only [hq]


/-! ## The bytes of a write -/

theorem leNat_leBytes (n v : Nat) : leNat (leBytes n v) = v % 2 ^ (8 * n) := by
  induction n generalizing v with
  | zero => simp [leBytes, leNat, Nat.mod_one]
  | succ n ih =>
    have hpow : 2 ^ (8 * (n + 1)) = 256 * 2 ^ (8 * n) := by rw [Nat.mul_succ, Nat.pow_add]; omega
    rw [leBytes, leNat, ih, hpow, Nat.mod_mul, BitVec.toNat_ofNat]

theorem mem_linesOf {pa n a : Nat} (hn : n ≠ 0) : lineNo a ∈ linesOf pa n ↔ lineNo pa ≤ lineNo a ∧ lineNo a ≤ lineNo (pa + n - 1) := by
  have hle : lineNo pa ≤ lineNo (pa + n - 1) := by unfold lineNo; omega
  rw [linesOf, if_neg hn]
  simp only [List.mem_map, List.mem_range]
  constructor
  · rintro ⟨i, hi, he⟩
    omega
  · rintro ⟨hlo, hhi⟩
    exact ⟨lineNo a - lineNo pa, by omega, by omega⟩

/-- What the homes do before the bytes of a write: the lines come back from the caches and their committed lines fold. -/
def readied (s : State) (ls : List Nat) : State :=
  ls.foldl (fun s l => foldCommitted s (s.homeOf (128 * l)) l) (ls.foldl recallLine s)

theorem readied_byte_other {s : State} {ls : List Nat} {a : Nat} (h : lineNo a ∉ ls) : (readied s ls).byte a = s.byte a := by
  have hrecall : ∀ (ls : List Nat), lineNo a ∉ ls → ∀ s, (ls.foldl recallLine s).byte a = s.byte a := by
    intro ls
    induction ls with
    | nil => exact fun _ _ => rfl
    | cons l ls ih =>
      intro h s
      obtain ⟨hne, hnl⟩ := List.ne_and_not_mem_of_not_mem_cons h
      rw [List.foldl_cons, ih hnl, recallLine_byte, if_neg hne]
  have hfold : ∀ (ls : List Nat), lineNo a ∉ ls → ∀ s,
      (ls.foldl (fun s l => foldCommitted s (s.homeOf (128 * l)) l) s).byte a = s.byte a := by
    intro ls
    induction ls with
    | nil => exact fun _ _ => rfl
    | cons l ls ih =>
      intro h s
      obtain ⟨hne, hnl⟩ := List.ne_and_not_mem_of_not_mem_cons h
      rw [List.foldl_cons, ih hnl, foldCommitted_byte_other _ _ _ hne]
  exact (hfold ls h _).trans (hrecall ls h s)

theorem write_byte (s : State) (pa : Nat) (bs : List Byte) (a : Nat) : (s.write pa bs).byte a =
    if pa ≤ a ∧ a < pa + bs.length then bs.getD (a - pa) 0 else (readied s (linesOf pa bs.length)).byte a := by
  have hflight := fun (ls : List Nat) (s : State) => foldl_keeps (p := State.mem) (fun s l => mem_refreshFlight s l) ls s
  unfold State.write
  dsimp only
  rw [State.byte, hflight]
  exact tget_putBytes _ _ _ _

/-- A write stores its bytes. -/
theorem write_byte_in (s : State) (pa : Nat) (bs : List Byte) {i : Nat} (hi : i < bs.length) : (s.write pa bs).byte (pa + i) = bs[i] := by
  rw [write_byte, if_pos (by omega), Nat.add_sub_cancel_left, List.getD_eq_getElem _ _ hi]

/-- A write changes no byte of a line that it does not touch. -/
theorem write_byte_other (s : State) {pa : Nat} {bs : List Byte} {a : Nat} (h : lineNo a ∉ linesOf pa bs.length) :
    (s.write pa bs).byte a = s.byte a := by
  rw [write_byte, readied_byte_other h, if_neg]
  rintro ⟨hlo, hhi⟩
  refine h ((mem_linesOf (by omega)).2 ?_)
  unfold lineNo
  omega

theorem linesOf_within {pa n : Nat} (hn : n ≠ 0) (hin : pa % 128 + n ≤ 128) : linesOf pa n = [lineNo pa] := by
  have hlast : lineNo (pa + n - 1) = lineNo pa := by unfold lineNo; omega
  simp [linesOf, hn, hlast]

theorem nearStoreAtomicValue : NearStoreAtomicValue := by
  intro s pa aop n val cmp hn hal
  obtain ⟨hne, hin⟩ : n ≠ 0 ∧ pa % 128 + n ≤ 128 := by obtain rfl | rfl := hn <;> omega
  intro old r
  have hlen : (leBytes n (Sys2Proof.Machine.atomicResult aop (8 * n) old val cmp)).length = n := length_leBytes _ _
  refine ⟨rfl, rfl, ?_, fun a ha => ?_⟩
  · have hbytes : (List.range n).map (fun i => r.1.byte (pa + i)) = leBytes n (Sys2Proof.Machine.atomicResult aop (8 * n) old val cmp) := by
      refine List.ext_getElem (by simp [hlen]) fun i hi hi' => ?_
      rw [List.getElem_map, List.getElem_range]
      exact write_byte_in s pa _ hi'
    rw [hbytes, leNat_leBytes]
  · refine write_byte_other s ?_
    rw [hlen, linesOf_within hne hin, List.mem_singleton]
    exact ha

/-- Settles O45: the slice applies the oldest atomic, and its write is the bytes of the result within one line. -/
theorem nearStoreAtomicResult : Obligations.NearStoreAtomicResult := ⟨nearStoreAtomicDone, nearStoreAtomicValue⟩

/-! ## A write in an epoch (R249, R250, R257) -/

/-- The bytes of a line that a write covers, and the line with the write's bytes in place. -/
def coverMask (pa n l : Nat) : BitVec 128 :=
  BitVec.ofNat 128 (packFields 1 (fun i => if decide (pa ≤ 128 * l + i) && decide (128 * l + i < pa + n) then 1 else 0) 128)

def coverLine (pa : Nat) (bs : List Byte) (l : Nat) : Line :=
  lineOf fun i => if decide (pa ≤ 128 * l + i) && decide (128 * l + i < pa + bs.length) then (nth? bs (128 * l + i - pa)).getD 0 else 0

theorem poolWrite_within (s : State) (e : Nat) {pa : Nat} {bs : List Byte} (hne : bs ≠ []) (hin : pa % 128 + bs.length ≤ 128) :
    s.poolWrite e pa bs = poolWriteLine s e (lineNo pa) (coverMask pa bs.length (lineNo pa)) (coverLine pa bs (lineNo pa)) := by
  have hlen : bs.length ≠ 0 := by simpa using hne
  rw [State.poolWrite, linesOf_within hlen hin]
  rfl

theorem getLsbD_coverMask {pa n l i : Nat} (hi : i < 128) :
    (coverMask pa n l).getLsbD i = (decide (pa ≤ 128 * l + i) && decide (128 * l + i < pa + n)) := by
  rw [coverMask, BitVec.getLsbD_ofNat, testBit_packFields _ hi, decide_eq_true hi, Bool.true_and]

section
variable {pa i : Nat} {bs : List Byte} (hin : pa % 128 + bs.length ≤ 128) (hi : i < bs.length)
include hin hi

theorem cover_index : 128 * lineNo pa + (pa + i) % 128 = pa + i ∧ (pa + i) % 128 < 128 ∧ lineNo (pa + i) = lineNo pa := by
  unfold lineNo; omega

theorem coverMask_written : (coverMask pa bs.length (lineNo pa)).getLsbD ((pa + i) % 128) = true := by
  obtain ⟨hidx, hlt, -⟩ := cover_index hin hi
  rw [getLsbD_coverMask hlt, hidx]
  simp [hi]

theorem coverLine_written : lineByte (coverLine pa bs (lineNo pa)) ((pa + i) % 128) = bs[i] := by
  obtain ⟨hidx, hlt, -⟩ := cover_index hin hi
  rw [coverLine, lineByte_lineOf _ hlt, hidx]
  simp [hi, nth?_eq_getElem?]

end

/-! A read of the pool after a change that leaves homes and epochs. -/

theorem readByte_congr {s t : State} (e : Option Nat) (a : Nat) (hview : t.viewOf a e = s.viewOf a e) (hbyte : t.cohByte a = s.cohByte a) :
    t.readByte e a = s.readByte e a := by
  simp only [State.readByte, hview, hbyte]

theorem viewOf_congr {s t : State} {e : Option Nat} {a : Nat} (hpool : t.poolOf a = s.poolOf a) (hhome : t.homeOf a = s.homeOf a)
    (hepoch : t.epochs = s.epochs) : t.viewOf a e = s.viewOf a e := by
  unfold State.viewOf State.viewOpen State.epoch
  rw [hpool, hhome, hepoch]

theorem OnlyTranslated.epochs {s t : State} (h : OnlyTranslated s t) : t.epochs = s.epochs := by
  obtain ⟨_, _, _, _, _, _, _, _, _, _, _, rfl, -⟩ := h; rfl

theorem OnlyTranslated.readByte {s t : State} (h : OnlyTranslated s t) (e : Option Nat) (a : Nat) : t.readByte e a = s.readByte e a := by
  have hpool : t.poolOf a = s.poolOf a := by simp only [State.poolOf, h.homeOf, h.pool]
  exact readByte_congr e a (viewOf_congr hpool (h.homeOf a) h.epochs) (h.cohByte a)

theorem OnlyRecalled.epochs {s t : State} (h : OnlyRecalled s t) : t.epochs = s.epochs := by
  obtain ⟨_, _, _, _, _, _, rfl⟩ := h; rfl

/-- A pool after a write of a line in epoch `e`: the newest line of the epoch takes the bytes, or a line is added (R249). -/
def poolTaken (sl : Slice) (e l : Nat) (mask : BitVec 128) (data : Line) : List PoolLine :=
  let mix := fun (old : Line) => lineOf fun i => if mask.getLsbD i then lineByte data i else lineByte old i
  match newestFirst (sl.pool.filter fun p => decide (p.line = l) && decide (p.tag = .held e)) with
  | p :: _ => sl.pool.map fun q => if q = p then { p with mask := p.mask ||| mask, data := mix p.data } else q
  | [] => sl.pool ++ [{ line := l, tag := .held e, mask := mask, seq := sl.poolSeq, data := mix 0, poisoned := false }]

/-- The state in which a pool write changes the pool: the line is taken back unless the pool holds it. -/
def beforePool (s : State) (l : Nat) : State := if s.isHeld (128 * l) then s else recallLine s l

theorem beforePool_only (s : State) (l : Nat) : OnlyRecalled s (beforePool s l) := by
  unfold beforePool
  split
  · exact .refl s
  · exact recallLine_only s l

theorem poolWriteLine_taken {s : State} {e l : Nat} (mask : BitVec 128) (data : Line) (hst : s.poolStatus e (s.homeOf (128 * l)) = 0)
    (hroom : (s.slice (s.homeOf (128 * l))).pool.length < 524288) :
    ∃ u seq, poolWriteLine s e l mask data = (u, 0) ∧
      OnlyTranslated ((beforePool s l).setSlice (s.homeOf (128 * l)) { s.slice (s.homeOf (128 * l)) with
        pool := poolTaken (s.slice (s.homeOf (128 * l))) e l mask data, poolSeq := seq }) u := by
  have hslice := (beforePool_only s l).slice (s.homeOf (128 * l))
  unfold poolWriteLine poolTaken
  unfold beforePool at hslice ⊢
  dsimp only
  rw [if_neg (not_not.2 hst)]
  simp only [hslice]
  cases newestFirst ((s.slice (s.homeOf (128 * l))).pool.filter fun p => decide (p.line = l) && decide (p.tag = .held e)) with
  | cons p ps => exact ⟨_, (s.slice (s.homeOf (128 * l))).poolSeq, rfl, countUp_only _ _ _ _ _⟩
  | nil =>
    rw [if_neg (Nat.not_le.2 hroom)]
    exact ⟨_, (s.slice (s.homeOf (128 * l))).poolSeq + 1, rfl, countUp_only _ _ _ _ _⟩

/-! What the reads find in the pool then. -/

theorem newestFirst_map {f : PoolLine → PoolLine} (hf : ∀ p, (f p).seq = p.seq) (ps : List PoolLine) :
    newestFirst (ps.map f) = (newestFirst ps).map f := by
  induction ps with
  | nil => rfl
  | cons p ps ih =>
    show (newestFirst (ps.map f)).takeWhile (fun q => decide ((f p).seq < q.seq)) ++ f p ::
      (newestFirst (ps.map f)).dropWhile (fun q => decide ((f p).seq < q.seq)) =
      ((newestFirst ps).takeWhile (fun q => decide (p.seq < q.seq)) ++ p ::
        (newestFirst ps).dropWhile fun q => decide (p.seq < q.seq)).map f
    rw [ih, List.takeWhile_map, List.dropWhile_map, List.map_append, List.map_cons]
    simp only [Function.comp_def, hf]

/-- The line that takes the bytes in place of `p`. -/
def takenLine (p : PoolLine) (mask : BitVec 128) (data : Line) : PoolLine :=
  { p with mask := p.mask ||| mask, data := lineOf fun i => if mask.getLsbD i then lineByte data i else lineByte p.data i }

/-- The line of an epoch that holds nothing yet. -/
def freshLine (sl : Slice) (e l : Nat) : PoolLine :=
  { line := l, tag := .held e, mask := 0, seq := sl.poolSeq, data := 0, poisoned := false }

/-- The two ways a pool takes a write. -/
theorem poolTaken_cases (sl : Slice) (e l : Nat) (mask : BitVec 128) (data : Line) :
    (∃ p ps, newestFirst (sl.pool.filter fun p => decide (p.line = l) && decide (p.tag = .held e)) = p :: ps ∧
      poolTaken sl e l mask data = sl.pool.map fun q => if q = p then takenLine p mask data else q) ∨
    (sl.pool.filter (fun p => decide (p.line = l) && decide (p.tag = .held e)) = [] ∧
      poolTaken sl e l mask data = sl.pool ++ [takenLine (freshLine sl e l) mask data]) := by
  unfold poolTaken
  cases hm : newestFirst (sl.pool.filter fun p => decide (p.line = l) && decide (p.tag = .held e)) with
  | cons p ps => exact .inl ⟨p, ps, rfl, rfl⟩
  | nil =>
    refine .inr ⟨List.eq_nil_iff_forall_not_mem.2 fun p hp => ?_, ?_⟩
    · exact List.not_mem_nil (hm ▸ mem_newestFirst.2 hp)
    · simp [takenLine, freshLine]

theorem takenLine_hit (p : PoolLine) (mask : BitVec 128) (data : Line) {j : Nat} (hj : j < 128) (hm : mask.getLsbD j = true) :
    (takenLine p mask data).mask.getLsbD j = true ∧ lineByte (takenLine p mask data).data j = lineByte data j := by
  simp only [takenLine, BitVec.getLsbD_or, lineByte_lineOf _ hj, hm, Bool.or_true, if_true, and_self]

/-- The newest line of the epoch holds the bytes just written. -/
theorem poolTaken_newest (sl : Slice) (e l : Nat) (mask : BitVec 128) (data : Line) {j : Nat} (hj : j < 128) (hm : mask.getLsbD j = true) :
    ∃ p, (newestFirst ((poolTaken sl e l mask data).filter fun p => decide (p.line = l) && decide (p.tag = .held e))).find?
      (fun p => p.mask.getLsbD j) = some p ∧ lineByte p.data j = lineByte data j := by
  obtain ⟨p, ps, hnew, htaken⟩ | ⟨hnone, htaken⟩ := poolTaken_cases sl e l mask data
  · have hp : p ∈ sl.pool.filter fun p => decide (p.line = l) && decide (p.tag = .held e) :=
      mem_newestFirst.1 (hnew ▸ List.mem_cons_self)
    have hkeep : ∀ q : PoolLine, (decide ((if q = p then takenLine p mask data else q).line = l) &&
        decide ((if q = p then takenLine p mask data else q).tag = .held e)) = (decide (q.line = l) && decide (q.tag = .held e)) := by
      intro q
      split
      · subst q; rfl
      · rfl
    have hseq : ∀ q : PoolLine, (if q = p then takenLine p mask data else q).seq = q.seq := by
      intro q
      split
      · subst q; rfl
      · rfl
    obtain ⟨hmask, hdata⟩ := takenLine_hit p mask data hj hm
    refine ⟨takenLine p mask data, ?_, hdata⟩
    rw [htaken, List.filter_map]
    simp only [Function.comp_def, hkeep]
    rw [newestFirst_map hseq, hnew, List.map_cons, if_pos rfl]
    exact List.find?_cons_of_pos hmask
  · obtain ⟨hmask, hdata⟩ := takenLine_hit (freshLine sl e l) mask data hj hm
    refine ⟨_, ?_, hdata⟩
    rw [htaken, List.filter_append, hnone, List.nil_append, List.filter_cons_of_pos (by simp [takenLine, freshLine])]
    exact List.find?_cons_of_pos hmask

/-- Lines that the epoch does not hold are as before. -/
theorem poolTaken_filter (sl : Slice) (e l : Nat) (mask : BitVec 128) (data : Line) {q : PoolLine → Bool}
    (hq : ∀ p, p.tag = .held e → q p = false) : (poolTaken sl e l mask data).filter q = sl.pool.filter q := by
  obtain ⟨p, ps, hnew, htaken⟩ | ⟨-, htaken⟩ := poolTaken_cases sl e l mask data
  · have hp := (List.mem_filter.1 (mem_newestFirst.1 (hnew ▸ List.mem_cons_self (a := p) (l := ps)))).2
    simp only [Bool.and_eq_true, decide_eq_true_eq] at hp
    rw [htaken]
    induction sl.pool with
    | nil => rfl
    | cons x xs ih =>
      by_cases hx : x = p
      · subst hx
        have hold : ¬q x = true := by rw [hq x hp.2]; exact Bool.false_ne_true
        have hnow : ¬q (takenLine x mask data) = true := by rw [hq (takenLine x mask data) hp.2]; exact Bool.false_ne_true
        rw [List.map_cons, if_pos rfl, List.filter_cons_of_neg hnow, List.filter_cons_of_neg hold, ih]
      · rw [List.map_cons, if_neg hx, List.filter_cons, List.filter_cons, ih]
  · rw [htaken, List.filter_append, List.filter_cons_of_neg (by rw [hq (takenLine (freshLine sl e l) mask data) rfl]; exact Bool.false_ne_true), List.filter_nil, List.append_nil]

theorem poolOf_setSlice (s : State) (h a : Nat) (k : Slice) : (s.setSlice h k).poolOf a =
    if s.homeOf a = h then k.pool.filter (fun p => decide (p.line = lineNo a)) else s.poolOf a := by
  have hhome : (s.setSlice h k).homeOf a = s.homeOf a := homeOf_congr rfl rfl rfl rfl a
  unfold State.poolOf
  rw [hhome]
  split
  case isTrue he => subst he; simp only [State.slice, State.setSlice, tget_tset_self]
  case isFalse hne => simp only [State.slice, State.setSlice, tget_tset_other _ _ _ hne]

/-- The state with a pool write taken at its slice. -/
def withTaken (s : State) (e l seq : Nat) (mask : BitVec 128) (data : Line) : State :=
  (beforePool s l).setSlice (s.homeOf (128 * l)) { s.slice (s.homeOf (128 * l)) with
    pool := poolTaken (s.slice (s.homeOf (128 * l))) e l mask data, poolSeq := seq }

theorem withTaken_poolOf (s : State) (e l seq : Nat) (mask : BitVec 128) (data : Line) (a : Nat) :
    (withTaken s e l seq mask data).poolOf a = if s.homeOf a = s.homeOf (128 * l) then
      (poolTaken (s.slice (s.homeOf (128 * l))) e l mask data).filter (fun p => decide (p.line = lineNo a)) else s.poolOf a := by
  rw [withTaken, poolOf_setSlice, (beforePool_only s l).homeOf]
  split
  · rfl
  · simp only [State.poolOf, (beforePool_only s l).homeOf, (beforePool_only s l).slice]

/-- The epoch reads the bytes just written. -/
theorem withTaken_epochRead {s : State} {e seq pa i : Nat} {bs : List Byte} (hopen : (s.epoch e).state = .opened)
    (hin : pa % 128 + bs.length ≤ 128) (hi : i < bs.length) :
    (withTaken s e (lineNo pa) seq (coverMask pa bs.length (lineNo pa)) (coverLine pa bs (lineNo pa))).readByte (some e) (pa + i) = bs[i] := by
  obtain ⟨-, hlt, hline⟩ := cover_index hin hi
  have hhome : s.homeOf (pa + i) = s.homeOf (128 * lineNo pa) := by rw [← homeOf_line s (pa + i), hline]
  obtain ⟨p, hfind, hdata⟩ := poolTaken_newest (s.slice (s.homeOf (128 * lineNo pa))) e (lineNo pa) (coverMask pa bs.length (lineNo pa))
    (coverLine pa bs (lineNo pa)) hlt (coverMask_written hin hi)
  have hshown : Shown (withTaken s e (lineNo pa) seq (coverMask pa bs.length (lineNo pa)) (coverLine pa bs (lineNo pa))) (pa + i) e := by
    refine .inl ?_
    show (tget Epoch.reset (beforePool s (lineNo pa)).epochs e).state = _
    rw [(beforePool_only s (lineNo pa)).epochs]
    exact hopen
  refine (readByte_of_find ?_).trans (hdata.trans (coverLine_written hin hi))
  rw [viewOf_shown hshown, List.find?_append, newestOf, withTaken_poolOf, if_pos hhome, List.filter_filter, hline]
  have hswap : (fun p : PoolLine => heldBy e p && decide (p.line = lineNo pa)) =
      fun p => decide (p.line = lineNo pa) && decide (p.tag = .held e) := funext fun p => Bool.and_comm _ _
  rw [hswap, hfind]
  rfl

/-- A plain read sees every byte as before, when no cache holds the line. -/
theorem withTaken_plain {s : State} {l : Nat} (e seq : Nat) (mask : BitVec 128) (data : Line) (hshare : s.lineShared l = false) :
    (withTaken s e l seq mask data).mem = s.mem ∧ ∀ a, (withTaken s e l seq mask data).readByte none a = s.readByte none a := by
  have hbefore : beforePool s l = s := by
    unfold beforePool recallLine
    simp only [hshare, Bool.false_eq_true, if_false, ite_self]
  have hcoh : ∀ a, (withTaken s e l seq mask data).cohByte a = s.cohByte a := fun a => by rw [withTaken, hbefore]; rfl
  refine ⟨by rw [withTaken, hbefore]; rfl, fun a => readByte_congr none a ?_ (hcoh a)⟩
  rw [viewOf_plain, viewOf_plain, newestOf, newestOf, withTaken_poolOf]
  split
  case isTrue hhome =>
    have hnot : ∀ p : PoolLine, p.tag = .held e → (isCommitted p && decide (p.line = lineNo a)) = false := fun p hp => by
      simp [isCommitted, hp]
    rw [List.filter_filter, poolTaken_filter _ _ _ _ _ hnot, ← List.filter_filter, ← hhome]
    rfl
  case isFalse => rfl

/-! The command. -/

section
variable {ctx e : Nat} {pa : PAddr} {data : List Byte} {s : State} {c : Context} (hc : s.ctx? ctx = some c)
  (h : Performs s ctx pa.toNat) (he : e < 64) (hne : data ≠ []) (hin : pa.toNat % 128 + data.length ≤ 128)
  (htent : (s.slice (s.homeOf pa.toNat)).tent = true)
include hc h he hne hin htent

theorem execPoolWrite_performed : exec (.poolWrite ctx e pa data) s =
    if s.pageMoving pa.toNat then .next s
    else if s.homeIdle (lineNo pa.toNat) true = false then .next (homeCall s (lineNo pa.toNat) true)
    else .next (match s.poolWrite (64 * c.part + e) pa.toNat data with
      | (s1, st) => if st = 0 then s1.emit (.home 0xFFFF ctx st 0) else
          addLoss (eventCtx (s1.emit (.home 0xFFFF ctx st 0)) 2 st 0x01 0xFF 0xFFFF ctx pa.toNat 0) ctx st 0xFFFF 0 (w64 pa.toNat) true) := by
  obtain ⟨hready, hhome, hstorage⟩ := h
  show execPoolWrite ctx e pa data s = _
  unfold execPoolWrite
  simp only [hc, hready, Nat.not_le.2 he, hne, Nat.not_lt.2 hin, hstorage, hhome, htent, ne_eq, not_true_eq_false, Bool.false_eq_true,
    Bool.true_eq_false, or_self, false_or, if_false]
  rfl

end

/-- Settles O8: the write enters the pool of its slice under the epoch's tag, which plain reads do not look at. -/
theorem poolWriteIsTentative : Obligations.PoolWriteIsTentative := by
  unfold Obligations.PoolWriteIsTentative
  intro ctx e pa data s c hc h he hne hin htent
  have hexec := execPoolWrite_performed hc h he hne hin htent
  refine ⟨fun hmove => ?_, fun hmove hidle => ?_, fun hmove hidle hseal hopen hparent hroom => ?_, fun hmove hidle hstate => ?_⟩
  · rw [hexec, if_pos hmove]
  · rw [hexec, hmove, if_neg Bool.false_ne_true, if_pos hidle]
  · have hline := homeOf_line s pa.toNat
    have hst : s.poolStatus (64 * c.part + e) (s.homeOf (128 * lineNo pa.toNat)) = 0 := by
      simp [State.poolStatus, hline, hopen, hparent, hseal]
    obtain ⟨u, seq, hwrite, hu⟩ := poolWriteLine_taken (coverMask pa.toNat data.length (lineNo pa.toNat))
      (coverLine pa.toNat data (lineNo pa.toNat)) hst (hline.symm ▸ hroom)
    have hread : ∀ x a, (u.emit (.home 0xFFFF ctx 0 0)).readByte x a = (withTaken s (64 * c.part + e) (lineNo pa.toNat) seq
        (coverMask pa.toNat data.length (lineNo pa.toNat)) (coverLine pa.toNat data (lineNo pa.toNat))).readByte x a :=
      fun x a => hu.readByte x a
    rw [hexec, hmove, hidle, poolWrite_within s _ hne hin, hwrite]
    refine ⟨_, rfl, fun i hi => (hread _ _).trans (withTaken_epochRead hopen hin hi), rfl, fun hshare => ?_⟩
    obtain ⟨hmem, hplain⟩ := withTaken_plain (64 * c.part + e) seq (coverMask pa.toNat data.length (lineNo pa.toNat))
      (coverLine pa.toNat data (lineNo pa.toNat)) hshare
    exact ⟨hu.mem.trans hmem, fun a => (hread none a).trans (hplain a)⟩
  · have hst : s.poolStatus (64 * c.part + e) (s.homeOf (128 * lineNo pa.toNat)) = 0x0409 := by
      simp [State.poolStatus, hstate]
    have hwrite : s.poolWrite (64 * c.part + e) pa.toNat data = (s, 0x0409) := by
      rw [poolWrite_within s _ hne hin, poolWriteLine]
      simp [hst]
    rw [hexec, hmove, hidle, hwrite]
    rfl

end Sys2Proof.Machine
end

section
/-! PROOFS. The mill and the sieve: acceptance of their instructions and the events of their operations. -/

namespace Sys2Proof.Machine

open Sys2Proof.Claims

/-! ## Acceptance -/

section
variable {fn : Nat} {g : Grp} {f : RWord} {s s2 s3 : State} {k : Group} {d : BitVec 512}

theorem millBody_bad (act : W32) (hq : (s.core g.core).millQ.length < 8)
    (hd : readDescs g k (badDesc k) s [(k.opS none f.a).toNat] = (s2, .inr [d])) (ho : millDescOk fn d = false) :
    millBody fn g f s k act = .fault 0x0502 k.pc.toNat 0 := by
  unfold badDesc at hd
  simp only [millBody, Nat.not_le.2 hq, hd, List.headD_cons, ho, if_true, if_false]

theorem millBody_tiles (act : W32) (hq : (s.core g.core).millQ.length < 8) {xd wd od : BitVec 512}
    (hd : readDescs g k (badDesc k) s [(k.opS none f.a).toNat] = (s2, .inr [d])) (ho : millDescOk fn d = true)
    (ht : readDescs g k (badDesc k) s2 [bits d 479 424, bits d 415 360, bits d 351 296] = (s3, .inr [xd, wd, od])) :
    (millOk fn d xd wd od = false → millBody fn g f s k act = .fault 0x0502 k.pc.toNat 0) ∧
    (millOk fn d xd wd od = true →
      (s3.core g.core).scores.length + (millRanges fn d (.ofWord xd) (.ofWord wd) (.ofWord od)).length ≤ 16 →
      millBody fn g f s k act = .done ((s3.setCore g.core (acceptMill (s3.core g.core) g
        (newMillOp fn g f k ((s3.core g.core).seq + 1) d xd wd od) (millRanges fn d (.ofWord xd) (.ofWord wd) (.ofWord od)))).setGroup g
        { k with units := k.units ++ regsOf f.dst 1 })) := by
  unfold badDesc at hd ht
  refine ⟨fun hm => ?_, fun hm hl => ?_⟩ <;>
    simp only [millBody, Nat.not_le.2 hq, hd, ht, List.headD_cons, ho, if_false, Bool.true_eq_false, nth?, Option.getD_some]
  · simp only [hm, if_true]
  · simp only [hm, if_false, Bool.true_eq_false, Nat.not_lt.2 hl]

theorem sieveBody_bad (act : W32) (hq : (s.core g.core).sieveQ.length < 4)
    (hd : readDescs g k (badDesc k) s [(k.opS none f.a).toNat] = (s2, .inr [d])) (ho : sieveDescOk fn d = false) :
    sieveBody fn g f s k act = .fault 0x0502 k.pc.toNat 0 := by
  unfold badDesc at hd
  simp only [sieveBody, Nat.not_le.2 hq, hd, List.headD_cons, ho, if_true, if_false]

theorem sieveBody_tiles (act : W32) (hq : (s.core g.core).sieveQ.length < 4) {ts : List (BitVec 512)}
    (hd : readDescs g k (badDesc k) s [(k.opS none f.a).toNat] = (s2, .inr [d])) (ho : sieveDescOk fn d = true)
    (ht : readDescs g k (badDesc k) s2 (sieveTiles fn d) = (s3, .inr ts)) :
    (sieveOk fn d (sieveTileA ts) (sieveTileB fn ts) (sieveTileOut fn d ts) = false →
      sieveBody fn g f s k act = .fault 0x0502 k.pc.toNat 0) ∧
    (sieveOk fn d (sieveTileA ts) (sieveTileB fn ts) (sieveTileOut fn d ts) = true →
      (s3.core g.core).scores.length + (sieveRanges fn d (.ofWord (sieveTileA ts)) (.ofWord (sieveTileB fn ts))
        (.ofWord (sieveTileOut fn d ts))).length ≤ 16 →
      sieveBody fn g f s k act = .done ((s3.setCore g.core (acceptSieve (s3.core g.core) g
        (newSieveOp fn g f k ((s3.core g.core).seq + 1) d (sieveTileA ts) (sieveTileB fn ts) (sieveTileOut fn d ts))
        (sieveRanges fn d (.ofWord (sieveTileA ts)) (.ofWord (sieveTileB fn ts)) (.ofWord (sieveTileOut fn d ts))))).setGroup g
        { k with units := k.units ++ regsOf f.dst 1 })) := by
  unfold badDesc at hd ht
  refine ⟨fun hm => ?_, fun hm hl => ?_⟩ <;>
    simp only [sieveBody, Nat.not_le.2 hq, hd, ht, List.headD_cons, ho, if_false, Bool.true_eq_false]
  · simp only [hm, if_true]
  · simp only [hm, if_false, Bool.true_eq_false, Nat.not_lt.2 hl]

end

theorem exec_millRow {row : (Grp → RWord → Instr) × Nat} (h : row ∈ millRows) (g : Grp) (f : RWord) (s : State) :
    exec (row.1 g f) s = millIssue row.2 g f s := by
  simp only [millRows, List.mem_cons, List.not_mem_nil, or_false] at h
  obtain rfl | rfl | rfl := h <;> rfl

theorem exec_sieveRow {row : (Grp → RWord → Instr) × Nat} (h : row ∈ sieveRows) (g : Grp) (f : RWord) (s : State) :
    exec (row.1 g f) s = sieveIssue row.2 g f s := by
  simp only [sieveRows, List.mem_cons, List.not_mem_nil, or_false] at h
  obtain rfl | rfl | rfl | rfl | rfl | rfl := h <;> rfl

theorem millStartResult : MillStartResult := by
  intro row hrow g f s s1 s2 k act d hi hq hd
  rw [exec_millRow hrow]
  refine ⟨fun ho => issue_fault hi (millBody_bad act hq hd ho), fun s3 xd wd od ho ht => ?_⟩
  obtain ⟨hbad, hgood⟩ := millBody_tiles act hq hd ho ht
  exact ⟨fun hm => issue_fault hi (hbad hm), fun hm hl => congrArg Host.Outcome.next (issuePf_group hi (hgood hm hl))⟩

theorem sieveStartResult : SieveStartResult := by
  intro row hrow g f s s1 s2 k act d hi hq hd
  rw [exec_sieveRow hrow]
  refine ⟨fun ho => issue_fault hi (sieveBody_bad act hq hd ho), fun s3 ts ho ht => ?_⟩
  obtain ⟨hbad, hgood⟩ := sieveBody_tiles act hq hd ho ht
  exact ⟨fun hm => issue_fault hi (hbad hm), fun hm hl => congrArg Host.Outcome.next (issuePf_group hi (hgood hm hl))⟩

/-! ## The events of the mill -/

theorem faultedOp_first {s : State} {c : Nat} {status : W16} {p : MillOp} (rest : List MillOp)
    (h : (status = 0x0501 ∧ p.mayConflict none = true) ∨ millFaultNow s c p = some status) :
    faultedOp s c status (p :: rest) = some (p, rest) := by
  simp only [faultedOp, h, if_true]

theorem faultedOp_second {s : State} {c : Nat} {status : W16} {p o : MillOp} (later : List MillOp)
    (h : ¬((status = 0x0501 ∧ p.mayConflict none = true) ∨ millFaultNow s c p = some status))
    (hs : status = 0x0501) (hl : p.onLast = true) (hc : o.mayConflict (some p) = true) :
    faultedOp s c status (p :: o :: later) = some (o, later) := by
  simp only [faultedOp, if_neg h, if_pos (And.intro hs (And.intro hl hc))]

theorem millEventsResult : MillEventsResult := by
  refine ⟨fun c s s1 o hn hr => ?_, fun c s s1 o rest hq hs hf ho hb hr => ⟨fun hov => ?_, fun hov hw => ?_⟩,
    fun c s o rest hq ho => ?_, fun c cycles s o rest hq hs he => ?_, fun c status s o p rest later hq h => ?_⟩
  · constructor <;> intro hf
    all_goals
      show execMillOpStart c s = _
      simp only [execMillOpStart, hn, hr, hf, if_true, if_false]
      rfl
  · show execMillBlockDrain c s = _
    simp [execMillBlockDrain, show (s.core c).millQ = o :: rest from hq, hs, hf, ho, Nat.not_le.2 hb, hr, hov]
  · show execMillBlockDrain c s = _
    have hov' : (!bit o.desc 498 && decide (o.k < 24) && blockOverflows o (o.sums s1 c).2) = false := by
      cases hx : (!bit o.desc 498 && decide (o.k < 24) && blockOverflows o (o.sums s1 c).2)
      · rfl
      · exact absurd (by simpa [and_assoc] using hx) hov
    simp only [execMillBlockDrain, show (s.core c).millQ = o :: rest from hq, hs, hf, ho, Nat.not_le.2 hb, hr, hov', hw,
      Bool.not_true, decide_false, Bool.or_self, Bool.false_eq_true, if_true, if_false]
  · show execMillRescaleRetry c s = _
    simp only [execMillRescaleRetry, show (s.core c).millQ = o :: rest from hq, ho, if_true]
  · show execMillComplete c cycles s = _
    have hb : (!o.started || (decide (o.fn ≠ 0) && decide (o.block < o.geo.blocks))) = false := by
      obtain h0 | h0 := he
      · simp [hs, h0]
      · simp [hs, Nat.not_lt.2 h0]
    simp only [execMillComplete, show (s.core c).millQ = o :: rest from hq, hb, Bool.false_eq_true, if_false]
  · have hf : faultedOp s c status (s.core c).millQ = some (o, later) := by
      rw [show (s.core c).millQ = p :: rest from hq]
      obtain ⟨h, rfl, rfl⟩ | ⟨h, hs, hl, rfl, hc⟩ := h
      · exact faultedOp_first _ h
      · exact faultedOp_second _ h hs hl hc
    show execMillFault c status s = _
    simp only [execMillFault, hf]
    rfl

theorem accumulatorAccessResult : AccumulatorAccessResult := by
  refine fun g f s s1 k act hi => ⟨fun hd c hc => ?_, fun s2 hd hv hq hb => ⟨fun hr => ?_, fun hr => ?_⟩⟩
  · simp only [List.mem_cons, List.not_mem_nil, or_false] at hc
    obtain rfl | rfl := hc <;> exact issue_fault hi (by simp only [maccBody, hd, if_true])
  all_goals exact issue_passed hi (by simp [maccBody, hd, hv, hq, hb, hr])

/-- Settles O42: the acceptance of mill instructions, the events of the mill, and the accumulators. -/
theorem millResult : Obligations.MillResult :=
  ⟨millStartResult, millEventsResult, accumulatorAccessResult⟩

/-! ## The events of the sieve -/

theorem sieveEventsResult : SieveEventsResult := by
  refine ⟨fun c s s1 o rest hq he => ?_, fun c status s o rest hq hf => ?_⟩
  · show execSieveComplete c s = _
    simp only [execSieveComplete, show (s.core c).sieveQ = o :: rest from hq, he.ran, he.wrote, ne_eq, not_true_eq_false, if_false]
  · show execSieveFault c status s = _
    simp only [execSieveFault, show (s.core c).sieveQ = o :: rest from hq, hf, ne_eq, not_true_eq_false, if_false]
    rfl

/-- Settles O43: the acceptance of sieve instructions and the events of the sieve. -/
theorem sieveResult : Obligations.SieveResult :=
  ⟨sieveStartResult, sieveEventsResult⟩

end Sys2Proof.Machine
end

section
/-! PROOFS. Gating of units, the patrol scrub, page walks and shootdowns. -/

namespace Sys2Proof.Machine

open Sys2Proof.Claims

/-! ## What a record in the event log keeps and adds -/

section
variable {β : Type} {p : State → β}

/-- A record in the log keeps whatever does not read the flash or the lifetime counters. -/
theorem logEvent_keeps (hp : ∀ s f v, p { s with flash := f, reeve := v } = p s) (s : State) (r : EventRec) :
    p (logEvent s r) = p s := by
  unfold logEvent
  extract_lets merge
  clear_value merge
  cases merge with
  | some q => exact hp s _ s.reeve
  | none => exact hp s _ _

theorem lifeUp_keeps (hp : ∀ s f v, p { s with flash := f, reeve := v } = p s) (s : State) (k n : Nat) :
    p (lifeUp s k n) = p s := by
  have hadd : p (lifeAdd s k n) = p s := hp s s.flash _
  unfold lifeUp
  extract_lets was s1
  split
  · exact (logEvent_keeps hp _ _).trans hadd
  · exact hadd

/-- What `withSyndrome` records, with the syndrome it takes from the free values. -/
theorem withSyndrome_eq (s : State) (r : EventRec) :
    withSyndrome s r = logEvent { s with spare := s.spare + 1 } { r with detail := w64 (Config.freeNat s.spare) } := rfl

end

theorem mem_lastN_append {α : Type} {n : Nat} (h : 0 < n) (l : List α) (x : α) : x ∈ lastN n (l ++ [x]) := by
  unfold lastN
  rw [List.drop_append_of_le_length (by simp; omega)]
  simp

/-- A record that is not of level 0 is never merged into the one before it: the log holds it. -/
theorem logEvent_records (s : State) {r : EventRec} (h : r.level ≠ 0) :
    ∃ x ∈ (logEvent s r).flash.events, x.status = r.status ∧ x.phys = r.phys := by
  have hm : (match s.flash.events.getLast? with
      | none => none
      | some p => if r.level = 0 ∧ p.level = 0 ∧ p.unit = r.unit ∧ p.die = r.die ∧ p.index = r.index ∧ p.phys = r.phys ∧
          r.time < p.time + 1000000000 then some p else none) = none := by
    split
    · rfl
    · exact if_neg fun hx => h hx.1
  unfold logEvent
  extract_lets merge
  rw [show merge = none from hm]
  dsimp only [lifeAdd]
  exact ⟨_, mem_lastN_append (Nat.succ_pos _) _ _, rfl, rfl⟩

/-! ## Gating -/

theorem slice_setSlice_self (s : State) (h : Nat) (v : Slice) : (s.setSlice h v).slice h = v :=
  tget_tset_self _ _ _ _

theorem State.seal?_setSeal_self (s : State) (u : GateUnit) (v : Option SealState) : (s.setSeal u v).seal? u = v := by
  have hnone : (s.seals.filter fun e => decide (e.1 ≠ u)).find? (fun e => decide (e.1 = u)) = none :=
    List.find?_eq_none.2 fun e he => by simpa using (List.mem_filter.1 he).2
  cases v with
  | none => simp only [State.seal?, State.setSeal, hnone, Option.map_none]
  | some x => simp only [State.seal?, State.setSeal, List.find?_append, hnone, Option.none_or, List.find?_singleton, decide_true,
      if_true, Option.map_some]

theorem gateEvent_keeps {β : Type} {p : State → β} (hp : ∀ s f v, p { s with flash := f, reeve := v } = p s) (s : State)
    (u : GateUnit) : p (gateEvent s u) = p s := by
  cases u <;> exact logEvent_keeps hp _ _

theorem tfind_filter_key {α : Type} (t : Table α) (q : Nat → Bool) (n : Nat) :
    tfind (t.filter fun e => q e.1) n = if q n then tfind t n else none := by
  induction t with
  | nil => simp [tfind]
  | cons e t ih =>
    obtain ⟨k, v⟩ := e
    by_cases hk : k = n
    · subst hk; cases hq : q k <;> simp [tfind, hq, ih]
    · cases hq : q k <;> simp [tfind, hq, ih, hk]

theorem ungateUnit_byte (s : State) (u : GateUnit) (a : Nat) :
    (ungateUnit s u).byte a = if s.inUnit u a then 0 else s.byte a := by
  show tget 0 (s.mem.filter fun c => (fun n => !s.inUnit u n) c.1) a = _
  rw [tget, tfind_filter_key s.mem (fun n => !s.inUnit u n) a]
  cases s.inUnit u a <;> rfl

theorem gatingResult : GatingResult := by
  refine fun u s => ⟨fun hi hw hs hm => ?_, fun hs hb => ?_, fun hs => ?_⟩
  · show execUnitSeal u s = _
    simp only [execUnitSeal, sealUnit, hi, hw, hs, hm, Option.isNone_none, Bool.and_self, if_true]
  · refine ⟨_, show execUnitDrainDone u s = _ by
      simp only [execUnitDrainDone, hs, hb, ne_eq, not_true_eq_false, Bool.false_eq_true, or_self, if_false]; rfl, ?_, ?_, ?_⟩
    · rw [gateEvent_keeps (p := fun s => s.seal? u) (fun _ _ _ => rfl)]
      exact State.seal?_setSeal_self _ _ _
    · rw [gateEvent_keeps (p := State.mem) (fun _ _ _ => rfl)]
      cases u <;> rfl
    · rintro h w rfl
      rw [gateEvent_keeps (p := fun s => s.slice h) (fun _ _ _ => rfl)]
      intro x hx
      rw [show ∀ t : State, (t.setSeal (.cacheWay h w) (some .gated)).slice h = t.slice h from fun _ => rfl, slice_setSlice_self] at hx
      simpa using (List.mem_filter.1 hx).2
  · refine ⟨_, show execUnitUngate u s = _ by simp only [execUnitUngate, hs, if_true]; rfl, ?_, fun a ha => ?_, fun a ha => ?_⟩
    · exact State.seal?_setSeal_self s u none
    · rw [ungateUnit_byte, ha, if_pos rfl]
    · rw [ungateUnit_byte, ha, if_neg Bool.false_ne_true]

/-! ## The patrol scrub -/

theorem poisonSector_plain (s : State) (pa : Nat) (h : s.commonsBlock pa = none) :
    poisonSector s pa = { s with poison := addOnce (sectorNo pa) s.poison } := by
  unfold poisonSector
  dsimp only
  rw [h]

/-- A pool line of epoch `e` at line `l`, whose data the slice still keeps. -/
def ofEpoch (e l : Nat) (x : PoolLine) : Bool :=
  decide (x.line = l) && (match x.tag with
    | .held n | .committed n => decide (n = e)
    | .void _ => false)

/-- The pool of a scrubbed slice: the lines of the epoch at the address are poisoned, and so is the epoch. -/
def poisonedPool (s : State) (e : Nat) (pa : PAddr) : State :=
  let h := s.homeOf pa.toNat
  let s1 := s.setSlice h { s.slice h with
    pool := (s.slice h).pool.map fun x => if ofEpoch e (lineNo pa.toNat) x then { x with poisoned := true } else x }
  s1.setEpoch e { s1.epoch e with poisoned := true }

/-- What the scrub of a pool line with an uncorrectable error leaves. -/
def scrubbedPool (s : State) (e : Nat) (pa : PAddr) : State :=
  let s2 := lifeUp (poisonedPool s e pa) 19 1
  withSyndrome s2 { mkEvent s2 5 0x0707 0x04 (BitVec.ofNat 8 (s.homeOf pa.toNat)) 240 with phys := pa }

theorem execPatrolScrub_pool (pa : PAddr) (e : Nat) (s : State) :
    execPatrolScrub pa (some e) .uncorrectable s =
      if s.inService = false ∨ s.homeStatus pa.toNat ≠ 0 ∨ (s.placeOf pa.toNat).isDevice = true then .next s
      else if (s.slice (s.homeOf pa.toNat)).pool.any (ofEpoch e (lineNo pa.toNat)) = false then .next s
      else .next (scrubbedPool s e pa) := rfl

theorem scrubbedPool_keeps {β : Type} (p : State → β) (hp : ∀ s f v, p { s with flash := f, reeve := v } = p s)
    (hs : ∀ s n, p { s with spare := n } = p s) (s : State) (e : Nat) (pa : PAddr) :
    p (scrubbedPool s e pa) = p (poisonedPool s e pa) :=
  (logEvent_keeps hp ..).trans ((hs ..).trans (lifeUp_keeps hp ..))

theorem patrolScrubResult : PatrolScrubResult := by
  refine fun pa s hi hh hd => ⟨fun ecc he => ?_, fun hc hr => ?_, fun e x hx hl ht => ?_⟩
  · show execPatrolScrub pa none ecc s = _
    simp only [execPatrolScrub, hi, hh, hd, he, Bool.true_eq_false, Bool.false_eq_true, ne_eq, not_true_eq_false, or_self, if_false]
  · let life := lifeUp s (16 + (s.storeOf pa.toNat).2.2.2) 1
    have hlife : ∀ {β : Type} (p : State → β), (∀ s f v, p { s with flash := f, reeve := v } = p s) → p life = p s :=
      fun p hp => lifeUp_keeps hp ..
    have hpoison := poisonSector_plain life pa.toNat ((hlife (·.commonsBlock pa.toNat) fun _ _ _ => rfl).trans hc)
    let s1 := { life with poison := addOnce (sectorNo pa.toNat) life.poison }
    let s2 := withSyndrome s1 { mkEvent s1 5 0x0707 (s.storeOf pa.toNat).1 (s.storeOf pa.toNat).2.1 (s.storeOf pa.toNat).2.2.1
      with phys := pa }
    have hkeeps : ∀ {β : Type} (p : State → β), (∀ s f v, p { s with flash := f, reeve := v } = p s) →
        p s2 = p { s1 with spare := s1.spare + 1 } := fun p hp => logEvent_keeps hp ..
    have href : s2.refBlock pa.toNat = none :=
      (hkeeps (·.refBlock pa.toNat) fun _ _ _ => rfl).trans ((hlife (·.refBlock pa.toNat) fun _ _ _ => rfl).trans hr)
    refine ⟨s2, ?_, ?_, ?_, ?_⟩
    · show execPatrolScrub pa none .uncorrectable s = _
      simp only [execPatrolScrub, hi, hh, hd, Bool.true_eq_false, Bool.false_eq_true, ne_eq, not_true_eq_false, or_self, if_true,
        if_false]
      rw [hpoison]
      show Host.Outcome.next (match s2.refBlock pa.toNat with
        | some (n, i) => scrubReference s2 n i
        | none => s2) = _
      rw [href]
    · rw [hkeeps State.poison fun _ _ _ => rfl]
      exact mem_addOnce.2 (.inl rfl)
    · rw [hkeeps State.mem fun _ _ _ => rfl]
      exact hlife State.mem fun _ _ _ => rfl
    · exact logEvent_records _ (show (5 : BitVec 8) ≠ 0 by decide)
  · have hmine : ofEpoch e (lineNo pa.toNat) x = true := by simp [ofEpoch, hl, ht]
    have hany := List.any_eq_true.2 ⟨x, hx, hmine⟩
    refine ⟨scrubbedPool s e pa, ?_, ?_, ?_, ?_⟩
    · show execPatrolScrub pa (some e) .uncorrectable s = _
      rw [execPatrolScrub_pool]
      simp only [hi, hh, hd, hany, Bool.true_eq_false, Bool.false_eq_true, ne_eq, not_true_eq_false, or_self, if_false]
    · rw [scrubbedPool_keeps (fun s => s.epoch e) (fun _ _ _ => rfl) (fun _ _ => rfl)]
      exact congrArg Epoch.poisoned (tget_tset_self _ _ _ _)
    · rw [scrubbedPool_keeps (fun t => t.slice (s.homeOf pa.toNat)) (fun _ _ _ => rfl) (fun _ _ => rfl)]
      refine (congrArg ({ x with poisoned := true } ∈ Slice.pool ·) (slice_setSlice_self s (s.homeOf pa.toNat) _)).mpr ?_
      exact List.mem_map.2 ⟨x, hx, if_pos hmine⟩
    · exact scrubbedPool_keeps State.mem (fun _ _ _ => rfl) (fun _ _ => rfl) s e pa

/-- Settles O47: the gating of units and the patrol scrub. -/
theorem gatingAndPatrolResult : Obligations.GatingAndPatrolResult :=
  ⟨gatingResult, patrolScrubResult⟩

/-! ## Page walks and shootdowns -/

theorem walker_eq_walkOf {s : State} (st : TlbStruct) {ctx v : Nat} {c : Context} (hc : s.ctx? ctx = some c) (hv : v < 2 ^ 56) :
    walker s st ctx v = walkOf s st ctx v := by
  simp only [walker, walkOf, hc, if_neg (Nat.not_le.2 hv), Option.map_some, Option.getD_some]

theorem pageWalkResult : PageWalkResult := by
  refine fun st ctx v s c hc => ⟨fun hv => ?_, fun hv s1 w hw => ?_⟩
  · show execPageWalk st ctx v s = _
    simp only [execPageWalk, hc, if_pos hv]
  · have hx : walker s st ctx v.toNat = (s1, w) := (walker_eq_walkOf st hc hv).trans hw
    have he : exec (.pageWalk st ctx v) s = execPageWalk st ctx v s := rfl
    simp only [he, execPageWalk, hc, if_neg (Nat.not_le.2 hv), hx]
    refine ⟨?_, ?_, ?_, ?_, ?_, ?_⟩
    · rintro l a e rfl hm hf
      simp only [hm, hf, Bool.false_eq_true, or_self, if_false]
    · rintro l a e rfl hm
      simp only [hm, true_or, if_true]
    · rintro rfl; rfl
    · rintro pa rfl; rfl
    · rintro rfl; rfl
    · rintro x pa rfl; rfl

theorem shootdownDropsEntries : ShootdownDropsEntries := by
  refine fun id st s x hx hst => ⟨fun hc => ⟨{ dropTlb s st x.asid x.lo x.hi with
      shoots := s.shoots.map fun y => if y.id = id then { y with todo := y.todo.erase st, acks := y.acks ++ [st] } else y }, ?_⟩,
    fun c hst' hb hw => ?_⟩
  · have hcont : x.todo.contains st = true := List.contains_iff_mem.2 hst
    have hid : x.id = id := by simpa using List.find?_some hx
    refine ⟨?_, fun e he hes hea => ?_, fun e he hea => ?_, ?_, rfl⟩
    · show execShootdown id st s = _
      simp only [execShootdown, hx, hcont, Bool.true_eq_false, if_false]
      cases st with
      | core c => exact absurd rfl (hc c)
      | _ => rfl
    · have := (List.mem_filter.1 he).2
      simpa [hes, hea] using this
    · exact List.mem_filter.2 ⟨he, by simp [hea]⟩
    · exact List.mem_map.2 ⟨x, List.mem_of_find?_eq_some hx, if_pos hid⟩
  · subst hst'
    have hsb : sbInRange (dropTlb s (.core c) x.asid x.lo x.hi) c x.asid x.lo x.hi = [] := hb
    have hdrain : drainRange (dropTlb s (.core c) x.asid x.lo x.hi) c x.asid x.lo x.hi = dropTlb s (.core c) x.asid x.lo x.hi := by
      simp only [drainRange, hsb, List.foldl_nil]
    have hpark : parkTentative (dropTlb s (.core c) x.asid x.lo x.hi) c x.asid x.lo x.hi =
        dropTlb s (.core c) x.asid x.lo x.hi := by
      simp only [parkTentative, hsb, List.foldl_nil]
    have hsettled : coreSettled (dropTlb s (.core c) x.asid x.lo x.hi) c x.asid x.lo x.hi = true := by
      have hway : onTheWay (dropTlb s (.core c) x.asid x.lo x.hi) c x.asid x.lo x.hi = false := hw
      simp only [coreSettled, hsb, hway, List.all_nil, Bool.not_false, Bool.and_self]
    show execShootdown id (.core c) s = _
    simp only [execShootdown, hx, List.contains_iff_mem.2 hst, Bool.true_eq_false, if_false, hdrain, hpark, hsettled, if_true]
    rfl

/-- Settles O48: the walker's answers, one for each way a walk ends, and a structure's part of a shootdown. -/
theorem walkAndShootdownResult : Obligations.WalkAndShootdownResult :=
  ⟨pageWalkResult, shootdownDropsEntries⟩

end Sys2Proof.Machine
end

section
/-! PROOFS. Coherence: the requests, the home's part and a core's part of a transaction. -/

namespace Sys2Proof.Machine

open Sys2Proof.Claims

/-! ## What taking a message and marking a line leave -/

theorem dirEntry_setDir (s : State) (l : Nat) {d : DirEntry} (h : ¬(d.st = .i ∧ d.busy = none ∧ d.waiting = [])) :
    (s.setDir l d).dirEntry l = { d with used := s.dirClock } := by
  simp only [State.setDir, State.dirEntry, if_neg h, tget_tset_self]

theorem dirEntry_markDir (s : State) (l : Nat) {d : DirEntry} (h : ¬(d.st = .i ∧ d.busy = none ∧ d.waiting = [])) :
    (s.markDir l d).dirEntry l = d := by
  simp only [State.markDir, State.dirEntry, if_neg h, tget_tset_self]

section
variable {β : Type} {p : State → β}

theorem countUp_keeps (hp : ∀ s counters f v, p { s with counters := counters, flash := f, reeve := v } = p s)
    (s : State) (kind unit num n : Nat) : p (countUp s kind unit num n) = p s := by
  unfold countUp
  extract_lets k c v c1 s1
  have h1 : p s1 = p s := hp s _ s.flash s.reeve
  split
  · exact (logEvent_keeps (fun s f v => hp s s.counters f v) ..).trans h1
  · exact h1

theorem charge_keeps (hp : ∀ s regs, p { s with regs := regs } = p s) (s : State) (core pa n : Nat) :
    p (charge s core pa n) = p s := by
  have hpart : ∀ part, p (chargePart s part pa n) = p s := fun part => by
    unfold chargePart
    split
    · exact hp s _
    · rfl
  unfold charge
  split
  · exact hpart _
  · split
    · exact hpart _
    · rfl

theorem addHeat_keeps (hp : ∀ s heat, p { s with heat := heat } = p s) (s : State) (h pa : Nat) : p (addHeat s h pa) = p s := by
  unfold addHeat
  split
  · rfl
  · exact hp s _

/-- A read at a home leaves what is neither in the slice nor in the counts and notes of its traffic. -/
theorem homeRead_keeps (hp : ∀ s slices counters regs heat cores out f v, p { s with
      slices := slices, counters := counters, regs := regs, heat := heat, cores := cores, out := out
      flash := f, reeve := v } = p s)
    (s : State) (cls : RClass) (core attr pa : Nat) : p (homeRead s cls core attr pa) = p s := by
  have hslices : ∀ (s : State) h k, p (s.setSlice h k) = p s := fun s h k =>
    hp s _ s.counters s.regs s.heat s.cores s.out s.flash s.reeve
  have hregs : ∀ (s : State) regs, p { s with regs := regs } = p s := fun s regs =>
    hp s s.slices s.counters regs s.heat s.cores s.out s.flash s.reeve
  have hheat : ∀ (s : State) heat, p { s with heat := heat } = p s := fun s heat =>
    hp s s.slices s.counters s.regs heat s.cores s.out s.flash s.reeve
  have hcount : ∀ (s : State) kind unit num n, p (countUp s kind unit num n) = p s := fun s =>
    countUp_keeps (fun s c f v => hp s s.slices c s.regs s.heat s.cores s.out f v) s
  have hnotice : ∀ (s : State) l, p (missNotice s cls core l) = p s := fun s l => by
    unfold missNotice
    split
    · exact hp s s.slices s.counters s.regs s.heat _ _ s.flash s.reeve
    · rfl
  have hdrop : ∀ (s : State) h l, p (dropLine s h l) = p s := fun s h l => by
    unfold dropLine
    extract_lets sl s1
    split
    · exact (charge_keeps hregs ..).trans (hslices ..)
    · exact hslices ..
  have htouch : ∀ (s : State) h l d, p (touchLine s h l d) = p s := fun s h l d => by
    unfold touchLine
    extract_lets sl
    split
    · exact hslices ..
    · rfl
  have hfill : ∀ (s : State) h l w first joined dirty, p (startFill s h l w first joined dirty) = p s :=
    fun s h l w first joined dirty => by
    unfold startFill
    extract_lets sl f lines s1
    have h1 : p s1 = p s := (addHeat_keeps hheat ..).trans ((hcount ..).trans (hslices ..))
    split
    · exact (hcount ..).trans h1
    · exact h1
  unfold homeRead
  extract_lets h l sl far
  have hfar : p (far ()) = p s := by
    show p (match sl.hit l with
      | some _ => _
      | none => _) = p s
    split
    · split
      · exact hdrop ..
      · exact (hcount ..).trans (htouch ..)
    · split
      · split
        · rfl
        · exact hnotice ..
      · split
        · exact (hnotice ..).trans ((charge_keeps hregs ..).trans (hfill ..))
        · exact (charge_keeps hregs ..).trans (addHeat_keeps hheat ..)
  split
  · exact hfar
  · exact hfar
  · rfl

end

theorem atHome_arrived {kind : MsgKind} {c l : Nat} {s : State} {m : Msg} (h : ArrivesHome s kind c l m)
    (act : State → Msg → State) : atHome kind c l s act = .next (act (takeMsg s m) m) := by
  simp only [atHome, h.oldest, h.kind, if_true]

theorem atCore_arrived {kind : MsgKind} {c l : Nat} {s : State} {m : Msg} (h : s.toCore kind c l = some m)
    (act : State → Msg → State) : atCore kind c l s act = .next (act (takeMsg s m) m) := by
  simp only [atCore, h]

theorem requestAtHome_eq {kind : MsgKind} {c l : Nat} {s : State} {m : Msg} (h : ArrivesHome s kind c l m) :
    (s.coreStatus c (128 * l) ≠ 0 → requestAtHome kind c l s =
      .next (rejectMiss (takeMsg s m) c l (decide (kind ≠ .getS)) (s.coreStatus c (128 * l)))) ∧
    (s.coreStatus c (128 * l) = 0 → s.isHeld (128 * l) = true →
      requestAtHome kind c l s = .next (forgetMiss (takeMsg s m) c l)) ∧
    (s.coreStatus c (128 * l) = 0 → s.isHeld (128 * l) = false → s.commonsAddr (128 * l) = false →
      requestAtHome kind c l s = .next (if (s.dirEntry l).busy.isSome then
          (takeMsg s m).markDir l { s.dirEntry l with waiting := (s.dirEntry l).waiting ++ [m] }
        else tryServe ((takeMsg s m).setDir l { s.dirEntry l with waiting := (s.dirEntry l).waiting ++ [m] }) l)) := by
  refine ⟨fun hs => ?_, fun hs hh => ?_, fun hs hh hc => ?_⟩
  · simp only [requestAtHome, h.oldest, h.kind, hs, ne_eq, not_true_eq_false, not_false_eq_true, if_true, if_false]
  · simp only [requestAtHome, h.oldest, h.kind, hs, hh, ne_eq, not_true_eq_false, if_true, if_false]
  · simp only [requestAtHome, h.oldest, h.kind, hs, hh, hc, ne_eq, not_true_eq_false, Bool.false_eq_true, if_false]
    rfl

theorem exec_requestRow {row : (Nat → Nat → Instr) × MsgKind × Bool} (h : row ∈ requestRows) (c l : Nat) (s : State) :
    exec (row.1 c l) s = requestAtHome row.2.1 c l s ∧ row.2.2 = decide (row.2.1 ≠ .getS) := by
  simp only [requestRows, List.mem_cons, List.not_mem_nil, or_false] at h
  obtain rfl | rfl | rfl := h <;> exact ⟨rfl, rfl⟩

theorem toHome_src {s : State} {c l : Nat} {m : Msg} (h : s.toHome c l = some m) : m.src = some c := by
  have := List.find?_some h
  simp only [Bool.and_eq_true, decide_eq_true_eq] at this
  exact this.1.1.1

/-- The state in which a request waits alone in the queue of its line's entry. -/
def dirAsked (s : State) (l : Nat) (m : Msg) : State := (takeMsg s m).setDir l { s.dirEntry l with waiting := [m] }

/-- The state in which the request has been taken from the queue. -/
def dirTaken (s : State) (l : Nat) (m : Msg) : State :=
  (dirAsked s l m).setDir l { (dirAsked s l m).dirEntry l with waiting := [] }

theorem filter_tdel_other {α : Type} (t : Table α) (k : Nat) (q : Nat × α → Bool) (h : ∀ v, q (k, v) = false) :
    (tdel t k).filter q = t.filter q := by
  unfold tdel
  rw [List.filter_filter]
  refine List.filter_congr fun e _ => ?_
  by_cases he : e.1 = k
  · rw [show e = (k, e.2) from he ▸ rfl, h]; rfl
  · simp [he]

theorem filter_tput_other {α : Type} (t : Table α) (k : Nat) (v : α) (q : Nat × α → Bool) (h : ∀ v, q (k, v) = false) :
    (tput t k v).filter q = t.filter q := by
  induction t with
  | nil => simp [tput, h]
  | cons e t ih =>
    obtain ⟨a, w⟩ := e
    by_cases h1 : a < k
    · simp only [tput, if_pos h1, List.filter_cons, ih]
    · by_cases h2 : a = k
      · subst h2; simp [tput, h]
      · simp [tput, h1, h2, h]

theorem filter_tset_other {α : Type} [DecidableEq α] (d : α) (t : Table α) (k : Nat) (v : α) (q : Nat × α → Bool)
    (h : ∀ v, q (k, v) = false) : (tset d t k v).filter q = t.filter q := by
  unfold tset
  split
  · exact filter_tdel_other t k q h
  · exact filter_tput_other t k v q h

theorem dirRivals_setDir (s : State) (l : Nat) (d : DirEntry) : (s.setDir l d).dirRivals l = s.dirRivals l :=
  filter_tset_other _ _ _ _ _ fun v => by simp

theorem dirAsked_entry (s : State) (l : Nat) (m : Msg) :
    (dirAsked s l m).dirEntry l = { s.dirEntry l with waiting := [m], used := s.dirClock } :=
  dirEntry_setDir _ _ (by simp)

theorem dirAsked_free (s : State) (l : Nat) (m : Msg) : (dirAsked s l m).dirFree l = s.dirFree l := by
  rw [State.dirFree, State.dirFree, dirAsked_entry, dirAsked, dirRivals_setDir]
  rfl

theorem dirTaken_st (s : State) (l : Nat) (m : Msg) : ((dirTaken s l m).dirEntry l).st = (s.dirEntry l).st := by
  have hst : ((dirAsked s l m).dirEntry l).st = (s.dirEntry l).st := by rw [dirAsked_entry]
  rw [← hst]
  by_cases h : ((dirAsked s l m).dirEntry l).st = .i ∧ ((dirAsked s l m).dirEntry l).busy = none
  · have hreset : (dirTaken s l m).dirEntry l = DirEntry.reset := by
      simp only [dirTaken, State.setDir, State.dirEntry] at h ⊢
      rw [if_pos ⟨h.1, h.2, trivial⟩, tget_tset_self]
    rw [hreset, h.1]; rfl
  · have hset := dirEntry_setDir (dirAsked s l m) l (d := { (dirAsked s l m).dirEntry l with waiting := [] })
      fun hx => h ⟨hx.1, hx.2.1⟩
    exact (congrArg DirEntry.st hset :)

theorem dirTaken_net (s : State) (l : Nat) (m : Msg) : (dirTaken s l m).net = s.net.erase m := rfl

theorem dirTaken_mem (s : State) (l : Nat) (m : Msg) : (dirTaken s l m).mem = s.mem := rfl

theorem tryServe_first {s : State} {l c : Nat} {m : Msg} (hb : (s.dirEntry l).busy = none) (hm : m.src = some c)
    (hs : s.coreStatus c (128 * l) = 0) (hh : s.isHeld (128 * l) = false) (hf : s.dirFree l = true) :
    tryServe (dirAsked s l m) l = beginTxn (dirTaken s l m) l c m := by
  have hwait : ((dirAsked s l m).dirEntry l).waiting = [m] := by rw [dirAsked_entry]
  have hbusy : ((dirAsked s l m).dirEntry l).busy = none := by rw [dirAsked_entry]; exact hb
  have hfree : (dirAsked s l m).dirFree l = true := (dirAsked_free s l m).trans hf
  have hs' : (dirAsked s l m).coreStatus c (128 * l) = 0 := hs
  have hh' : (dirAsked s l m).isHeld (128 * l) = false := hh
  have hserve : tryServe (dirAsked s l m) l = serveList l [m] (dirAsked s l m) := by
    simp only [tryServe, hwait, hbusy, hfree, Option.isSome_none, List.isEmpty_cons, Bool.or_self, Bool.false_eq_true, if_false,
      if_true]
  rw [hserve, serveList]
  simp only [hm, Option.getD_some, hs', hh', ne_eq, not_true_eq_false, Bool.false_eq_true, if_false]
  rfl

/-- The transaction of a request for a line that core `o` owns. -/
def ownedTxn (o c : Nat) (m : Msg) : Txn :=
  { core := some c, grant := grantOf (.owned o) m c, owner := some o, put := none, acks := 0,
    copy := !decide (m.kind ≠ .getS), done := false }

theorem beginTxn_owned {s : State} {l c o : Nat} {m : Msg} (ho : (s.dirEntry l).st = .owned o) (hoc : o ≠ c) :
    beginTxn (dirTaken s l m) l c m = send ((dirTaken s l m).setDir l { (dirTaken s l m).dirEntry l with
      busy := some (ownedTxn o c m) })
      (mkMsg (if decide (m.kind ≠ .getS) then .fwdGetM else .fwdGetS) l none (some o) (some c) 0 0 false (grantOf (.owned o) m c)) := by
  have hst := (dirTaken_st s l m).trans ho
  simp only [beginTxn, hst, hoc, if_false, Option.isSome_some, Bool.true_and]
  rfl

/-- The transaction of a request for a line that no core has. -/
def freeTxn (c : Nat) (m : Msg) : Txn :=
  { core := some c, grant := grantOf .i m c, owner := none, put := none, acks := 0, copy := false, done := false }

/-- The state in which the home has read a line that no core has for a request. -/
def dirGranted (s : State) (l c : Nat) (m : Msg) : State :=
  homeData ((dirTaken s l m).setDir l { (dirTaken s l m).dirEntry l with st := .i, busy := some (freeTxn c m) }) m c

theorem dirGranted_net (s : State) (l c : Nat) (m : Msg) : (dirGranted s l c m).net = s.net.erase m :=
  (homeRead_keeps (p := State.net) (fun _ _ _ _ _ _ _ _ _ => rfl) ..).trans (dirTaken_net s l m)

theorem dirGranted_mem (s : State) (l c : Nat) (m : Msg) : (dirGranted s l c m).mem = s.mem :=
  (homeRead_keeps (p := State.mem) (fun _ _ _ _ _ _ _ _ _ => rfl) ..).trans (dirTaken_mem s l m)

theorem dirGranted_line (s : State) (l c : Nat) (m : Msg) : (dirGranted s l c m).memLine l = s.memLine l := by
  unfold State.memLine State.byte
  rw [dirGranted_mem]

theorem beginTxn_free {s : State} {l c : Nat} {m : Msg} (hi : (s.dirEntry l).st = .i) :
    beginTxn (dirTaken s l m) l c m = send (dirGranted s l c m)
      (mkMsg .data l none (some c) (some c) ((dirGranted s l c m).memLine l) 0 false (grantOf .i m c)) := by
  have hst := (dirTaken_st s l m).trans hi
  simp only [beginTxn, hst, State.sharers, ite_self, List.foldl_nil, List.length_nil, Option.isSome_none, Bool.false_and]
  rfl

theorem coherenceRequestResult : CoherenceRequestResult := by
  intro row hrow c l s m h
  obtain ⟨hexec, hexcl⟩ := exec_requestRow hrow c l s
  rw [hexec, hexcl]
  obtain ⟨hrej, hheld, hreq⟩ := requestAtHome_eq h
  refine ⟨hrej, hheld, fun hs hh hc => ⟨fun hb => ?_, fun hb => ?_, fun hb hw hf => ?_⟩⟩
  · rw [hreq hs hh hc, if_pos hb]
  · rw [hreq hs hh hc, hb]
    simp only [Option.isSome_none, Bool.false_eq_true, if_false]
  · have hask : requestAtHome row.2.1 c l s = .next (tryServe (dirAsked s l m) l) := by
      rw [hreq hs hh hc, if_neg (by simp [hb]), hw]; rfl
    rw [hask, tryServe_first hb (toHome_src h.oldest) hs hh hf]
    refine ⟨fun o ho hoc => ?_, fun hi => ?_⟩
    · rw [beginTxn_owned ho hoc, h.kind]
      exact ⟨_, _, rfl, congrArg (· ++ _) (dirTaken_net s l m), rfl, rfl, rfl, dirTaken_mem s l m⟩
    · rw [beginTxn_free hi]
      refine ⟨_, _, rfl, congrArg (· ++ _) (dirGranted_net s l c m), rfl, rfl, dirGranted_line s l c m, rfl, ?_,
        dirGranted_mem s l c m⟩
      show grantOf .i m c = _
      simp only [grantOf, h.kind, decide_eq_true_eq]

theorem sliceTakes_net (s : State) (l : Nat) (d : Line) : (sliceTakes s l d).net = s.net := by
  obtain ⟨_, _, _, _, _, _, _, _, _, _, _, h, -⟩ := homeWrite_only s .core 0 (128 * l) 128
  show (homeWrite s .core 0 (128 * l) 128).net = _
  rw [h]

theorem sliceTakes_byte (s : State) (l : Nat) (d : Line) {i : Nat} (h : i < 128) :
    (sliceTakes s l d).byte (128 * l + i) = lineByte d i := by
  show tget 0 (putBytes _ _ _) _ = _
  rw [tget_putBytes, if_pos (by simp; omega)]
  simp [List.getD, h]

/-- The state in which the home has taken the line that it held for a transaction, when the message says that it was dirty. -/
def flightTaken (s : State) (l : Nat) (m : Msg) (x : Txn) : State :=
  match m.dirty, x.put with
  | true, some d => sliceTakes (takeMsg s m) l d
  | _, _ => takeMsg s m

theorem flightTaken_net (s : State) (l : Nat) (m : Msg) (x : Txn) : (flightTaken s l m x).net = s.net.erase m := by
  unfold flightTaken
  split
  · exact sliceTakes_net ..
  · rfl

/-- A transaction whose line its old owner no longer has. -/
def landed (x : Txn) : Txn := { x with owner := none, put := none, copy := false }

/-- The home answers the requester of a transaction itself. -/
def flightAnswered (s : State) (l r : Nat) (x : Txn) : State :=
  let s2 := homeData s (mkMsg .getS l (some r) none (some r) 0 0 false (if x.grant = .s then .s else .e)) r
  send (s2.markDir l { s2.dirEntry l with busy := some (landed x) })
    (mkMsg .data l none (some r) (some r) (s2.memLine l) 0 false x.grant)

theorem homeData_net (s : State) (m : Msg) (r : Nat) : (homeData s m r).net = s.net :=
  homeRead_keeps (p := State.net) (fun _ _ _ _ _ _ _ _ _ => rfl) ..

theorem homeData_mem (s : State) (m : Msg) (r : Nat) : (homeData s m r).mem = s.mem :=
  homeRead_keeps (p := State.mem) (fun _ _ _ _ _ _ _ _ _ => rfl) ..

theorem flightAnswered_net (s : State) (l r : Nat) (m : Msg) (x : Txn) :
    (flightAnswered (flightTaken s l m x) l r x).net = s.net.erase m ++
      [mkMsg .data l none (some r) (some r) ((flightAnswered (flightTaken s l m x) l r x).memLine l) 0 false x.grant] := by
  unfold flightAnswered
  simp only [send, State.markDir, homeData_net, flightTaken_net]
  rfl

theorem flightAnswered_mem (s : State) (l r : Nat) (x : Txn) : (flightAnswered s l r x).mem = s.mem := by
  unfold flightAnswered
  simp only [send, State.markDir, homeData_mem]

theorem flightAnswered_byte (s : State) (l r : Nat) {m : Msg} {x : Txn} {d : Line} (hd : m.dirty = true) (hp : x.put = some d)
    {i : Nat} (hi : i < 128) : (flightAnswered (flightTaken s l m x) l r x).byte (128 * l + i) = lineByte d i := by
  have htaken : flightTaken s l m x = sliceTakes (takeMsg s m) l d := by simp only [flightTaken, hd, hp]
  rw [htaken]
  exact (State.byte_congr (flightAnswered_mem ..) _).trans (sliceTakes_byte _ l d hi)

theorem dataInFlight_answered {c l r : Nat} {s : State} {m : Msg} {x : Txn} (h : ArrivesHome s .dataInFlight c l m)
    (hb : (s.dirEntry l).busy = some x) (hv : s.victimBusy l = false) (hr : x.core = some r) :
    exec (.datainflight c l) s = .next (resumeFolest (flightAnswered (flightTaken s l m x) l r x)) := by
  show execDatainflight c l s = _
  simp only [execDatainflight, dataInFlightArrives, hv, Bool.false_eq_true, if_false, atHome_arrived h,
    show (takeMsg s m).dirEntry l = s.dirEntry l from rfl, hb, hr, resumed, flightAnswered, landed]
  rfl

theorem doneMsg_settles {c l : Nat} {s : State} {m : Msg} {x : Txn} (h : ArrivesHome s .done c l m)
    (hb : (s.dirEntry l).busy = some x) (hx : x.core = some c) (hc : x.copy = false) (ha : x.acks = 0) :
    exec (.doneMsg c l) s = .next (resumeFolest (settleDir (takeMsg s m) l (doneState (s.dirEntry l) x))) := by
  show execDoneMsg c l s = _
  simp only [execDoneMsg, doneArrives, atHome_arrived h, show (takeMsg s m).dirEntry l = s.dirEntry l from rfl, hb, hx, ne_eq,
    not_true_eq_false, if_false, resumed, progress, hc, ha, Bool.true_or, Bool.not_false, decide_true, Bool.and_self, if_true]
  simp only [doneState, hx]

theorem doneMsg_waits {c l : Nat} {s : State} {m : Msg} {x : Txn} (h : ArrivesHome s .done c l m)
    (hb : (s.dirEntry l).busy = some x) (hx : x.core = some c) (hc : x.copy = true ∨ x.acks ≠ 0) :
    exec (.doneMsg c l) s = .next (resumeFolest ((takeMsg s m).markDir l
      { s.dirEntry l with busy := some { x with done := true } })) := by
  have hpart : (!x.copy && decide (x.acks = 0)) = false := by
    obtain hc | hc := hc <;> simp [hc]
  show execDoneMsg c l s = _
  simp only [execDoneMsg, doneArrives, atHome_arrived h, show (takeMsg s m).dirEntry l = s.dirEntry l from rfl, hb, hx, ne_eq,
    not_true_eq_false, if_false, resumed, progress, Bool.true_or, Bool.true_and, hpart, Bool.false_eq_true]

theorem coherenceHomeResult : CoherenceHomeResult := by
  refine ⟨fun c l s m h hst => ⟨fun hb => ?_, fun hb => ?_⟩, fun c l s m h hst => ⟨fun hb hv => ?_, fun x hb => ?_⟩,
    fun c l s m x h hb hx hv => ?_, fun c l s m x h hb hv => ⟨fun r hr => ?_, fun hr hm => ?_⟩,
    fun c l s m x h hb hx => ⟨fun hc ha => ?_, fun hc => ?_⟩⟩
  · show execPute c l s = _
    rw [execPute, atHome_arrived h]
    simp only [show (takeMsg s m).dirEntry l = s.dirEntry l from rfl, hb, hst, if_true]
  · show execPute c l s = _
    obtain ⟨x, hx⟩ := Option.isSome_iff_exists.1 hb
    rw [execPute, atHome_arrived h]
    simp only [show (takeMsg s m).dirEntry l = s.dirEntry l from rfl, hx, hst, if_true]
  · show execPutm c l s = _
    simp only [execPutm, hv, Bool.and_false, Bool.false_eq_true, if_false, atHome_arrived h, hb, hst, if_true]
  · show execPutm c l s = _
    simp only [execPutm, hb, Option.isNone_some, Bool.false_and, Bool.false_eq_true, if_false, atHome_arrived h, hst, if_true]
  · show execDatahome c l s = _
    simp only [execDatahome, dataHomeArrives, hv, Bool.false_eq_true, if_false, atHome_arrived h,
      show (takeMsg s m).dirEntry l = s.dirEntry l from rfl, hb, hx, if_true, resumed]
  · refine ⟨_, mkMsg .data l none (some r) (some r) ((flightAnswered (flightTaken s l m x) l r x).memLine l) 0 false x.grant,
      dataInFlight_answered h hb hv hr, ?_, rfl, rfl, rfl, rfl, rfl, ?_, fun d hd hp i hi => ?_⟩
    · exact flightAnswered_net ..
    · exact congrArg DirEntry.busy (dirEntry_markDir _ l (by simp))
    · exact flightAnswered_byte s l r hd hp hi
  · show execDatainflight c l s = _
    simp only [execDatainflight, dataInFlightArrives, hv, Bool.false_eq_true, if_false, atHome_arrived h,
      show (takeMsg s m).dirEntry l = s.dirEntry l from rfl, hb, hr, resumed]
    obtain hm | hm := hm
    · simp only [hm]
    · cases m.dirty <;> simp only [hm]
  · exact doneMsg_settles h hb hx hc ha
  · exact doneMsg_waits h hb hx hc

theorem dropCopy_net (l : Nat) (s : State) (c : Nat) : (dropCopy l s c).net = s.net := by
  unfold dropCopy
  split <;> rfl

theorem dropCopy_mem (l : Nat) (s : State) (c : Nat) : (dropCopy l s c).mem = s.mem := by
  unfold dropCopy
  split <;> rfl

theorem dropCopy_l1 (l : Nat) (s : State) (c : Nat) : tfind ((dropCopy l s c).core c).l1 l = none := by
  unfold dropCopy
  split
  · assumption
  · rw [wakeSpins_core, modCore_sb]
    exact tfind_tdel_self _ _

/-- The state in which a core that owned a line keeps it in S. -/
def keepShared (s : State) (c l : Nat) (d : Line) : State :=
  s.modCore c fun k => { k with l1 := tput k.l1 l { st := .s, data := d, commons := false } }

theorem keepShared_l1 (s : State) (c l : Nat) (d : Line) :
    tfind ((keepShared s c l d).core c).l1 l = some { st := .s, data := d, commons := false } := by
  rw [keepShared, modCore_sb]
  exact tfind_tput_self _ _ _

theorem coherenceCoreResult : CoherenceCoreResult := by
  refine ⟨fun c l s m h => ⟨fun hn => ?_, fun x hx hst => ?_⟩, fun c l s m d h ho => ?_, fun c l s m d h ho => ?_,
    fun row hrow c l s m h ho => ?_⟩
  · show execInvMsg c l s = _
    rw [execInvMsg, atCore_arrived h]
    simp only [show (takeMsg s m).core c = s.core c from rfl, hn]
    rfl
  · have hd : x.dirtyOwner = false := by simp [L1Line.dirtyOwner, hst]
    refine ⟨_, show execInvMsg c l s = .next (send (dropCopy l (takeMsg s m) c) (Claims.answer .invAck l c m.requester m.requester 0 false .s)) by
      rw [execInvMsg, atCore_arrived h]
      simp only [show (takeMsg s m).core c = s.core c from rfl, hx, hd, Bool.false_eq_true, if_false]
      rfl, ?_, ?_, ?_⟩
    · exact dropCopy_l1 l (takeMsg s m) c
    · exact dropCopy_mem l (takeMsg s m) c
    · exact congrArg (· ++ _) (dropCopy_net l (takeMsg s m) c)
  · have ho' : (takeMsg s m).owned? c l = some d := ho
    have hexec : exec (.fwdgets c l) s = .next (send (if m.requester.isSome then
          send (keepShared (takeMsg s m) c l d) (Claims.answer .data l c m.requester m.requester d false m.grant)
        else keepShared (takeMsg s m) c l d) (Claims.answer .dataHome l c none none d true .s)) := by
      show execFwdgets c l s = _
      rw [execFwdgets, atCore_arrived h]
      simp only [ho']
      rfl
    refine ⟨_, hexec, ?_, ?_, ?_⟩
    · rw [apply_ite (fun t => send t _), apply_ite (fun t => tfind (State.core t c).l1 l)]
      exact (ite_self _).trans (keepShared_l1 (takeMsg s m) c l d)
    · cases m.requester <;> simp [send, keepShared, takeMsg, State.modCore, State.setCore]
    · cases m.requester <;> rfl
  · have ho' : (takeMsg s m).owned? c l = some d := ho
    refine ⟨send (dropCopy l (takeMsg s m) c) (if m.requester.isSome then Claims.answer .data l c m.requester m.requester d false m.grant
        else Claims.answer .dataHome l c none none d true .s), show execFwdgetm c l s = _ by
      rw [execFwdgetm, atCore_arrived h]
      simp only [ho']
      cases m.requester <;> rfl, ?_, ?_, ?_⟩
    · exact dropCopy_l1 l (takeMsg s m) c
    · exact congrArg (· ++ _) (dropCopy_net l (takeMsg s m) c)
    · exact dropCopy_mem l (takeMsg s m) c
  · have ho' : (takeMsg s m).owned? c l = none := ho
    simp only [List.mem_cons, List.not_mem_nil, or_false] at hrow
    refine ⟨inFlight (takeMsg s m) c l, _, ?_, rfl, rfl, rfl, rfl, rfl, rfl⟩
    obtain rfl | rfl := hrow
    · show execFwdgets c l s = _
      rw [execFwdgets, atCore_arrived h]
      simp only [ho']
    · show execFwdgetm c l s = _
      rw [execFwdgetm, atCore_arrived h]
      simp only [ho']

/-! ## The end of a miss -/

/-- A core's miss register once the home's answer `m` has come. -/
def missAnswered (x : Mshr) (m : Msg) : Mshr := { x with grant := some m.grant, data := m.data, need := m.count }

/-- The state of a core's miss register. -/
def setMiss (s : State) (c l : Nat) (x : Mshr) : State := s.modCore c fun k => { k with mshr := tput k.mshr l x }

theorem setMiss_mshr (s : State) (c l : Nat) (x : Mshr) : tfind ((setMiss s c l x).core c).mshr l = some x := by
  rw [setMiss, modCore_sb]
  exact tfind_tput_self _ _ _

theorem setMiss_l1 (s : State) (c l : Nat) (x : Mshr) : ((setMiss s c l x).core c).l1 = (s.core c).l1 := by
  rw [setMiss, modCore_sb]

/-- The state in which a core holds the line of an ended miss. -/
def installed (s : State) (c l : Nat) (g : Mesi) (d : Line) : State :=
  s.modCore c fun k => { k with mshr := tdel k.mshr l, l1 := tput k.l1 l { st := g, data := d, commons := false } }

theorem installed_l1 (s : State) (c l : Nat) (g : Mesi) (d : Line) :
    tfind ((installed s c l g d).core c).l1 l = some { st := g, data := d, commons := false } := by
  rw [installed, modCore_sb]
  exact tfind_tput_self _ _ _

theorem installed_mshr (s : State) (c l : Nat) (g : Mesi) (d : Line) :
    tfind ((installed s c l g d).core c).mshr l = none := by
  rw [installed, modCore_sb]
  exact tfind_tdel_self _ _

/-- A miss whose pieces have all come ends: the line is installed and Done is sent. -/
theorem completeMiss_last {s : State} {c l : Nat} {x : Mshr} {g : Mesi} (hg : x.grant = some g) (hn : x.need ≤ x.got)
    (hc : s.commonsAddr (128 * l) = false) :
    ∃ t, completeMiss (setMiss s c l x) c l = t ∧
      tfind (t.core c).l1 l = some { st := g, data := x.data, commons := false } ∧ tfind (t.core c).mshr l = none ∧
      t.net = s.net ++ [Claims.answer .done l c none none 0 false .s] ∧ t.mem = s.mem := by
  have hc' : (setMiss s c l x).commonsAddr (128 * l) = false := hc
  refine ⟨send (installed (setMiss s c l x) c l g x.data) (Claims.answer .done l c none none 0 false .s), ?_, ?_, ?_, rfl, rfl⟩
  · simp only [completeMiss, setMiss_mshr, hg, Nat.not_lt.2 hn, if_false, hc', Bool.false_eq_true]
    rfl
  · exact installed_l1 (setMiss s c l x) c l g x.data
  · exact installed_mshr (setMiss s c l x) c l g x.data

/-- A miss that waits for more pieces keeps its register. -/
theorem completeMiss_waits (s : State) {c l : Nat} {x : Mshr} (h : x.grant = none ∨ x.got < x.need) :
    completeMiss (setMiss s c l x) c l = setMiss s c l x := by
  simp only [completeMiss, setMiss_mshr]
  obtain h | h := h
  · simp only [h]
  · cases x.grant <;> simp only [h, if_true]

theorem execDataMsg_some {c l : Nat} {s : State} {m : Msg} {x : Mshr} (h : s.toCore .data c l = some m)
    (hx : tfind (s.core c).mshr l = some x) (hr : (tfind (s.core c).l1 l).isSome = true ∨ l1Used (s.core c) < 512) :
    execDataMsg c l none s = .next (completeMiss (setMiss (takeMsg s m) c l (missAnswered x m)) c l) := by
  have hroom : ((tfind (s.core c).l1 l).isSome || decide (l1Used (s.core c) < 512)) = true := by simpa using hr
  simp only [execDataMsg, h, hroom, Bool.true_or, Bool.true_eq_false, if_false, hx]
  rfl

theorem execInvack_some {c l : Nat} {s : State} {m : Msg} {x : Mshr} (h : s.toCore .invAck c l = some m)
    (hx : tfind (s.core c).mshr l = some x) (hn : ∀ m', s.toHome c l = some m' → m'.kind ≠ .invAck) :
    execInvack c l s = .next (resumeFolest (completeMiss (setMiss (takeMsg s m) c l { x with got := x.got + 1 }) c l)) := by
  have hhome : ((s.toHome c l).filter fun m => decide (m.kind = .invAck)) = none := by
    cases hh : s.toHome c l with
    | none => rfl
    | some m' => simp [Option.filter, hn m' hh]
  simp only [execInvack, invAckArrives, hhome, atCore_arrived h, show (takeMsg s m).core c = s.core c from rfl, hx, resumed]
  rfl

theorem coherenceMissResult : CoherenceMissResult := by
  refine ⟨fun c l s m x h hx hr hc => ⟨fun hg => ?_, fun hg => ?_⟩, fun c l s m x h hb hx ha => ?_,
    fun c l s m x h hx hn hc => ⟨fun g hg hd => ?_, fun hg => ?_⟩⟩
  · obtain ⟨t, ht, hl1, hms, hnet, hmem⟩ := completeMiss_last (s := takeMsg s m) (c := c) (l := l) (x := missAnswered x m) rfl hg hc
    exact ⟨t, (execDataMsg_some h hx hr).trans (congrArg _ ht), hl1, hms, hnet, hmem⟩
  · refine ⟨_, (execDataMsg_some h hx hr).trans (congrArg _ (completeMiss_waits _ (.inr hg))), setMiss_mshr .., ?_, rfl⟩
    exact setMiss_l1 (takeMsg s m) c l _
  · show execInvack c l s = _
    simp only [execInvack, invAckArrives, h.oldest, Option.filter, h.kind, decide_true, if_true,
      hb, hx, Option.isNone_none, Bool.true_and, ha, resumed]
  · obtain ⟨t, ht, hl1, hms, hnet, hmem⟩ :=
      completeMiss_last (s := takeMsg s m) (c := c) (l := l) (x := { x with got := x.got + 1 }) hg hd hc
    exact ⟨t, (execInvack_some h hx hn).trans (congrArg (fun s => Host.Outcome.next (resumeFolest s)) ht), hl1, hms, hnet, hmem⟩
  · refine ⟨_, (execInvack_some h hx hn).trans (congrArg (fun s => Host.Outcome.next (resumeFolest s))
      (completeMiss_waits _ hg)), setMiss_mshr .., ?_, rfl⟩
    exact setMiss_l1 (takeMsg s m) c l _

/-- Settles O50: the home's part of coherence, message by message. -/
theorem coherenceRequestAndHomeResult : Obligations.CoherenceRequestAndHomeResult :=
  ⟨coherenceRequestResult, coherenceHomeResult⟩

/-- Settles O51: a core's part of coherence, its answers to the home and the end of its misses. -/
theorem coherenceCoreAndMissResult : Obligations.CoherenceCoreAndMissResult :=
  ⟨coherenceCoreResult, coherenceMissResult⟩

end Sys2Proof.Machine
end

section
/-! PROOFS. The Steward: the order of its checks, and that a refused command changes nothing. -/

namespace Sys2Proof.Machine

open Sys2Proof.Claims

/-! ## The checks of a request -/

section
variable {s : State} {mb cmd : Nat} {m : Mailbox} {body : State → Nat → List Byte → State}

/-- A request in turn for a module that has not failed comes to the checks of the context that it names. -/
theorem runCmd_checks {need : CtxNeed} {mask : List Nat} (ha : Asked s mb cmd m) (hs : cmdSpec cmd = some (need, mask))
    (hn : need ≠ .noCtx) (hp : s.power.st ≠ .failed) :
    (s.ctx? (msgCtx m.msg) = none →
      runCmd cmd mb s body = .next (respondGen s mb (tget 0 s.lastGen (msgCtx m.msg)) 0x0302 [])) ∧
    ∀ x, s.ctx? (msgCtx m.msg) = some x →
      (x.gen ≠ msgGen m.msg → runCmd cmd mb s body = .next (respondGen s mb x.gen 0x0302 [])) ∧
      (x.gen = msgGen m.msg →
        (x.state = .destroying → runCmd cmd mb s body = .next (respond s mb 0x0303 [])) ∧
        (x.state = .lost → need = .active → runCmd cmd mb s body = .next (respondGen s mb x.gen 0x0301 [])) ∧
        (x.state = .active ∨ (x.state = .lost ∧ need ≠ .active) → (s.part x.part).state = .down →
          runCmd cmd mb s body = .next (respond s mb 0x030F []))) := by
  refine ⟨fun hc => ?_, fun x hc => ⟨fun hg => ?_, fun hg => ⟨fun hx => ?_, fun hx hna => ?_, fun hx hd => ?_⟩⟩⟩
  · simp [runCmd, ha.box, ha.command, ha.idle, ha.unanswered, ha.turn, hs, hn, hp, hc]
  · simp [runCmd, ha.box, ha.command, ha.idle, ha.unanswered, ha.turn, hs, hn, hp, hc, hg]
  · simp [runCmd, ha.box, ha.command, ha.idle, ha.unanswered, ha.turn, hs, hn, hp, hc, hg, hx]
  · simp [runCmd, ha.box, ha.command, ha.idle, ha.unanswered, ha.turn, hs, hp, hc, hg, hx, hna]
  · have hstate : x.state ≠ .destroying ∧ ¬(x.state = .lost ∧ need = .active) := by
      obtain hx | ⟨hx, hna⟩ := hx <;> simp [*]
    simp [runCmd, ha.box, ha.command, ha.idle, ha.unanswered, ha.turn, hs, hn, hp, hc, hg, hstate, hd]

end

/-- A request in turn for STATION_REMOVE that does not wait yet runs as any other. -/
theorem execStationRemove_idle {mb : Nat} {s : State} {m : Mailbox} (h : Asked s mb 0x39 m) :
    ∃ body, execStationRemove mb s = runCmd 0x39 mb s body := by
  simp only [execStationRemove, h.box, h.idle, Bool.false_eq_true, false_and, if_false]
  exact ⟨_, rfl⟩

/-- A command that names a context runs through the checks of its row in *Table 13-2*; those of a row marked L also for a LOST
context. -/
theorem contextRow_spec {row : Nat × (Nat → Instr)} (h : row ∈ contextRows) :
    (∃ need mask, cmdSpec row.1 = some (need, mask) ∧ need ≠ .noCtx ∧ (need = .active ↔ row.1 ∉ lostRows)) ∧
    ∀ mb s m, Asked s mb row.1 m → ∃ body, exec (row.2 mb) s = runCmd row.1 mb s body := by
  simp only [contextRows, List.mem_cons, List.not_mem_nil, or_false] at h
  refine ⟨?_, fun mb s m ha => ?_⟩
  · rcases h with rfl | rfl | rfl | rfl | rfl | rfl | rfl | rfl | rfl | rfl | rfl | rfl | rfl | rfl | rfl | rfl | rfl | rfl | rfl |
      rfl | rfl | rfl | rfl | rfl | rfl | rfl | rfl | rfl | rfl
    all_goals exact ⟨_, _, rfl, by decide, by decide⟩
  · rcases h with rfl | rfl | rfl | rfl | rfl | rfl | rfl | rfl | rfl | rfl | rfl | rfl | rfl | rfl | rfl | rfl | rfl | rfl | rfl | 
      rfl | rfl | rfl | rfl | rfl | rfl | rfl | rfl | rfl | rfl
    · exact ⟨_, (rfl : execCtxDestroy mb s = _)⟩
    · exact ⟨_, (rfl : execCtxQuery mb s = _)⟩
    · exact ⟨_, (rfl : execCtxSet mb s = _)⟩
    · exact ⟨_, (rfl : execBellLogRead mb s = _)⟩
    · exact ⟨_, (rfl : execParkRead mb s = _)⟩
    · exact ⟨_, (rfl : execMemCreate mb s = _)⟩
    · exact ⟨_, (rfl : execMemMap mb s = _)⟩
    · exact ⟨_, (rfl : execMemUnmap mb s = _)⟩
    · exact ⟨_, (rfl : execMemShare mb s = _)⟩
    · exact ⟨_, (rfl : execMemRelease mb s = _)⟩
    · exact ⟨_, (rfl : execMemQuery mb s = _)⟩
    · exact ⟨_, (rfl : execCommonsFill mb s = _)⟩
    · exact ⟨_, (rfl : execQueueCreate mb s = _)⟩
    · exact ⟨_, (rfl : execQueueDestroy mb s = _)⟩
    · exact ⟨_, (rfl : execQueueDoorbell mb s = _)⟩
    · exact ⟨_, (rfl : execQueueQuery mb s = _)⟩
    · exact ⟨_, (rfl : execStationDeclare mb s = _)⟩
    · exact execStationRemove_idle ha
    · exact ⟨_, (rfl : execTallyAlloc mb s = _)⟩
    · exact ⟨_, (rfl : execTallyFree mb s = _)⟩
    · exact ⟨_, (rfl : execTallySet mb s = _)⟩
    · exact ⟨_, (rfl : execTallyExport mb s = _)⟩
    · exact ⟨_, (rfl : execTallyImport mb s = _)⟩
    · exact ⟨_, (rfl : execTallyRelease mb s = _)⟩
    · exact ⟨_, (rfl : execTallyQuery mb s = _)⟩
    · exact ⟨_, (rfl : execEpochAllot mb s = _)⟩
    · exact ⟨_, (rfl : execEpochReturn mb s = _)⟩
    · exact ⟨_, (rfl : execDebugResume mb s = _)⟩
    · exact ⟨_, (rfl : execTableRead mb s = _)⟩

/-- Settles O12: the checks are the branches of `runCmd`, in the order of R354. -/
theorem stewardChecksInOrder : Obligations.StewardChecksInOrder := by
  intro row hrow mb m s ha hp
  obtain ⟨⟨need, mask, hs, hn, hlost⟩, hexec⟩ := contextRow_spec hrow
  obtain ⟨body, hbody⟩ := hexec mb s m ha
  obtain ⟨hnone, hsome⟩ := runCmd_checks (body := body) ha hs hn hp
  rw [hbody]
  refine ⟨hnone, fun x hx => ?_⟩
  obtain ⟨hgen, hrest⟩ := hsome x hx
  refine ⟨hgen, fun hg => ?_⟩
  obtain ⟨hd, hl, hdown⟩ := hrest hg
  exact ⟨hd, fun h1 h2 => hl h1 (hlost.2 h2),
    fun h1 => hdown (h1.imp_right fun h => ⟨h.1, fun ha => hlost.1 ha h.2⟩)⟩

/-! ## What a refused command changes -/

/-- The next state is the old one, the old one with a refusal in it, or one with a response of STATUS 0. -/
def Plain (s : State) (mb : Nat) (t : State) : Prop :=
  t = s ∨ (∃ st g, st ≠ 0 ∧ t = respondGen s mb g st []) ∨ ∃ s1 out, t = respond s1 mb 0 out

@[simp] theorem plain_self (s : State) (mb : Nat) : Plain s mb s := .inl rfl

@[simp] theorem plain_done (s s1 : State) (mb : Nat) (out : List Byte) : Plain s mb (respond s1 mb 0#16 out) :=
  .inr (.inr ⟨_, _, rfl⟩)

theorem plain_refusedGen {st : W16} (h : st ≠ 0) (s : State) (mb g : Nat) : Plain s mb (respondGen s mb g st []) :=
  .inr (.inl ⟨_, _, h, rfl⟩)

@[simp] theorem plain_refused {st : W16} (h : st ≠ 0#16) (s : State) (mb : Nat) : Plain s mb (respond s mb st []) :=
  plain_refusedGen h ..

theorem plain_ownTally {s : State} {mb c h : Nat} {act : Nat → State} (hact : ∀ n, Plain s mb (act n)) :
    Plain s mb (ownTally s mb c h act) := by
  unfold ownTally
  split
  · simp
  · split
    · exact hact _
    · simp

theorem runCmd_plain {s t : State} {mb cmd : Nat} {body : State → Nat → List Byte → State}
    (hbody : ∀ c pl, Plain s mb (body s c pl)) (ht : runCmd cmd mb s body = .next t) : Plain s mb t := by
  have hself : Plain s mb s := plain_self s mb
  have hgen : ∀ st g, st ≠ 0 → Plain s mb (respondGen s mb g st []) := fun st g h => plain_refusedGen h s mb g
  have href : ∀ st, st ≠ 0 → Plain s mb (respond s mb st []) := fun st h => plain_refused h s mb
  unfold runCmd at ht
  split at ht
  · cases ht; exact hself
  · split at ht
    · cases ht; exact hself
    · split at ht
      · cases ht; exact hself
      · extract_lets c last lost at ht
        split at ht
        · cases ht; exact href _ (by decide)
        · split at ht
          · cases ht; exact hbody ..
          · split at ht
            · cases ht; exact hgen _ _ (by decide)
            · split at ht
              · cases ht; exact hgen _ _ (by decide)
              · split at ht
                · cases ht; exact href _ (by decide)
                · split at ht
                  · cases ht; exact hgen _ _ (by decide)
                  · split at ht
                    · cases ht; exact href _ (by decide)
                    · cases ht; exact hbody ..

/-- A command runs through the Steward's checks, and its body refuses or answers as R355 says. -/
def RunsPlain (cmd mb : Nat) (s : State) (r : Host.Outcome State Fault Refusal) : Prop :=
  ∃ body, r = runCmd cmd mb s body ∧ ∀ c pl, Plain s mb (body s c pl)

section
variable (mb : Nat) (s : State)

theorem capRead_plain : RunsPlain 0x01 mb s (execCapRead mb s) := by
  refine ⟨_, rfl, fun c pl => ?_⟩
  all_goals simp

theorem noticeAck_plain : RunsPlain 0x02 mb s (execNoticeAck mb s) := by
  refine ⟨_, rfl, fun c pl => ?_⟩
  repeat' split
  all_goals simp

theorem sessionGrace_plain : RunsPlain 0x03 mb s (execSessionGrace mb s) := by
  refine ⟨_, rfl, fun c pl => ?_⟩
  dsimp only
  all_goals simp

theorem ctxCreate_plain : RunsPlain 0x10 mb s (execCtxCreate mb s) := by
  refine ⟨_, rfl, fun c pl => ?_⟩
  dsimp only
  repeat' split
  all_goals simp

theorem ctxQuery_plain : RunsPlain 0x12 mb s (execCtxQuery mb s) := by
  refine ⟨_, rfl, fun c pl => ?_⟩
  repeat' split
  all_goals simp

theorem ctxSet_plain : RunsPlain 0x13 mb s (execCtxSet mb s) := by
  refine ⟨_, rfl, fun c pl => ?_⟩
  dsimp only
  repeat' split
  all_goals simp

theorem bellLogRead_plain : RunsPlain 0x14 mb s (execBellLogRead mb s) := by
  refine ⟨_, rfl, fun c pl => ?_⟩
  dsimp only
  repeat' split
  all_goals simp

theorem parkRead_plain : RunsPlain 0x15 mb s (execParkRead mb s) := by
  refine ⟨_, rfl, fun c pl => ?_⟩
  dsimp only
  repeat' split
  all_goals simp

theorem memCreate_plain : RunsPlain 0x20 mb s (execMemCreate mb s) := by
  refine ⟨_, rfl, fun c pl => ?_⟩
  dsimp only
  repeat' split
  all_goals simp

theorem memMap_plain : RunsPlain 0x21 mb s (execMemMap mb s) := by
  refine ⟨_, rfl, fun c pl => ?_⟩
  dsimp only
  repeat' split
  all_goals simp

theorem memShare_plain : RunsPlain 0x23 mb s (execMemShare mb s) := by
  refine ⟨_, rfl, fun c pl => ?_⟩
  dsimp only
  split
  · simp
  · split
    · exact plain_refused ‹_› ..
    · split <;> simp

theorem memRelease_plain : RunsPlain 0x24 mb s (execMemRelease mb s) := by
  refine ⟨_, rfl, fun c pl => ?_⟩
  repeat' split
  all_goals simp

theorem memQuery_plain : RunsPlain 0x25 mb s (execMemQuery mb s) := by
  refine ⟨_, rfl, fun c pl => ?_⟩
  repeat' split
  all_goals simp

/-- The cases are taken before anything is reduced: a kernel that compares matches on the room would count down the block size. -/
theorem commonsCreate_plain : RunsPlain 0x28 mb s (execCommonsCreate mb s) := by
  refine ⟨_, rfl, fun c pl => ?_⟩
  extract_lets +onlyGivenNames n
  cases s.freeObjIndex with
  | none => exact plain_refused (st := 0x030C) (by decide) s mb
  | some i =>
    cases (if (s.groupsOfMode 12 4).length * groupBytes < n * 65536 then none else takeCommons s n) with
    | none => exact plain_refused (st := 0x0412) (by decide) s mb
    | some r => exact plain_done ..

theorem commonsSeal_plain : RunsPlain 0x2A mb s (execCommonsSeal mb s) := by
  refine ⟨_, rfl, fun c pl => ?_⟩
  split
  · simp
  · split
    · simp
    · exact plain_done ..

theorem commonsFree_plain : RunsPlain 0x2B mb s (execCommonsFree mb s) := by
  refine ⟨_, rfl, fun c pl => ?_⟩
  repeat' split
  all_goals simp

theorem queueCreate_plain : RunsPlain 0x30 mb s (execQueueCreate mb s) := by
  refine ⟨_, rfl, fun c pl => ?_⟩
  dsimp only
  repeat' split
  all_goals simp

theorem queueDestroy_plain : RunsPlain 0x31 mb s (execQueueDestroy mb s) := by
  refine ⟨_, rfl, fun c pl => ?_⟩
  dsimp only
  repeat' split
  all_goals simp

theorem queueQuery_plain : RunsPlain 0x33 mb s (execQueueQuery mb s) := by
  refine ⟨_, rfl, fun c pl => ?_⟩
  repeat' split
  all_goals simp

theorem stationDeclare_plain : RunsPlain 0x38 mb s (execStationDeclare mb s) := by
  refine ⟨_, rfl, fun c pl => ?_⟩
  dsimp only
  repeat' split
  all_goals simp

theorem tallyAlloc_plain : RunsPlain 0x40 mb s (execTallyAlloc mb s) := by
  refine ⟨_, rfl, fun c pl => ?_⟩
  dsimp only
  repeat' split
  all_goals simp

theorem tallyFree_plain : RunsPlain 0x41 mb s (execTallyFree mb s) := by
  refine ⟨_, rfl, fun c pl => ?_⟩
  exact plain_ownTally fun n => plain_done ..

theorem tallySet_plain : RunsPlain 0x42 mb s (execTallySet mb s) := by
  refine ⟨_, rfl, fun c pl => ?_⟩
  exact plain_ownTally fun n => plain_done ..

theorem tallyExport_plain : RunsPlain 0x43 mb s (execTallyExport mb s) := by
  refine ⟨_, rfl, fun c pl => ?_⟩
  refine plain_ownTally fun n => ?_
  dsimp only
  split
  · exact plain_refused ‹_› ..
  · exact plain_done ..

theorem tallyImport_plain : RunsPlain 0x44 mb s (execTallyImport mb s) := by
  refine ⟨_, rfl, fun c pl => ?_⟩
  dsimp only
  repeat' split
  all_goals simp

theorem tallyRelease_plain : RunsPlain 0x45 mb s (execTallyRelease mb s) := by
  refine ⟨_, rfl, fun c pl => ?_⟩
  dsimp only
  repeat' split
  all_goals simp

theorem tallyQuery_plain : RunsPlain 0x46 mb s (execTallyQuery mb s) := by
  refine ⟨_, rfl, fun c pl => ?_⟩
  repeat' split
  all_goals simp

theorem epochAllot_plain : RunsPlain 0x48 mb s (execEpochAllot mb s) := by
  refine ⟨_, rfl, fun c pl => ?_⟩
  dsimp only
  repeat' split
  all_goals simp

theorem epochReturn_plain : RunsPlain 0x49 mb s (execEpochReturn mb s) := by
  refine ⟨_, rfl, fun c pl => ?_⟩
  dsimp only
  repeat' split
  all_goals simp

theorem partPolicy_plain : RunsPlain 0x50 mb s (execPartPolicy mb s) := by
  refine ⟨_, rfl, fun c pl => ?_⟩
  dsimp only
  split
  · simp
  · split
    · simp
    · split
      · exact plain_refused ‹_› ..
      · exact plain_done ..

theorem partConfig_plain : RunsPlain 0x58 mb s (execPartConfig mb s) := by
  refine ⟨_, rfl, fun c pl => ?_⟩
  dsimp only
  split
  · simp
  · split
    · simp
    · split
      · exact plain_refused ‹_› ..
      · exact plain_done ..

theorem partResume_plain : RunsPlain 0x5A mb s (execPartResume mb s) := by
  refine ⟨_, rfl, fun c pl => ?_⟩
  dsimp only
  repeat' split
  all_goals simp

theorem partMoveHalls_plain : RunsPlain 0x5C mb s (execPartMoveHalls mb s) := by
  refine ⟨_, rfl, fun c pl => ?_⟩
  dsimp only
  repeat' split
  all_goals simp

theorem debugDump_plain : RunsPlain 0x60 mb s (execDebugDump mb s) := by
  refine ⟨_, rfl, fun c pl => ?_⟩
  dsimp only
  repeat' split
  all_goals simp

theorem debugResume_plain : RunsPlain 0x61 mb s (execDebugResume mb s) := by
  refine ⟨_, rfl, fun c pl => ?_⟩
  repeat' split
  all_goals simp

theorem tableRead_plain : RunsPlain 0x62 mb s (execTableRead mb s) := by
  refine ⟨_, rfl, fun c pl => ?_⟩
  repeat' split
  all_goals simp

end

theorem plainRow_body {row : Nat × (Nat → Instr)} (h : row ∈ plainRows) (mb : Nat) (s : State) :
    RunsPlain row.1 mb s (exec (row.2 mb) s) := by
  simp only [plainRows, List.mem_cons, List.not_mem_nil, or_false] at h
  rcases h with rfl | rfl | rfl | rfl | rfl | rfl | rfl | rfl | rfl | rfl | rfl | rfl | rfl | rfl | rfl | rfl | rfl | rfl | rfl | 
      rfl | rfl | rfl | rfl | rfl | rfl | rfl | rfl | rfl | rfl | rfl | rfl | rfl | rfl | rfl | rfl | rfl
  · exact capRead_plain mb s
  · exact noticeAck_plain mb s
  · exact sessionGrace_plain mb s
  · exact ctxCreate_plain mb s
  · exact ctxQuery_plain mb s
  · exact ctxSet_plain mb s
  · exact bellLogRead_plain mb s
  · exact parkRead_plain mb s
  · exact memCreate_plain mb s
  · exact memMap_plain mb s
  · exact memShare_plain mb s
  · exact memRelease_plain mb s
  · exact memQuery_plain mb s
  · exact commonsCreate_plain mb s
  · exact commonsSeal_plain mb s
  · exact commonsFree_plain mb s
  · exact queueCreate_plain mb s
  · exact queueDestroy_plain mb s
  · exact queueQuery_plain mb s
  · exact stationDeclare_plain mb s
  · exact tallyAlloc_plain mb s
  · exact tallyFree_plain mb s
  · exact tallySet_plain mb s
  · exact tallyExport_plain mb s
  · exact tallyImport_plain mb s
  · exact tallyRelease_plain mb s
  · exact tallyQuery_plain mb s
  · exact epochAllot_plain mb s
  · exact epochReturn_plain mb s
  · exact partPolicy_plain mb s
  · exact partConfig_plain mb s
  · exact partResume_plain mb s
  · exact partMoveHalls_plain mb s
  · exact debugDump_plain mb s
  · exact debugResume_plain mb s
  · exact tableRead_plain mb s

/-- Settles O13: the body of every row either refuses on the old state or answers with STATUS 0. -/
theorem refusedCommandsChangeNothing : Obligations.RefusedCommandsChangeNothing := by
  intro row hrow mb m s t _ ht
  obtain ⟨body, hexec, hbody⟩ := plainRow_body hrow mb s
  rw [hexec] at ht
  exact runCmd_plain hbody ht

end Sys2Proof.Machine
end

section
/-! PROOFS. The Steward's module and context commands, and those of the tallies and epochs. -/

namespace Sys2Proof.Machine

open Sys2Proof.Claims Sys2Proof.Laws

/-- A payload of four bytes fills half of its last word. -/
theorem pad8_leBytes_four (v : Nat) : pad8 (leBytes 4 v) = leBytes 4 v ++ zeros 4 := by
  rw [pad8, length_leBytes]

theorem moduleCommandsResult : ModuleCommandsResult := by
  refine fun mb pl s => ⟨fun h => ?_, fun h => ⟨fun tag n hn ht => ?_, fun hn => ?_⟩, fun h => ?_,
    fun h => ⟨fun hbad => ?_, fun hp hr hw hres hrec => ⟨fun hst => ?_, fun s1 v w hst ha => ?_⟩⟩, fun h => ⟨fun hc => ?_, fun hc hl => ?_⟩⟩
  · show execCapRead mb s = _
    rw [execCapRead, runCmd_noCtx _ rfl h]
  · show execNoticeAck mb s = _
    rw [execNoticeAck, runCmd_noCtx _ rfl h]
    simp only [hn, ht, if_true]
  · show execNoticeAck mb s = _
    rw [execNoticeAck, runCmd_noCtx _ rfl h]
    cases ho : s.noticeOut with
    | none => rfl
    | some x => simp only [if_neg (hn x.1 x.2 ho)]
  · show execSessionGrace mb s = _
    rw [execSessionGrace, runCmd_noCtx _ rfl h]
    simp only [pad8_leBytes_four]
  · show execPartPolicy mb s = _
    rw [execPartPolicy, runCmd_noCtx _ rfl h]
    simp only [hbad, if_true]
  · show execPartPolicy mb s = _
    rw [execPartPolicy, runCmd_noCtx _ rfl h]
    have hok : ¬(11 < le pl 0 1 ∨ 2 < le pl 1 1 ∨ 1 < le pl 2 1 ∨ 25 < le pl 3 1 ∨ (le pl 1 1 ≠ 2 ∧ le pl 3 1 ≠ 0)) := by omega
    simp only [hok, hst, if_true, if_false]
  · show execPartPolicy mb s = _
    rw [execPartPolicy, runCmd_noCtx _ rfl h]
    have hok : ¬(11 < le pl 0 1 ∨ 2 < le pl 1 1 ∨ 1 < le pl 2 1 ∨ 25 < le pl 3 1 ∨ (le pl 1 1 ≠ 2 ∧ le pl 3 1 ≠ 0)) := by omega
    have hup : ¬((s.part (le pl 0 1)).state = .unconfigured ∨ (s.part (le pl 0 1)).state = .down) := by
      obtain hst | hst := hst <;> simp [hst]
    simp only [hok, hup, ha, ne_eq, not_true_eq_false, if_false]
  · show execDebugDump mb s = _
    rw [execDebugDump, runCmd_noCtx _ rfl h]
    simp only [show Config.cores ≤ le pl 0 2 from hc, true_or, if_true]
  · show execDebugDump mb s = _
    rw [execDebugDump, runCmd_noCtx _ rfl h]
    simp only [Nat.not_le.2 (show le pl 0 2 < Config.cores from hc), Nat.not_le.2 hl, or_self, if_false]

theorem contextCommandsResult : ContextCommandsResult := by
  refine fun mb pl s => ⟨fun h n gen s1 s2 => ?_, fun c x => ⟨fun h => ?_, fun h => ?_,
    fun h hprio => ⟨fun hpin => ?_, fun hpin hfull => ?_⟩, fun h => ⟨fun hn => ?_, fun hn hn' => ?_⟩,
    fun h => ⟨fun hs => ?_, fun n st r hs hi hg hl hr => ?_⟩, fun h => ⟨fun hs => ?_, fun y r hs hr => ⟨fun h7 => ?_, fun h7 => ?_⟩⟩,
    fun h => ⟨fun hv => ?_, fun hv => ?_⟩⟩⟩
  · intro p hp hprio hwant hst hlow hgen hpin hfree hbuild
    show execCtxCreate mb s = _
    rw [execCtxCreate, runCmd_noCtx _ rfl h]
    have hok : ¬(11 < p ∨ 7 < le pl 1 1 ∨ 64 < le pl 3 1) := by omega
    have hup : ¬((s.part p).state = .unconfigured ∨ (s.part p).state = .down) := by
      obtain hst | hst := hst <;> simp [hst]
    have hroom : ¬(decide (le pl 2 1 = 1) = true ∧ 3 ≤ (s.pinnedIn p).length) := by
      simp only [decide_eq_true_eq, not_and, Nat.not_le]
      exact hpin
    simp only [p] at hok hup hroom hfree hbuild
    simp only [hok, hup, hlow, hgen, hroom, Nat.not_lt.2 hfree, hbuild, if_false, p]
  · show execCtxDestroy mb s = _
    rw [execCtxDestroy, runCmd_ctx _ rfl (by decide) h]
  · show execCtxQuery mb s = _
    rw [execCtxQuery, runCmd_ctx _ rfl (by decide) h]
    simp only [h.named]
  · show execCtxSet mb s = _
    rw [execCtxSet, runCmd_ctx _ rfl (by decide) h]
    have hroom : ¬(decide (le pl 1 1 = 1) = true ∧ 3 ≤ ((s.pinnedIn x.part).filter fun k => decide (k ≠ c)).length) := by
      simp only [decide_eq_true_eq]
      omega
    simp only [h.named, Nat.not_lt.2 hprio, hroom, if_false]
  · show execCtxSet mb s = _
    rw [execCtxSet, runCmd_ctx _ rfl (by decide) h]
    simp only [h.named, Nat.not_lt.2 hprio, hpin, hfull, decide_true, and_self, if_true, if_false]
  · show execBellLogRead mb s = _
    rw [execBellLogRead, runCmd_ctx _ rfl (by decide) h]
    simp only [h.named, hn, if_true]
  · show execBellLogRead mb s = _
    rw [execBellLogRead, runCmd_ctx _ rfl (by decide) h]
    have hok : ¬(le pl 8 2 = 0 ∨ 127 < le pl 8 2) := by omega
    simp only [h.named, hok, if_false]
  · show execParkRead mb s = _
    rw [execParkRead, runCmd_ctx _ rfl (by decide) h]
    simp only [hs]
  · show execParkRead mb s = _
    rw [execParkRead, runCmd_ctx _ rfl (by decide) h]
    simp only [hs, Nat.not_le.2 hi, Nat.not_le.2 hg, Nat.not_le.2 hl, or_self, if_false, hr]
  · show execDebugResume mb s = _
    rw [execDebugResume, runCmd_ctx _ rfl (by decide) h]
    simp only [hs]
  · show execDebugResume mb s = _
    rw [execDebugResume, runCmd_ctx _ rfl (by decide) h]
    simp only [hs, hr, h7, ne_eq, not_true_eq_false, if_false]
  · show execDebugResume mb s = _
    rw [execDebugResume, runCmd_ctx _ rfl (by decide) h]
    simp only [hs, hr, ne_eq, h7, not_false_eq_true, if_true]
  · show execTableRead mb s = _
    rw [execTableRead, runCmd_ctx _ rfl (by decide) h]
    simp only [h.named, hv, if_true]
  · show execTableRead mb s = _
    rw [execTableRead, runCmd_ctx _ rfl (by decide) h]
    simp only [h.named, Nat.not_le.2 hv, if_false]

/-- Settles O57: the module's commands and those of a context, each as the body of its command. -/
theorem moduleAndContextCommandsResult : Obligations.ModuleAndContextCommandsResult :=
  ⟨moduleCommandsResult, contextCommandsResult⟩

/-! ## Tallies and epochs -/

section
variable {mb c : Nat} {pl : List Byte} {s : State} {x : Context}

theorem ownTally_none {act : Nat → State} (h : s.tallyOf c (le pl 0 4) = none) :
    ownTally s mb c (le pl 0 4) act = respond s mb 0x0601 [] := by
  simp only [ownTally, h]

theorem ownTally_other {n : Nat} {act : Nat → State} (h : s.tallyOf c (le pl 0 4) = some n) (ho : (s.tally n).owner ≠ some c) :
    ownTally s mb c (le pl 0 4) act = respond s mb 0x0609 [] := by
  simp only [ownTally, h, if_neg ho]

theorem ownTally_own {n : Nat} {act : Nat → State} (h : Owns s c (le pl 0 4) n) : ownTally s mb c (le pl 0 4) act = act n := by
  simp only [ownTally, h.handle, if_pos h.owner]

/-- TALLY_FREE, TALLY_SET and TALLY_EXPORT act on a tally that the context owns. -/
theorem ownerRow_exec {row : Nat × (Nat → Instr)}
    (hrow : row ∈ ([(0x41, .tallyFree), (0x42, .tallySet), (0x43, .tallyExport)] : List (Nat × (Nat → Instr))))
    (h : AsksFor s mb row.1 pl c x) : ∃ act, exec (row.2 mb) s = .next (ownTally s mb c (le pl 0 4) act) := by
  simp only [List.mem_cons, List.not_mem_nil, or_false] at hrow
  obtain rfl | rfl | rfl := hrow
  · exact ⟨_, show execTallyFree mb s = _ from runCmd_ctx _ rfl (by decide) h⟩
  · exact ⟨_, show execTallySet mb s = _ from runCmd_ctx _ rfl (by decide) h⟩
  · exact ⟨_, show execTallyExport mb s = _ from runCmd_ctx _ rfl (by decide) h⟩

end

/-- Settles O14: each command's body, under what its checks read. -/
theorem tallyAndEpochCommandsResult : Obligations.TallyAndEpochCommandsResult := by
  refine fun mb pl s c x => ⟨fun h => ⟨fun hq => ?_, fun n hq hf => ?_⟩, fun h n ho => ⟨fun hi => ?_, fun hi => ?_⟩,
    fun h n ho => ?_, fun h n ho => ⟨fun ht => ?_, fun ht => ?_⟩, fun row hrow h => ⟨fun ht => ?_, fun n ht ho => ?_⟩,
    fun h => ⟨fun ha htag he ho => ?_, fun he => ?_⟩, fun h n ht hi => ?_, fun h => ⟨fun n ht => ?_, fun ht => ?_⟩,
    fun h hn hn' => ⟨fun hf => ?_, fun hf => ?_⟩, fun h => ⟨fun ho => ?_, fun ho hs => ?_, fun ho => ?_⟩⟩
  · show execTallyAlloc mb s = _
    rw [execTallyAlloc, runCmd_ctx _ rfl (by decide) h]
    simp only [hq, if_true]
  · show execTallyAlloc mb s = _
    rw [execTallyAlloc, runCmd_ctx _ rfl (by decide) h]
    simp only [Nat.not_le.2 hq, if_false, hf, pad8_leBytes_four]
  · show execTallyFree mb s = _
    rw [execTallyFree, runCmd_ctx _ rfl (by decide) h]
    simp only [ownTally_own ho, hi, List.isEmpty_nil, if_true]
  · show execTallyFree mb s = _
    rw [execTallyFree, runCmd_ctx _ rfl (by decide) h]
    simp only [ownTally_own ho, List.isEmpty_iff, if_neg hi]
  · show execTallySet mb s = _
    rw [execTallySet, runCmd_ctx _ rfl (by decide) h]
    simp only [ownTally_own ho]
  · show execTallyExport mb s = _
    rw [execTallyExport, runCmd_ctx _ rfl (by decide) h]
    simp only [ownTally_own ho, ht, ne_eq, not_true_eq_false, if_false]
  · show execTallyExport mb s = _
    rw [execTallyExport, runCmd_ctx _ rfl (by decide) h]
    simp only [ownTally_own ho, ht, ne_eq, not_false_eq_true, if_true]
  · obtain ⟨act, hexec⟩ := ownerRow_exec hrow h
    rw [hexec, ownTally_none ht]
  · obtain ⟨act, hexec⟩ := ownerRow_exec hrow h
    rw [hexec, ownTally_other ht ho]
  · show execTallyImport mb s = _
    rw [execTallyImport, runCmd_ctx _ rfl (by decide) h]
    simp only [ha, htag, he, ne_eq, ho, not_false_eq_true, and_self, if_true]
  · show execTallyImport mb s = _
    rw [execTallyImport, runCmd_ctx _ rfl (by decide) h]
    simp only [he, false_and, and_false, if_false]
  · show execTallyRelease mb s = _
    rw [execTallyRelease, runCmd_ctx _ rfl (by decide) h]
    simp only [ht, hi, Bool.true_eq_false, if_false]
  · show execTallyQuery mb s = _
    rw [execTallyQuery, runCmd_ctx _ rfl (by decide) h]
    simp only [ht]
  · show execTallyQuery mb s = _
    rw [execTallyQuery, runCmd_ctx _ rfl (by decide) h]
    simp only [ht]
  · show execEpochAllot mb s = _
    rw [execEpochAllot, runCmd_ctx _ rfl (by decide) h]
    have hok : ¬(le pl 0 1 = 0 ∨ 64 < le pl 0 1) := by omega
    simp only [hok, Nat.not_lt.2 hf, if_false]
  · show execEpochAllot mb s = _
    rw [execEpochAllot, runCmd_ctx _ rfl (by decide) h]
    have hok : ¬(le pl 0 1 = 0 ∨ 64 < le pl 0 1) := by omega
    simp only [hok, hf, if_true, if_false]
  · show execEpochReturn mb s = _
    rw [execEpochReturn, runCmd_ctx _ rfl (by decide) h]
    obtain ⟨e, he, hne⟩ := ho
    have hany := (List.any_eq_true (p := fun e => decide ((s.epoch e).owner ≠ some c))).2 ⟨e, he, decide_eq_true hne⟩
    simp only [hany, if_true]
  · show execEpochReturn mb s = _
    rw [execEpochReturn, runCmd_ctx _ rfl (by decide) h]
    obtain ⟨e, he, hne⟩ := hs
    have hown := any_eq_false_of_false (fun e he => decide_eq_false (not_not.2 (ho e he)))
    have hany := (List.any_eq_true (p := fun e => decide ((s.epoch e).state ≠ .free))).2 ⟨e, he, decide_eq_true hne⟩
    simp only [hown, hany, Bool.false_eq_true, if_true, if_false]
  · show execEpochReturn mb s = _
    rw [execEpochReturn, runCmd_ctx _ rfl (by decide) h]
    have hown := any_eq_false_of_false (fun e he => decide_eq_false (not_not.2 (ho e he).1))
    have hfree := any_eq_false_of_false (fun e he => decide_eq_false (not_not.2 (ho e he).2))
    simp only [hown, hfree, Bool.false_eq_true, if_false]

end Sys2Proof.Machine
end

section
/-! PROOFS. The Steward's queue commands and partition commands. -/

namespace Sys2Proof.Machine

open Sys2Proof.Claims Sys2Proof.Laws

/-! ## Queues -/

/-- QUEUE_DESTROY, QUEUE_DOORBELL and QUEUE_QUERY need a handle of a queue of the context. -/
theorem queueRow_none {mb c : Nat} {pl : List Byte} {s : State} {x : Context} {row : Nat × (Nat → Instr)}
    (hrow : row ∈ ([(0x31, .queueDestroy), (0x32, .queueDoorbell), (0x33, .queueQuery)] : List (Nat × (Nat → Instr))))
    (h : AsksFor s mb row.1 pl c x) (hq : s.queueOf c (le pl 0 4) = none) : exec (row.2 mb) s = .next (respond s mb 0x0309 []) := by
  simp only [List.mem_cons, List.not_mem_nil, or_false] at hrow
  obtain rfl | rfl | rfl := hrow
  · show execQueueDestroy mb s = _
    rw [execQueueDestroy, runCmd_ctx _ rfl (by decide) h]
    simp only [hq]
  · show execQueueDoorbell mb s = _
    rw [execQueueDoorbell, runCmd_ctx _ rfl (by decide) h]
    simp only [hq]
  · show execQueueQuery mb s = _
    rw [execQueueQuery, runCmd_ctx _ rfl (by decide) h]
    simp only [hq]

/-- The state with a new queue at index `n`. -/
def queueMade (s : State) (c n loc : Nat) (pl : List Byte) : State :=
  let tag := nextTag 0x3FFFF (tget 0 s.queueTags n)
  { s.setQueue n
    { tag := tag, ctx := c, loc := loc, notify := decide (le pl 8 1 = 1), ring := va (le pl 0 8), log2 := le pl 9 1
      prio := le pl 10 1, head := 0, tail := 0, p := w32 (le pl 12 4), c := w32 (le pl 16 4), stopped := none, slot := none
      since := s.clock, entries := [] } with queueTags := tput s.queueTags n tag }

/-- What QUEUE_CREATE answers: the handle and the local index. -/
def queueOut (s : State) (n loc : Nat) : List Byte :=
  leBytes 4 (queueHandle n (nextTag 0x3FFFF (tget 0 s.queueTags n))) ++ leBytes 2 loc ++ zeros 2

theorem execQueueCreate_eq {mb c : Nat} {pl : List Byte} {s : State} {x : Context} (h : AsksFor s mb 0x30 pl c x) :
    execQueueCreate mb s = .next
      (if 1 < le pl 8 1 ∨ le pl 9 1 < 4 ∨ 16 < le pl 9 1 ∨ 7 < le pl 10 1 ∨
          (le pl 8 1 = 0 ∧ (le pl 12 4 ≠ 0 ∨ le pl 16 4 ≠ 0)) ∨ ringMapped s c (le pl 0 8) (64 * 2 ^ le pl 9 1) = false then
        respond s mb 0x0210 []
      else match lowest 16384 (fun i => (tfind s.queues i).isNone),
          lowest 256 (fun i => !((s.queues.filter fun e => decide (e.2.ctx = c)).any fun e => decide (e.2.loc = i))) with
        | some n, some loc =>
          if le pl 8 1 = 1 ∧ ((s.tallyOf c (le pl 12 4)).isNone ∨ (s.tallyOf c (le pl 16 4)).isNone) then respond s mb 0x0601 []
          else if le pl 8 1 = 1 then respond (queueMade s c n loc pl) mb 0 (queueOut s n loc)
          else match setLeaf (queueMade s c n loc pl) c (doorbellVA loc) 0 (doorbellLeaf none) none 0 with
            | some s2 => respond s2 mb 0 (queueOut s n loc)
            | none => respond s mb 0x0412 []
        | _, _ => respond s mb 0x0307 []) :=
  runCmd_ctx _ rfl (by decide) h

/-- Settles O15: each command's body, under what its checks read. -/
theorem queueCommandsResult : Obligations.QueueCommandsResult := by
  refine fun mb pl s c x => ⟨fun h n loc hlo hhi hprio hring hn hloc => ⟨fun hk hp hq s2 hleaf => ?_, fun hk hp hq => ?_⟩,
    fun h qi q hq => ⟨fun hs => ?_, fun s1 hs hw => ?_⟩,
    fun h qi q hq hrun => ⟨fun hk h1 h2 => ?_, fun hk hv => ?_, fun hk => ⟨fun hv => ?_, fun hv => ?_⟩⟩, fun h qi q hq => ?_,
    fun row hrow h hq => queueRow_none hrow h hq⟩
  · have hok : ¬(1 < le pl 8 1 ∨ le pl 9 1 < 4 ∨ 16 < le pl 9 1 ∨ 7 < le pl 10 1 ∨
        (le pl 8 1 = 0 ∧ (le pl 12 4 ≠ 0 ∨ le pl 16 4 ≠ 0)) ∨ ringMapped s c (le pl 0 8) (64 * 2 ^ le pl 9 1) = false) := by
      simp only [hring, Bool.true_eq_false, or_false]; omega
    have hsubmit : ¬ le pl 8 1 = 1 := by omega
    have hleaf' : setLeaf (queueMade s c n loc pl) c (doorbellVA loc) 0 (doorbellLeaf none) none 0 = some s2 := hleaf
    show execQueueCreate mb s = _
    rw [execQueueCreate_eq h, if_neg hok, hn, hloc]
    simp only [hsubmit, false_and, if_false, hleaf']
    rfl
  · have hok : ¬(1 < le pl 8 1 ∨ le pl 9 1 < 4 ∨ 16 < le pl 9 1 ∨ 7 < le pl 10 1 ∨
        (le pl 8 1 = 0 ∧ (le pl 12 4 ≠ 0 ∨ le pl 16 4 ≠ 0)) ∨ ringMapped s c (le pl 0 8) (64 * 2 ^ le pl 9 1) = false) := by
      simp only [hring, Bool.true_eq_false, or_false]; omega
    have htallies : ¬((s.tallyOf c (le pl 12 4)).isNone = true ∨ (s.tallyOf c (le pl 16 4)).isNone = true) := by
      simp [Option.isSome_iff_ne_none.1 hp, Option.isSome_iff_ne_none.1 hq]
    show execQueueCreate mb s = _
    rw [execQueueCreate_eq h, if_neg hok, hn, hloc]
    dsimp only
    rw [if_neg fun hx => htallies hx.2, if_pos hk]
    rfl
  · show execQueueDestroy mb s = _
    rw [execQueueDestroy, runCmd_ctx _ rfl (by decide) h]
    simp only [hq, hs, Option.isSome_none, Bool.false_eq_true, if_false]
  · show execQueueDestroy mb s = _
    rw [execQueueDestroy, runCmd_ctx _ rfl (by decide) h]
    simp only [hq, hs, if_true, hw]
  · show execQueueDoorbell mb s = _
    rw [execQueueDoorbell, runCmd_ctx _ rfl (by decide) h]
    simp only [hq, hrun, Option.isSome_none, hk, Bool.false_eq_true, if_false, h1, h2, and_self, if_true]
  · show execQueueDoorbell mb s = _
    rw [execQueueDoorbell, runCmd_ctx _ rfl (by decide) h]
    simp only [hq, hrun, Option.isSome_none, hk, Bool.false_eq_true, if_false, hv]
  · show execQueueDoorbell mb s = _
    rw [execQueueDoorbell, runCmd_ctx _ rfl (by decide) h]
    simp only [hq, hrun, Option.isSome_none, hk, Bool.false_eq_true, if_false, if_true, Nat.not_lt.2 hv]
  · show execQueueDoorbell mb s = _
    rw [execQueueDoorbell, runCmd_ctx _ rfl (by decide) h]
    simp only [hq, hrun, Option.isSome_none, hk, Bool.false_eq_true, if_false, if_true, hv]
  · show execQueueQuery mb s = _
    rw [execQueueQuery, runCmd_ctx _ rfl (by decide) h]
    simp only [hq]

/-! ## Partitions -/

/-- A payload of four bytes in two halves fills half of its last word. -/
theorem pad8_leBytes_two (a b : Nat) : pad8 (leBytes 2 a ++ leBytes 2 b) = leBytes 2 a ++ leBytes 2 b ++ zeros 4 := by
  rw [pad8, List.length_append, length_leBytes, length_leBytes]

/-- A request in turn for PART_QUIESCE that does not wait yet runs as any other. -/
theorem execPartQuiesce_idle {mb : Nat} {s : State} {pl : List Byte} (h : Asks s mb 0x59 pl) :
    execPartQuiesce mb s = .next (if 11 < le pl 0 1 then respond s mb 0x0210 []
      else match (s.part (le pl 0 1)).state with
        | .quiesced => respond s mb 0 []
        | .unconfigured | .down => respond s mb 0x0316 []
        | .running =>
          if (s.part (le pl 0 1)).quiesceMb.isSome then respond s mb 0x0316 [] else
          let s1 := (beginWait s mb).setPart (le pl 0 1) { s.part (le pl 0 1) with quiesceMb := some (s.ticket mb) }
          let s2 := (s1.ctxsOf (le pl 0 1)).foldl (fun s c => match s.ctx? c with
            | some x => if x.resident then beginEvict s c else s
            | none => s) s1
          quiesceStep s2 mb (le pl 0 1)) := by
  obtain ⟨m, ha, -⟩ := h.asked
  unfold execPartQuiesce
  rw [ha.box]
  simp only [ha.idle, Bool.false_eq_true, false_and, if_false]
  exact runCmd_noCtx _ rfl h

/-- A request in turn for PART_RESET that does not wait yet runs as any other. -/
theorem execPartReset_idle {mb : Nat} {s : State} {pl : List Byte} (h : Asks s mb 0x5B pl) :
    execPartReset mb s = .next (if 11 < le pl 0 1 then respond s mb 0x0210 []
      else if (s.part (le pl 0 1)).state = .unconfigured then respond s mb 0x0316 []
      else resetStep (resetBegin (beginWait s mb) (le pl 0 1)) mb (le pl 0 1)) := by
  obtain ⟨m, ha, -⟩ := h.asked
  unfold execPartReset
  rw [ha.box]
  simp only [ha.idle, Bool.false_eq_true, false_and, if_false]
  exact runCmd_noCtx _ rfl h

theorem beginWait_ctxsOf (s : State) (mb p : Nat) : (beginWait s mb).ctxsOf p = s.ctxsOf p := by
  unfold beginWait
  split <;> rfl

/-- Settles O16: each command's body, under what its checks read. -/
theorem partitionCommandsResult : Obligations.PartitionCommandsResult := by
  refine fun mb pl s => ⟨fun h hp => ⟨fun hread => ?_, fun hw hst => ?_, fun hw hst => ?_⟩,
    fun h hp => ⟨fun hst => ?_, fun hst => ?_, fun hst hq hc => ?_⟩, fun h hp => ⟨fun hst => ?_, fun hst => ?_⟩,
    fun h hp => ⟨fun hst => ?_, fun hst => ⟨fun hc => ?_, fun hc => ?_⟩⟩, fun h => ?_⟩
  · show execPartConfig mb s = _
    rw [execPartConfig, runCmd_noCtx _ rfl h]
    simp only [Nat.not_lt.2 hp, hread, if_true, if_false]
  · show execPartConfig mb s = _
    rw [execPartConfig, runCmd_noCtx _ rfl h]
    simp only [Nat.not_lt.2 hp, Nat.not_le.2 hw, ne_eq, hst, not_false_eq_true, if_true, if_false]
  · show execPartConfig mb s = _
    rw [execPartConfig, runCmd_noCtx _ rfl h]
    simp only [Nat.not_lt.2 hp, Nat.not_le.2 hw, ne_eq, hst, not_true_eq_false, if_false]
  · show execPartQuiesce mb s = _
    rw [execPartQuiesce_idle h, if_neg (Nat.not_lt.2 hp), hst]
  · show execPartQuiesce mb s = _
    rw [execPartQuiesce_idle h, if_neg (Nat.not_lt.2 hp)]
    obtain hst | hst := hst <;> rw [hst]
  · have hnone : ((beginWait s mb).setPart (le pl 0 1) { s.part (le pl 0 1) with quiesceMb := some (s.ticket mb) }).ctxsOf
        (le pl 0 1) = [] := (beginWait_ctxsOf s mb (le pl 0 1)).trans hc
    show execPartQuiesce mb s = _
    rw [execPartQuiesce_idle h, if_neg (Nat.not_lt.2 hp), hst, hq]
    simp only [Option.isSome_none, Bool.false_eq_true, if_false, hnone, List.foldl_nil]
  · show execPartResume mb s = _
    rw [execPartResume, runCmd_noCtx _ rfl h]
    simp only [Nat.not_lt.2 hp, hst, ne_eq, not_true_eq_false, if_false]
  · show execPartResume mb s = _
    rw [execPartResume, runCmd_noCtx _ rfl h]
    simp only [Nat.not_lt.2 hp, hst, ne_eq, not_false_eq_true, if_true, if_false]
  · show execPartReset mb s = _
    rw [execPartReset_idle h, if_neg (Nat.not_lt.2 hp), if_pos hst]
  · show execPartReset mb s = _
    rw [execPartReset_idle h, if_neg (Nat.not_lt.2 hp), if_neg hst, resetStep, hc]
    rfl
  · show execPartReset mb s = _
    rw [execPartReset_idle h, if_neg (Nat.not_lt.2 hp), if_neg hst, resetStep, if_neg (by simpa using hc)]
  · intro src tgt hs hsrc htgt hne hmask hhalls
    have hexec : exec (.partMoveHalls mb) s = execPartMoveHalls mb s := rfl
    rw [hexec, execPartMoveHalls, runCmd_noCtx _ rfl h]
    have hok : ¬(11 < src ∨ (11 < tgt ∧ tgt ≠ 0xFF) ∨ tgt = src ∨ le pl 2 2 = 0 ∨
        (hs.any fun h => !(s.part src).halls.getLsbD h) = true) := by
      rw [any_eq_false_of_false fun h hh => by rw [hhalls h hh]; rfl]
      simp only [Bool.false_eq_true, or_false]
      omega
    refine ⟨fun hst => ?_, fun hst htst => ⟨fun hu => ?_, fun hu => ?_⟩⟩
    · simp only [src, tgt, hs] at hok hst ⊢
      simp only [hok, hst, if_true, if_false]
    · have hrun : ¬((s.part src).state ≠ .quiesced ∨ (tgt ≠ 0xFF ∧ (s.part tgt).state ≠ .quiesced)) := by
        rintro (hx | ⟨hx, hy⟩)
        · exact hx hst
        · exact hy (htst.resolve_left hx)
      simp only [src, tgt, hs] at hok hrun hu ⊢
      simp only [hok, hrun, hu, if_true, if_false]
    · have hrun : ¬((s.part src).state ≠ .quiesced ∨ (tgt ≠ 0xFF ∧ (s.part tgt).state ≠ .quiesced)) := by
        rintro (hx | ⟨hx, hy⟩)
        · exact hx hst
        · exact hy (htst.resolve_left hx)
      refine ⟨fun hr => ?_, fun hr => ?_⟩
      · simp only [src, tgt, hs] at hok hrun hu hr ⊢
        simp only [hok, hrun, hu, hr, Bool.false_eq_true, if_true, if_false]
      · simp only [src, tgt, hs] at hok hrun hu hr ⊢
        simp only [hok, hrun, hu, hr, Bool.false_eq_true, if_false, pad8_leBytes_two]

end Sys2Proof.Machine
end

section
/-! PROOFS. The Steward's memory-object and commons commands. -/

namespace Sys2Proof.Machine

open Sys2Proof.Claims Sys2Proof.Laws

theorem maps_any_iff (s : State) (n c : Nat) :
    (s.maps n).any (fun l => decide (l.ctx = c)) = true ↔ ∃ l ∈ s.leaves, l.obj = some n ∧ l.ctx = c := by
  simp [State.maps]

theorem memoryCommandsResult : MemoryCommandsResult := by
  refine fun mb pl s c x => ⟨fun h i s1 ps hk1 hk3 hb hpage hmask hi => ?_, fun h hbusy n o s1 hm hmap => ?_,
    fun h hbusy hlen hend hv hl hin => ⟨fun hn => ?_, fun hn => ?_⟩, fun h n o ho ht => ⟨fun hp => ?_, fun hp => ?_⟩,
    fun h hbusy n o ho => ⟨fun hn => ?_, fun hn => ?_⟩, fun h n o ho => ?_, fun h ho => ?_⟩
  · intro size n hroom htake
    have hexec : exec (.memCreate mb) s = execMemCreate mb s := rfl
    rw [hexec, execMemCreate, runCmd_ctx _ rfl (by decide) h]
    have hbin : ¬ le pl 8 1 = 4 := by omega
    have hkind : ¬ le pl 8 1 = 0 ∧ ¬ 4 < le pl 8 1 := by omega
    simp only [size, n] at hroom htake ⊢
    simp only [hb, hkind, Nat.not_lt.2 hpage, hmask, ne_eq, not_true_eq_false, hbin, false_and, and_false, or_self, if_false, hi,
      Nat.not_lt.2 hroom, htake, pad8_leBytes_four]
  · show execMemMap mb s = _
    rw [execMemMap, runCmd_ctx _ rfl (by decide) h]
    obtain ⟨hobj, hlen, hattr, hread, hepoch, ⟨hplain, hep⟩, hrange, ⟨hoff, hin⟩, ⟨hva, hal⟩, hfresh, hown, href, hpart⟩ := hm
    have hperm : ¬(decide (nbits (le pl 32 1) 1 1 = 1) = true ∧ decide (nbits (le pl 32 1) 0 0 = 1) = false) := by
      simpa using hread
    simp only [hep] at hmap
    simp only [hbusy, hlen, Nat.not_lt.2 hattr, hperm, hplain, hep, Nat.not_lt.2 hrange, hobj, hown, href, hpart, hoff, Nat.not_lt.2 hin,
      hva, hal, hfresh, decide_false, Bool.false_and, Bool.false_eq_true, ne_eq, not_true_eq_false, List.isEmpty_nil,
      Bool.true_eq_false, false_and, and_false, or_self, if_false, Nat.not_lt_zero, hmap]
  · show execMemUnmap mb s = _
    rw [execMemUnmap, runCmd_ctx _ rfl (by decide) h]
    simp only [hbusy, hlen, Nat.not_lt.2 hend, hv, hl, hn, ne_eq, not_true_eq_false, List.any_nil, Bool.false_eq_true, or_self,
      if_false, List.isEmpty_nil, if_true]
  · show execMemUnmap mb s = _
    rw [execMemUnmap, runCmd_ctx _ rfl (by decide) h]
    have hinside := any_eq_false_of_false (p := fun l : LeafRec => decide (l.va < le pl 0 8) ||
        decide (le pl 0 8 + le pl 8 8 < l.va + 2 ^ levelShift l.level)) fun l hl => by
      obtain ⟨h1, h2⟩ := hin l hl
      simp only [Nat.not_lt.2 h1, Nat.not_lt.2 h2, decide_false, Bool.or_self]
    simp only [hbusy, hlen, Nat.not_lt.2 hend, hv, hl, hinside, List.isEmpty_eq_false_iff.2 hn, ne_eq, not_true_eq_false,
      Bool.false_eq_true, or_self, if_false]
  · show execMemShare mb s = _
    rw [execMemShare, runCmd_ctx _ rfl (by decide) h]
    simp only [ho, ht, hp, ne_eq, not_true_eq_false, if_false]
  · show execMemShare mb s = _
    rw [execMemShare, runCmd_ctx _ rfl (by decide) h]
    simp only [ho, ht, hp, ne_eq, not_true_eq_false, not_false_eq_true, if_true, if_false]
  · show execMemRelease mb s = _
    rw [execMemRelease, runCmd_ctx _ rfl (by decide) h]
    have hmaps : ¬(s.maps n).any (fun l => decide (l.ctx = c)) = true := fun hx => by
      obtain ⟨l, hl, hob, hc⟩ := (maps_any_iff s n c).1 hx
      exact hn l hl hob hc
    simp only [hbusy, ho, hmaps, Bool.false_eq_true, if_false]
  · show execMemRelease mb s = _
    rw [execMemRelease, runCmd_ctx _ rfl (by decide) h]
    simp only [hbusy, ho, (maps_any_iff s n c).2 hn, Bool.false_eq_true, if_true, if_false]
  · show execMemQuery mb s = _
    rw [execMemQuery, runCmd_ctx _ rfl (by decide) h]
    simp only [ho]
  · show execMemQuery mb s = _
    rw [execMemQuery, runCmd_ctx _ rfl (by decide) h]
    simp only [ho]

/-- A copy within one block of the source and one of the target is one piece. -/
theorem copyPieces_single (k : Nat) {a b n : Nat} (h : 1 ≤ n) (ha : n ≤ 65536 - a % 65536) (hb : n ≤ 65536 - b % 65536) :
    copyPieces (k + 2) a b n = [(a, b, n)] := by
  have hmin : min n (min (65536 - a % 65536) (65536 - b % 65536)) = n := by omega
  simp [copyPieces, hmin, show n ≠ 0 by omega]

section
variable {mb c : Nat} {pl : List Byte} {s : State} {x : Context} {n : Nat} {o : Obj}

/-- What a COMMONS_FILL of one piece leaves and answers. -/
theorem execCommonsFill_piece (h : AsksFor s mb 0x29 pl c x) (hbusy : s.memBusy c = false) (ho : s.commonsOf (le pl 0 4) = some (n, o))
    (hs : o.isSealed = false) (hb : le pl 8 8 + le pl 24 8 ≤ o.bytes) (h1 : le pl 24 8 ≤ 65536 - le pl 16 8 % 65536)
    (h2 : 1 ≤ le pl 24 8) (h3 : le pl 24 8 ≤ 65536 - le pl 8 8 % 65536) {pa : Nat} {e : W64} (hr : stewardRead s c (le pl 16 8) = .ok pa e) :
    execCommonsFill mb s =
      let r := if s.homeStatus pa ≠ 0 then (s, s.homeStatus pa)
        else ((copyBytes s (s.epochOf c e) pa (o.addr (le pl 8 8)) (le pl 24 8)).1, 0)
      .next (respond (if r.2 = 0 ∨ r.2 = 0x0401 ∨ r.2 = 0x0402 then r.1 else s) mb r.2 []) := by
  have hpieces := copyPieces_single (2 * (le pl 24 8 / 65536) + 1) h2 h1 h3
  rw [execCommonsFill, runCmd_ctx _ rfl (by decide) h]
  simp only [hbusy, ho, hs, Nat.not_lt.2 hb, Bool.false_eq_true, if_false, hpieces]
  simp [hr]

/-- What a COMMONS_CREATE that finds its frames leaves and answers. -/
theorem commonsCreate_made {i : Nat} {s1 : State} {ws rs : List Nat} {d : Nat} (h : Asks s mb 0x28 pl) (hi : s.freeObjIndex = some i)
    (hroom : cdiv (le pl 0 8) 65536 * 65536 ≤ (s.groupsOfMode 12 4).length * groupBytes)
    (htake : takeCommons s (cdiv (le pl 0 8) 65536) = some (s1, ws, rs, d)) :
    let made := addObj ((ws ++ rs).foldl (fun s a => zeroRange s a 65536) s1) i
      { Obj.fresh (cdiv (le pl 0 8) 65536 * 65536) 0 65536 12 true [] ws with
        commons := true, refPages := rs.map (BitVec.ofNat 48), digestBase := BitVec.ofNat 48 d }
    exec (.commonsCreate mb) s = .next (respond made.1 mb 0 (leBytes 4 made.2 ++ zeros 4)) := by
  intro made
  have hexec : exec (.commonsCreate mb) s = execCommonsCreate mb s := rfl
  rw [hexec, execCommonsCreate, runCmd_noCtx _ rfl h]
  extract_lets +onlyGivenNames n
  rw [hi, if_neg (Nat.not_lt.2 hroom), htake]
  rw [← pad8_leBytes_four]

end

theorem commonsCommandsResult : CommonsCommandsResult := by
  refine fun mb pl s => ⟨fun h i s1 ws rs d hi hroom htake => ?_, fun c x h hbusy n o ho => ⟨fun hs => ?_, fun hs hb => ?_,
    fun hs hb h1 h2 h3 pa e hr => ⟨fun hp => ?_, fun hp => ?_⟩⟩, fun h n o ho => ⟨fun hs => ?_, fun hs => ?_⟩,
    fun h n o ho => ⟨fun hm => ?_, fun hm => ?_⟩, fun h ho => ?_⟩
  · intro made
    exact commonsCreate_made h hi hroom htake
  · show execCommonsFill mb s = _
    rw [execCommonsFill, runCmd_ctx _ rfl (by decide) h]
    simp only [hbusy, ho, hs, Bool.false_eq_true, if_true, if_false]
  · show execCommonsFill mb s = _
    rw [execCommonsFill, runCmd_ctx _ rfl (by decide) h]
    simp only [hbusy, ho, hs, hb, Bool.false_eq_true, if_true, if_false]
  · show execCommonsFill mb s = _
    rw [execCommonsFill_piece h hbusy ho hs hb h1 h2 h3 hr]
    simp only [hp, ne_eq, not_true_eq_false, if_false, true_or, if_true]
  · show execCommonsFill mb s = _
    rw [execCommonsFill_piece h hbusy ho hs hb h1 h2 h3 hr]
    simp only [hp, ne_eq, not_false_eq_true, if_true, ite_self]
  · show execCommonsSeal mb s = _
    rw [execCommonsSeal, runCmd_noCtx _ rfl h]
    simp only [ho, hs, if_true]
  · intro blocks ds s1 s2
    have hexec : exec (.commonsSeal mb) s = execCommonsSeal mb s := rfl
    rw [hexec, execCommonsSeal, runCmd_noCtx _ rfl h, ho]
    dsimp only
    rw [hs]
    rfl
  · show execCommonsFree mb s = _
    rw [execCommonsFree, runCmd_noCtx _ rfl h]
    simp only [ho, hm, List.isEmpty_nil, Bool.true_eq_false, if_false]
  · show execCommonsFree mb s = _
    rw [execCommonsFree, runCmd_noCtx _ rfl h]
    simp only [ho, List.isEmpty_eq_false_iff.2 hm, if_true]
  · show execCommonsFree mb s = _
    rw [execCommonsFree, runCmd_noCtx _ rfl h]
    simp only [ho]

/-- Settles O52: the memory-object commands and those of the commons, each as the body of its command. -/
theorem memoryAndCommonsCommandsResult : Obligations.MemoryAndCommonsCommandsResult :=
  ⟨memoryCommandsResult, commonsCommandsResult⟩

end Sys2Proof.Machine
end

section
/-! PROOFS. The queue engine, the doorbells and the bells. -/

namespace Sys2Proof.Machine

open Sys2Proof.Claims

/-! ## The start of an entry -/

section
variable {op qi k : Nat} {q : Queue} {s s1 : State} {e : List Byte}

/-- An entry that may start: an invalid one ends at once, any other goes to the body of its OP. -/
theorem startEntry_starts (h : Starts s op qi k q s1 e) (body : State → Queue → TlbStruct → List Byte → State × Option EntryPhase) :
    (entryInvalid e = true → startEntry op qi k s body = .next (entered s1 qi k (.running 0x030A 0))) ∧
    (entryInvalid e = false →
      (∀ s2, body s1 q (s.engine q.ctx k) e = (s2, none) → startEntry op qi k s body = .next s2) ∧
      (∀ s2 p, body s1 q (s.engine q.ctx k) e = (s2, some p) → startEntry op qi k s body = .next (entered s2 qi k p))) := by
  obtain ⟨hq, ⟨hn, hst, hsl⟩, hserved, ⟨hk, htail⟩, hreach, hread, hcode, hroom, hord⟩ := h
  have hslot : q.slot.isNone = false := by rw [← Option.not_isSome, hsl]; rfl
  have hguard : ¬((q.notify || q.stopped.isSome || q.slot.isNone || !s.served q.ctx) = true ∨
      k ≠ q.head + q.entries.length ∨ q.tail ≤ k) := by
    simp only [hn, hst, hslot, hserved, Option.isSome_none, Bool.not_true, Bool.or_self, Bool.false_eq_true, false_or, not_or,
      not_not]
    exact ⟨hk, Nat.not_le.2 htail⟩
  have hwait : ¬((1 ≤ op ∧ op ≤ 7 ∧ op ≠ op) ∨ (op ≤ 4 ∧ 4 ≤ q.entries.countP fun x => x.2.busy) ∨
      ((nbits (le e 0 8) 55 55 = 1 ∨ op = 5 ∨ op = 6) ∧ q.entries ≠ [])) := by
    rintro (⟨-, -, h⟩ | ⟨h1, h2⟩ | ⟨h1, h2⟩)
    · exact h rfl
    · exact absurd (hroom h1) (Nat.not_lt.2 h2)
    · exact h2 (hord h1)
  have hstart : startEntry op qi k s body = if entryInvalid e then .next (entered s1 qi k (.running 0x030A 0))
      else match body s1 q (s.engine q.ctx k) e with
        | (s2, none) => .next s2
        | (s2, some p) => .next (entered s2 qi k p) := by
    unfold startEntry
    rw [hq]
    dsimp only
    rw [if_neg hguard, hreach]
    dsimp only
    rw [hread, hcode, if_neg hwait]
    rfl
  rw [hstart]
  refine ⟨fun hi => if_pos hi, fun hi => ⟨fun s2 hb => ?_, fun s2 p hb => ?_⟩⟩
  · rw [hi, hb]; rfl
  · rw [hi, hb]; rfl

end

theorem queueRow_invalid {op qi k : Nat} {q : Queue} {s s1 : State} {e : List Byte} (h : Starts s op qi k q s1 e)
    (hi : entryInvalid e = true) {row : Nat × (Nat → Nat → Instr)}
    (hrow : row ∈ ([(1, .queueCopy), (2, .queueFill), (3, .queueToLarder), (4, .queueFromLarder), (5, .queueWait), (6, .queueRaise),
      (7, .queueNop)] : List (Nat × (Nat → Nat → Instr)))) (hop : row.1 = op) :
    exec (row.2 qi k) s = .next (entered s1 qi k (.running 0x030A 0)) := by
  simp only [List.mem_cons, List.not_mem_nil, or_false] at hrow
  subst hop
  obtain rfl | rfl | rfl | rfl | rfl | rfl | rfl := hrow
  · show execQueueCopy qi k s = _
    exact (startEntry_starts h _).1 hi
  · show execQueueFill qi k s = _
    exact (startEntry_starts h _).1 hi
  · show execQueueToLarder qi k s = _
    exact (startEntry_starts h _).1 hi
  · show execQueueFromLarder qi k s = _
    exact (startEntry_starts h _).1 hi
  · show execQueueWait qi k s = _
    exact (startEntry_starts h _).1 hi
  · show execQueueRaise qi k s = _
    exact (startEntry_starts h _).1 hi
  · show execQueueNop qi k s = _
    exact (startEntry_starts h _).1 hi

/-- A larder entry whose task is placed moves its bytes, and takes its scoreboard entry when they were moved. -/
theorem larderEntry_onLarder {s : State} {q : Queue} {st : TlbStruct} {into : Bool} {e : List Byte} {n c : Nat} {x : Station} {y : Inst}
    (h : OnLarder s q into e n x y c) :
    larderEntry into s q st e =
      match transfer s st q.ctx (le e 0x18 8)
          (if into then .mem (le e (if into then 8 else 0x10) 8) else .larder c (y.base + nbits (le e 0x20 8) 19 0))
          (if into then .larder c (y.base + nbits (le e 0x20 8) 19 0) else .mem (le e (if into then 8 else 0x10) 8)) with
      | (s1, none) => (s1, none)
      | (s1, some (w, a)) =>
        if w ≠ 0 then (s1, some (.running w a))
        else (s1.modCore c fun k => { k with
          scores := k.scores ++ [scoreOf 2 0x3F ((s.core c).seq + 1) into (y.base + nbits (le e 0x20 8) 19 0)
            (y.base + nbits (le e 0x20 8) 19 0 + le e 0x18 8)], seq := (s.core c).seq + 1 },
          some (.larder c ((s.core c).seq + 1))) := by
  obtain ⟨hs, hi, hr, ⟨hp, hc⟩, hstill, hfree, hord⟩ := h
  have hok : ¬(16 ≤ (s.core c).scores.length ∨ scoreEarlier (s.core c) ((s.core c).seq + 1) into
      [(y.base + nbits (le e 0x20 8) 19 0, le e 0x18 8)] = true) := by
    rw [hord]; simp only [Bool.false_eq_true, or_false]; omega
  simp only [larderEntry, hs, Nat.not_le.2 hi, Nat.not_lt.2 hr, if_false, hp, hstill, Bool.false_eq_true, hc, hok] <;> rfl

theorem queueEntryStartResult : QueueEntryStartResult := by
  intro qi k op q s s1 e h st
  refine ⟨fun hi row hrow hop => queueRow_invalid h hi hrow hop, fun hi => ⟨fun s2 r hop ht => ⟨fun x a hr => ?_, fun hr => ?_⟩,
    fun s2 r hop ht => ⟨fun x a hr => ?_, fun hr => ?_⟩, fun into n x y c s2 r hop hl => ?_, fun n hop hn => ?_, fun hop hn => ?_,
    fun hop => ?_, fun hop => ?_⟩⟩
  · subst hop hr
    show execQueueCopy qi k s = _
    exact ((startEntry_starts h _).2 hi).2 s2 _ (congrArg transferPhase ht)
  · subst hop hr
    show execQueueCopy qi k s = _
    exact ((startEntry_starts h _).2 hi).1 s2 (congrArg transferPhase ht)
  · subst hop hr
    show execQueueFill qi k s = _
    exact ((startEntry_starts h _).2 hi).2 s2 _ (congrArg transferPhase ht)
  · subst hop hr
    show execQueueFill qi k s = _
    exact ((startEntry_starts h _).2 hi).1 s2 (congrArg transferPhase ht)
  · intro m lo seq i ht
    have hbody := larderEntry_onLarder (st := st) hl
    rw [ht] at hbody
    have hexec : exec i s = startEntry op qi k s (larderEntry into) := by
      subst hop
      cases into
      · show execQueueFromLarder qi k s = _
        rfl
      · show execQueueToLarder qi k s = _
        rfl
    rw [hexec]
    obtain ⟨hnone, hsome⟩ := (startEntry_starts h (larderEntry into)).2 hi
    refine ⟨fun a hr => ?_, fun w a hr hw => ?_, fun hr => ?_⟩
    · subst hr
      exact hsome _ _ hbody
    · subst hr
      exact hsome _ _ (hbody.trans (if_pos hw))
    · subst hr
      exact hnone _ hbody
  · subst hop
    show execQueueWait qi k s = _
    exact ((startEntry_starts h _).2 hi).2 _ _ (by simp only [registerWait, hn])
  · subst hop
    show execQueueWait qi k s = _
    exact ((startEntry_starts h _).2 hi).2 _ _ (by simp only [registerWait, hn])
  · subst hop
    show execQueueRaise qi k s = _
    exact ((startEntry_starts h _).2 hi).2 _ _ rfl
  · subst hop
    show execQueueNop qi k s = _
    exact ((startEntry_starts h _).2 hi).2 _ _ rfl

/-! ## The end of an entry -/

theorem queueCompletionResult : QueueCompletionResult := by
  refine ⟨fun qi k q status addr s hq he => ?_, fun qi k c n q s hq he => ?_, fun qi k q status addr s s0 hr => ?_,
    fun qi k q s s1 hq hw hs hn hr => ?_⟩
  · show execQueueEntryComplete qi k s = _
    simp only [execQueueEntryComplete, hq, he]
  · show execDmaTransferComplete qi k s = _
    simp only [execDmaTransferComplete, hq, he]
  · intro e
    have hcomplete : completeEntry s qi k q status addr = if status = 0 then
          raiseTally (marked s0 qi k q status) q.ctx (le e 0x2C 4) (le e 0x28 4)
        else if stopsOnly (le e 7 1) status then stopQueue (marked s0 qi k q status) qi status
        else loseBy (marked s0 qi k q status) (unitOfStruct (s.engine q.ctx k)) q.ctx status addr := by
      simp only [completeEntry, hr]
      rfl
    rw [hcomplete]
    refine ⟨fun h0 => ?_, fun h0 hstop => ?_, fun h0 h1 h2 h3 => ?_⟩
    · subst h0; rfl
    · have hstops : stopsOnly (le e 7 1) status = true := decide_eq_true hstop
      rw [if_neg h0, if_pos hstops]
    · have hstops : ¬stopsOnly (le e 7 1) status = true := by
        simp only [stopsOnly, decide_eq_true_eq, not_or]
        exact ⟨h1, h2, h3⟩
      rw [if_neg h0, if_neg hstops]
  · intro r
    have hany : s.watches.any (fun e => e.2.alloc && decide (e.2.rcv = .submitWait qi)) = false :=
      any_eq_false_of_false fun e he => by
        cases ha : e.2.alloc
        · rfl
        · simp [hn e he ha]
    show execQueueWaitRetry qi s = _
    simp only [execQueueWaitRetry, hq, hw, hs, hany, Bool.true_eq_false, Bool.false_eq_true, or_self, if_false, hr]
    rfl

/-! ## Doorbells, slots and bells -/

/-- The queues of a partition that give a reserve slot back. -/
def slotsBack (s : State) (p : Nat) : List (Nat × Queue) :=
  s.queues.filter fun e => decide (s.ctxPart e.2.ctx = p) && e.2.between && (match e.2.slot with
    | some n => decide (252 ≤ n) && decide (e.2.since + 10000000 ≤ s.clock)
    | none => false)

/-- A waiting queue takes the slot of the queue that R373 names. -/
def takeVictim (p : Nat) (s : State) (e : Nat × Queue) : State :=
  match s.slotVictim p s.clock with
  | none => s
  | some v => match (tfind s.queues v).bind (·.slot), withdrawSlot s v with
    | some n, some s' => grantSlot s' e.1 n
    | _, _ => s

theorem slotsBack_nil {p : Nat} {s : State}
    (h : ∀ e ∈ s.queues, e.2.slot.isSome = true → s.ctxPart e.2.ctx = p → e.2.slot.getD 0 < 252) : slotsBack s p = [] := by
  refine List.filter_eq_nil_iff.2 fun e he hx => ?_
  cases hs : e.2.slot with
  | none => simp [hs] at hx
  | some n =>
    have hlow := h e he (by simp [hs])
    simp only [hs, Bool.and_eq_true, decide_eq_true_eq, Option.getD_some] at hx hlow
    exact absurd hx.2.1 (Nat.not_le.2 (hlow hx.1.1))

/-- With no slot to give back, the waiting queues get the free slots and then those of the victims. -/
theorem execQueueSlotRotate_eq {p : Nat} {s : State}
    (h : ∀ e ∈ s.queues, e.2.slot.isSome = true → s.ctxPart e.2.ctx = p → e.2.slot.getD 0 < 252) :
    execQueueSlotRotate p s =
      .next (((giveSlots s p).waitingQueues p).foldl (takeVictim p) (giveSlots s p)) := by
  have hall : execQueueSlotRotate p s =
      let s2 := giveSlots ((slotsBack s p).foldl (fun s e => (withdrawSlot s e.1).getD s) s) p
      .next ((s2.waitingQueues p).foldl (takeVictim p) s2) := rfl
  rw [hall, slotsBack_nil h, List.foldl_nil]

theorem doorbellAndBellResult : DoorbellAndBellResult := by
  refine ⟨fun qi q c v s hq hs hn hst hc ha => ⟨fun h1 h2 => ?_, fun hb => ?_⟩, fun qi q v s hq hs => ?_,
    fun p s hlow => ⟨fun hw => ?_, fun e hw => ⟨fun n hf hg => ?_, fun v q n s1 hf hv hq hs hwd => ?_⟩⟩,
    fun w qi np nc b q c s ps hb hr hq hctx hp hc hcx ha hf hroom hring hhome => ?_, fun w b s hb hf => ⟨fun hr => ?_, fun qi q hr hq => ?_⟩⟩
  · show execDoorbellStore qi v s = _
    simp only [execDoorbellStore, announceTail, hq, hs, hn, hst, hc, ha, decide_true, Option.isSome_none, Bool.not_true, Bool.or_self,
      Bool.false_eq_true, if_true, if_false, h1, h2, and_self]
  · show execDoorbellStore qi v s = _
    simp only [execDoorbellStore, announceTail, hq, hs, hn, hst, hc, ha, decide_true, Option.isSome_none, Bool.not_true, Bool.or_self,
      Bool.false_eq_true, if_true, if_false, hb]
  · show execDoorbellStore qi v s = _
    simp only [execDoorbellStore, hq, hs, Option.isSome_none, Bool.false_eq_true, if_false]
  · show execQueueSlotRotate p s = _
    have hgive : giveSlots s p = s := by simp only [giveSlots, hw, List.foldl_nil]
    rw [execQueueSlotRotate_eq hlow, hgive, hw, List.foldl_nil]
  · show execQueueSlotRotate p s = _
    have hgive : giveSlots s p = grantSlot s e.1 n := by simp only [giveSlots, hw, List.foldl_cons, List.foldl_nil, hf]
    rw [execQueueSlotRotate_eq hlow, hgive, hg, List.foldl_nil]
  · show execQueueSlotRotate p s = _
    have hgive : giveSlots s p = s := by simp only [giveSlots, hw, List.foldl_cons, List.foldl_nil, hf]
    have htake : takeVictim p s e = grantSlot s1 e.1 n := by
      simp only [takeVictim, hv, hq, Option.bind_some, hs, hwd]
    rw [execQueueSlotRotate_eq hlow, hgive, hw, List.foldl_cons, List.foldl_nil, htake]
  · have hctx' : ¬(q.ctx ≠ (s.watch w).ctx ∨ c.state ≠ .active ∨ s.firstBell w = false ∨
        2 ^ q.log2 ≤ (s.tally np).value - (s.tally nc).value) := by
      simp only [hctx, ha, hf, ne_eq, not_true_eq_false, Bool.true_eq_false, false_or, Nat.not_le]
      exact hroom
    have hfind : (ps.find? fun p => decide (s.homeStatus p.2.1 ≠ 0)) = none :=
      find?_eq_none_of_false fun p hp => by simp [hhome p hp]
    show execNotifyBellWrite w s = _
    simp only [execNotifyBellWrite, hb, hr, hq, hp, hc, hcx, if_neg hctx', hring, hfind]
  · show execBellToSteward w s = _
    simp only [execBellToSteward, hf, Bool.true_eq_false, if_false, hb, hr]
  · show execBellToSteward w s = _
    simp only [execBellToSteward, hf, Bool.true_eq_false, if_false, hb, hr, hq]

/-- Settles O54: the start and the end of entries, and the doorbells, slots and bells. -/
theorem queueEngineResult : Obligations.QueueEngineResult :=
  ⟨queueEntryStartResult, queueCompletionResult, doorbellAndBellResult⟩

end Sys2Proof.Machine
end

section
/-! PROOFS. Station commands, the placement of instances, context losses and page moves. -/

namespace Sys2Proof.Machine

open Sys2Proof.Claims Sys2Proof.Laws

/-! ## Stations -/

theorem beginWait_clock (s : State) (mb : Nat) : (beginWait s mb).clock = s.clock := by
  unfold beginWait
  cases tfind s.mailboxes mb <;> rfl

theorem stationCommandsResult : StationCommandsResult := by
  refine fun mb pl s c x => ⟨fun h => ⟨fun hd => ?_, fun hd hv => ?_, fun hd h1 h2 hh => ?_, fun n loc y s1 hdecl hmake => ?_⟩,
    fun h n st hst hr => ?_, fun m n st t hm hw hcmd hst hr hall => ⟨fun ht => ?_, fun ht => ?_⟩⟩
  · show execStationDeclare mb s = _
    rw [execStationDeclare, runCmd_ctx _ rfl (by decide) h]
    simp only [hd, if_true]
  · show execStationDeclare mb s = _
    rw [execStationDeclare, runCmd_ctx _ rfl (by decide) h]
    have hv' : le pl 0 1 ≠ 1 ∨ 2 < le pl 1 1 := hv
    simp only [hd, hv', Bool.true_eq_false, if_true, if_false]
  · show execStationDeclare mb s = _
    rw [execStationDeclare, runCmd_ctx _ rfl (by decide) h]
    simp only [hd, h1, Nat.not_lt.2 h2, hh, ne_eq, not_true_eq_false, or_self, Bool.true_eq_false, if_true, if_false]
  · obtain ⟨hd, ⟨h1, h2⟩, hh, hroom⟩ := hdecl
    intro out
    have hexec : exec (.stationDeclare mb) s = .next (if s1.canReside c then match placeAll (becomeResident s1 c) n y with
          | some s2 => respond (giveSlots s2 (s.ctxPart c)) mb 0 out
          | none => respond s mb 0x0212 []
        else respond s1 mb 0 out) := by
      show execStationDeclare mb s = _
      rw [execStationDeclare, runCmd_ctx _ rfl (by decide) h]
      simp only [hd, h1, Nat.not_lt.2 h2, hh, ne_eq, not_true_eq_false, or_self, Bool.true_eq_false, if_false, hroom, hmake,
        pad8_leBytes_four] <;> rfl
    rw [hexec]
    exact ⟨fun hres => by rw [hres]; rfl, fun s2 hres hplace => by rw [if_pos hres, hplace]⟩
  · intro y s1
    have hexec : exec (.stationRemove mb) s = .next (removeStep s1 mb n y) := by
      obtain ⟨m, ha, -⟩ := h.asked
      show execStationRemove mb s = _
      simp only [execStationRemove, ha.box, ha.idle, Bool.false_eq_true, false_and, if_false]
      rw [runCmd_ctx _ rfl (by decide) h]
      simp only [hst]
      rfl
    rw [hexec]
    refine ⟨fun hall => by rw [removeStep, if_pos hall], fun hall => ?_⟩
    have hclock : ¬ y.removing.getD s1.clock + 100000000 ≤ s1.clock := by
      have h1 : s1.clock = s.clock := beginWait_clock ..
      rw [h1]
      exact Nat.not_le.2 (Nat.lt_add_of_pos_right (by decide))
    rw [removeStep, if_neg (Bool.eq_false_iff.1 hall), if_neg hclock]
  · show execStationRemove mb s = _
    simp only [execStationRemove, hm, hw, hcmd, and_self, if_true, hst, hr, Option.isSome_some, removeStep, hall, Bool.false_eq_true,
      if_false, Option.getD_some, ht]
  · show execStationRemove mb s = _
    simp only [execStationRemove, hm, hw, hcmd, and_self, if_true, hst, hr, Option.isSome_some, removeStep, hall, Bool.false_eq_true,
      if_false, Option.getD_some, Nat.not_le.2 ht]

/-! ## Placement -/

theorem placementResult : PlacementResult := by
  refine ⟨fun station inst index g s p y h => ?_, fun station inst core c s x h => ?_, fun core s he hp => ?_,
    fun station inst core b x y s hx ht hy hst hs hp hb => ?_, fun ctx c s hc ha => ⟨fun hr => ?_, fun d e hr hd hde hep her hes hw hsl hv => ?_,
    fun hr hcan hw hn => ?_⟩⟩
  · obtain ⟨hp, hy, ⟨hc, he⟩, ⟨hsl, hg⟩, hm, hroom⟩ := h
    show execReplay station inst index g s = _
    simp only [execReplay, hp, hy, hc, he, hsl, hg, Option.isNone_none, hm, hroom, and_self, if_true]
  · obtain ⟨⟨hx, htag⟩, hc, halone, hserved, hquiet⟩ := h
    intro n
    have hq : [n].all (fun m => larderQuiet s m inst) = true := by simpa using hquiet
    have hgo : ¬(x.tag ≠ station % 65536 ∨ s.served x.ctx = false ∨ [n].all (fun m => larderQuiet s m inst) = false) := by
      simp [htag, hserved, hq]
    refine ⟨fun s1 hr hne hw hb hm hmove => ?_, fun hr hres => ⟨fun s1 hmove => ?_, fun hmove hnone => ?_⟩⟩
    · show execInstanceMigrate station inst core s = _
      have hplacer : core ≠ c ∧ (false || placerWants s n x inst c core) = true ∧
          [n].all (fun m => match tfind s.stations m with
            | some y => atBoundary s m y inst
            | none => false) = true ∧ placerMay s n inst core = true :=
        ⟨hne, by simpa using hw, by simpa [n, hx] using hb, hm⟩
      simp only [execInstanceMigrate, migrate, halone, hx, hc]
      rw [if_neg hgo, if_neg (Bool.eq_false_iff.1 hr)]
      refine congrArg Host.Outcome.next ((if_pos hplacer).trans ?_)
      simp only [List.foldl_cons, List.foldl_nil, hx, n] at hmove ⊢
      rw [hmove]
    · show execInstanceMigrate station inst core s = _
      simp only [execInstanceMigrate, migrate, halone, hx, hc]
      rw [if_neg hgo, if_pos hr, if_pos (by simpa [n, hx] using hres), hmove]
    · have hnowhere : ((partCores s (s.ctxPart x.ctx)).any fun d => (moveAll s [n] inst d).isSome) = false :=
        any_eq_false_of_false fun d hd => by rw [hnone d hd]; rfl
      show execInstanceMigrate station inst core s = _
      simp only [execInstanceMigrate, migrate, halone, n, hx, hc]
      rw [if_neg hgo, if_pos hr, if_pos (by simpa [n, hx] using hres), hmove]
      simp only [hnowhere, n, Bool.false_eq_true, if_false, List.foldl_cons, List.foldl_nil]
  · show execCoreRetire core s = _
    simp only [execCoreRetire, he, hp, ne_eq, not_true_eq_false, Bool.true_eq_false, or_self, if_false]
  · show execInstancePlaced station inst core s = _
    simp only [execInstancePlaced, hx, hy, ht, hst, hs, hp, Option.getD_none, ne_eq, not_true_eq_false, Bool.true_eq_false, or_self,
      if_false, hb]
  · show execContextEvict ctx s = _
    simp only [execContextEvict, hc, ha, ne_eq, not_true_eq_false, if_false, hr, if_true]
  · have hwait : s.contexts.any (fun e => decide (e.2.part = c.part) && !e.2.resident && decide (e.2.state = .active) &&
        s.ctxWork e.1) = true :=
      List.any_eq_true.2 ⟨(d, e), hde, by simp [hep, her, hes, hw]⟩
    show execContextEvict ctx s = _
    simp only [execContextEvict, hc, ha, ne_eq, not_true_eq_false, if_false, hr, Bool.true_eq_false, hwait, hsl, hv, and_self, if_true]
  · have hnone : (s.ctxInsts ctx).any (fun x => ((s.inst? x.1 x.2).bind (·.core)).isSome) = false :=
      any_eq_false_of_false fun x hx => by rw [hn x hx]; rfl
    show execResidencyReturn ctx s = _
    simp only [execResidencyReturn, hc, hr, hcan, hw, hnone, Bool.true_eq_false, Bool.false_eq_true, or_self, if_false]

/-- Settles O55: the station commands, and the replay, the placement and the residency of what they make. -/
theorem stationAndPlacementResult : Obligations.StationAndPlacementResult :=
  ⟨stationCommandsResult, placementResult⟩

/-! ## Losses and destroys -/

theorem lossAndDestroyResult : LossAndDestroyResult := by
  refine ⟨fun ctx l s hl => ?_, fun ctx c s hc hst he => ?_, fun s hon ht hs => ?_, fun id st x s hx hst => ⟨fun ht ha => ?_, fun ht => ?_⟩⟩
  · intro s1
    have hexec : exec (.contextLoss ctx) s = execContextLoss ctx s := rfl
    refine ⟨fun hc => ?_, fun c hc => ⟨fun hg => ?_, fun hg ha => ?_, fun hg ha => ?_⟩⟩
    · simp only [hexec, execContextLoss, hl]
      rw [show ({ s with lossQ := s.lossQ.erase l } : State).ctx? ctx = none from hc]
    · simp only [hexec, execContextLoss, hl]
      rw [show ({ s with lossQ := s.lossQ.erase l } : State).ctx? ctx = some c from hc]
      exact if_pos hg
    · simp only [hexec, execContextLoss, hl]
      rw [show ({ s with lossQ := s.lossQ.erase l } : State).ctx? ctx = some c from hc]
      exact (if_neg (not_not.2 hg)).trans (if_pos ha)
    · simp only [hexec, execContextLoss, hl]
      rw [show ({ s with lossQ := s.lossQ.erase l } : State).ctx? ctx = some c from hc]
      exact (if_neg (not_not.2 hg)).trans (if_neg ha)
  · show execDestroyOverrun ctx s = _
    simp only [execDestroyOverrun, hc, hst, he, ne_eq, not_true_eq_false, Bool.false_eq_true, or_self, if_false] <;> rfl
  · intro s1
    have hexec : exec .sessionGraceExpiry s = execSessionGraceExpiry s := rfl
    have hgo : ¬(s.port.graceOn = false ∨ s.clock < s.port.graceFrom + s.grace * 1000000000 ∨
        (s.port.session.isSome = true ∧ s.grace ≠ 0)) := by
      rw [hon]
      obtain hs | hs := hs
      · simp [hs, Nat.not_lt.2 ht]
      · simp [hs, Nat.not_lt.2 (by simpa [hs] using ht : s.port.graceFrom ≤ s.clock)]
    rw [hexec, execSessionGraceExpiry, if_neg hgo]
  · show execShootdownAck id st s = _
    simp [execShootdownAck, hx, ht, ha]
  · show execShootdownAck id st s = _
    simp only [execShootdownAck, hx, List.contains_iff_mem.2 hst, Bool.true_eq_false, if_false, List.isEmpty_eq_false_iff.2 ht,
      Bool.false_and, Bool.false_eq_true]

/-! ## Page moves -/

theorem pageMoveResult : PageMoveResult := by
  refine ⟨fun frame group s l o rest hl => ?_, fun move m s hm => ⟨fun hc => ?_, fun hc hd => ⟨fun hb => ?_, fun hb => ?_⟩, fun hd => ?_,
    fun hd i hi => ?_⟩, fun p s hp hs => ?_⟩
  · intro p t
    refine ⟨fun h => ?_, fun h => ⟨fun hb => ?_, fun s1 a hb ht => ?_⟩⟩
    · show execPageMoveRequest frame group s = _
      simp only [execPageMoveRequest, hl, h, if_true]
    · show execPageMoveRequest frame group s = _
      simp only [execPageMoveRequest, hl, h, Bool.true_eq_false, if_false]
      exact if_pos hb
    · show execPageMoveRequest frame group s = _
      simp only [execPageMoveRequest, hl, h, Bool.true_eq_false, if_false, ht]
      exact if_neg (Nat.not_lt.2 hb)
  · show execPageCopyDone move s = _
    simp only [execPageCopyDone, hm, hc, if_true]
  · show execPageCopyDone move s = _
    simp only [execPageCopyDone, hm, hc, hd, hb, Bool.true_eq_false, Bool.false_eq_true, if_true, if_false]
  · show execPageCopyDone move s = _
    simp only [execPageCopyDone, hm, hc, hd, hb, Bool.true_eq_false, Bool.false_eq_true, if_false]
  · show execMoveAbandoned move s = _
    simp only [execMoveAbandoned, hm, hd, Bool.false_eq_true, if_false]
  · obtain rfl | ⟨rfl, hc⟩ := hi
    · show execMoveAbandoned move s = _
      simp only [execMoveAbandoned, hm, hd, if_true]
      rfl
    · show execPageCopyDone move s = _
      simp only [execPageCopyDone, hm, hc, hd, Bool.true_eq_false, if_true, if_false]
      rfl
  · have hgo : ¬(12 ≤ p ∨ s.inService = false) := by simp [hs, hp]
    refine ⟨_, show execTierInterval p s = _ by rw [execTierInterval, if_neg hgo], ?_, ?_, ?_, ?_⟩
    · intro e he
      simpa using (List.mem_filter.1 he).2
    · exact fun e he hne => List.mem_filter.2 ⟨he, by simpa using hne⟩
    · intro a b least
      have hb : b = _ := tget_tset_self ..
      rw [hb]
      refine ⟨rfl, rfl, rfl, rfl, fun h => if_pos h, fun h hheld hn => ?_, fun h hheld hm hn => ?_⟩
      · have h7 : (if a.held then a.heldIntervals + 1 else 0) = 8 := by rw [hheld, hn]; rfl
        exact ⟨(if_neg (by simp [h])).trans (if_pos h7), if_pos h7⟩
      · have h7 : (if a.held then a.heldIntervals + 1 else 0) ≠ 8 := by rw [hheld]; simp
        have h63 : (if 2 * a.moved < moveBudget s p then a.calmIntervals + 1 else 0) = 64 := by rw [if_pos hm, hn]
        exact ⟨(if_neg (by simp [h])).trans ((if_neg h7).trans (if_pos h63)), if_pos h63⟩
    · rfl

/-- Settles O59: losses and destroys run their course, and a page move starts, waits, ends or is given up as the policy has it. -/
theorem lossAndPageMoveResult : Obligations.LossAndPageMoveResult :=
  ⟨lossAndDestroyResult, pageMoveResult⟩

end Sys2Proof.Machine
end

section
/-! PROOFS. The port: the checks of a Folest frame, the frames of a session, the timers, the link and device time. -/

namespace Sys2Proof.Machine

open Sys2Proof.Claims Sys2Proof.Laws

/-! ## The checks of a frame -/

theorem exec_frameRow {row : Frame → Instr} {typ code : Nat} (h : IsFrameRow row typ code) (f : Frame) (s : State) :
    exec (row f) s = receive typ code f s := by
  simp only [IsFrameRow, List.mem_cons, Prod.mk.injEq, List.not_mem_nil, or_false] at h
  rcases h with ⟨rfl, rfl, rfl⟩ | ⟨rfl, rfl, rfl⟩ | ⟨rfl, rfl, rfl⟩ | ⟨rfl, rfl, rfl⟩ | ⟨rfl, rfl, rfl⟩ | ⟨rfl, rfl, rfl⟩ |
    ⟨rfl, rfl, rfl⟩ | ⟨rfl, rfl, rfl⟩ | ⟨rfl, rfl, rfl⟩ | ⟨rfl, rfl, rfl⟩ | ⟨rfl, rfl, rfl⟩ <;> rfl

theorem receive_reaches {s : State} {typ code : Nat} {f : Frame} (h : Reaches s typ code f) :
    receive typ code f s = .next (accept (portCount s 0) f) := by
  have hfits : frameFits f typ code = true := by
    by_cases ht : typ = 1
    · simp [frameFits, h.kind, h.commandCode ht]
    · simp [frameFits, h.kind, ht]
  rw [receive, if_pos ⟨h.passes, h.up, hfits⟩]

theorem portCount_port (s : State) (n : Nat) : (portCount s n).port = s.port :=
  countUp_keeps (p := State.port) (fun _ _ _ _ => rfl) ..

/-- Settles O17: a frame meets the checks of its header and of its session in that order. -/
theorem frameChecksInOrder : Obligations.FrameChecksInOrder := by
  intro row typ code f s hrow hr s0
  have hport : s0.port = s.port := portCount_port s 0
  have hopen : (f.typ.toNat = 1 ∧ frameCode f = 1) ↔ (typ = 1 ∧ code = 1) := by
    rw [hr.kind]; exact and_congr_right fun h => by rw [hr.commandCode h]
  have hreset : (f.typ.toNat = 1 ∧ frameCode f = 5) ↔ (typ = 1 ∧ code = 5) := by
    rw [hr.kind]; exact and_congr_right fun h => by rw [hr.commandCode h]
  rw [exec_frameRow hrow, receive_reaches hr]
  refine ⟨fun hh => ?_, fun hh => ⟨fun h1 h2 => ?_, fun hno => ⟨fun hs ht hc => ?_, fun hs ht => ?_, fun x hs =>
    ⟨fun hx => ?_, fun hx h1 h5 => ?_, fun hx hc => ?_⟩⟩⟩⟩
  · rw [accept, if_pos hh]
  · rw [accept, if_neg (not_not.2 hh), if_pos (hopen.2 ⟨h1, h2⟩)]
  all_goals
    rw [accept, if_neg (not_not.2 hh), if_neg (mt hopen.1 hno), show (portCount s 0).port.session = s.port.session by
      rw [← hport], hs]
  · exact congrArg _ (if_pos ⟨hr.kind.symm ▸ ht, decide_eq_false (mt hreset.1 hc)⟩)
  · refine congrArg _ (if_neg fun ⟨h5, hc⟩ => ?_)
    rw [hr.kind] at h5
    exact of_decide_eq_false hc (hreset.2 (ht.resolve_left (Nat.not_lt.2 h5)))
  · exact congrArg _ (if_pos hx)
  · exact congrArg _ ((if_neg (not_not.2 hx)).trans (if_pos (decide_eq_true (hreset.2 ⟨h1, h5⟩))))
  · exact congrArg _ ((if_neg (not_not.2 hx)).trans (if_neg (by simp [mt hreset.1 hc])))

/-! ## The frames of a session -/

theorem heardFrame_session (s : State) : (heardFrame s).port.session = s.port.session :=
  congrArg (·.session) (portCount_port s 0)

/-- The engine goes on without acting when it holds no frame. -/
theorem resumeFolest_noneHeld {s : State} {x : Session} (hs : s.port.session = some x) (hx : x.held = []) : resumeFolest s = s := by
  show drainHeld (1024 + 1) s = s
  simp only [drainHeld, hs, hx, List.find?_nil]

/-- A frame of the open session that asks for no credits, neither OPEN nor RESET. -/
theorem receive_inSession {s : State} {row : Frame → Instr} {typ code : Nat} {f : Frame} {x : Session}
    (hrow : IsFrameRow row typ code) (hr : Reaches s typ code f) (hh : headerCheck f = 0) (hs : s.port.session = some x)
    (hx : f.session = x.id) (h1 : ¬(typ = 1 ∧ code = 1)) (h5 : ¬(typ = 1 ∧ code = 5)) :
    exec (row f) s = .next (inSession (portCount s 0) f) :=
  (((frameChecksInOrder row typ code f s hrow hr).2 hh).2 h1).2.2 x hs |>.2.2 hx h5

theorem inSession_plain {s : State} {f : Frame} (ha : f.ackv = false) (hc : f.creditReq = false) :
    inSession (portCount s 0) f = resumeFolest (match f.typ.toNat with
      | 7 => heardFrame s
      | 8 => resendRange (heardFrame s) (w32 (le f.payload 0 4)) (w32 (le f.payload 4 4))
      | 9 => heardFrame s
      | _ => sequenced (heardFrame s) f) := by
  simp only [inSession, ha, hc, Bool.false_eq_true, if_false] <;> rfl

/-- A sequenced frame at the expected number: what acting on it leaves, with its number taken. -/
theorem expected_acted {s t : State} {row : Frame → Instr} {typ code : Nat} {f : Frame} {x : Session} (hrow : IsFrameRow row typ code)
    (h : Expected s x typ code f) (ht : typ ≤ 5) (h1 : ¬(typ = 1 ∧ code = 1)) (h5 : ¬(typ = 1 ∧ code = 5))
    (ha : act (heardFrame s) x f = (t, some (0, 0))) :
    exec (row f) s = .next (resumeFolest (resumeFolest (acted t x f 0 0))) := by
  obtain ⟨hr, hh, ⟨hs, hid⟩, ⟨hseq, hheld⟩, hack, hcredit⟩ := h
  rw [receive_inSession hrow hr hh hs hid h1 h5, inSession_plain hack hcredit]
  have hsequenced : sequenced (heardFrame s) f = resumeFolest (acted t x f 0 0) := by
    simp only [sequenced, heardFrame_session, hs, hheld, hseq, BitVec.sub_self, List.any_nil, ha]
    rfl
  have hkind : f.typ.toNat ≤ 5 := hr.kind.symm ▸ ht
  rw [← hsequenced]
  split
  · omega
  · omega
  · omega
  · rfl

theorem actDma_written {s s2 s3 : State} {f : Frame} {x : Session} (hf : f.typ.toNat = 3) (h : DmaRange s f .w s2)
    (hw : writeRange s2 (le f.payload 0 2) (le f.payload 0x10 8) (f.payload.drop 32) = (s3, 0)) :
    actDma s f x = (s3, some (0, 0)) := by
  obtain ⟨hctx, ⟨h1, h2⟩, hbelow, s1, hp, hclaim⟩ := h
  have hread : decide (f.typ = 4) = false := decide_eq_false fun h4 => by simp [h4] at hf
  simp only [actDma, hctx, ne_eq, not_true_eq_false, false_and, if_false, Nat.ne_of_gt h1, Nat.not_lt.2 h2, Nat.not_lt.2 hbelow,
    or_self, hread, Bool.false_eq_true, hp, hclaim, hw, if_true]

theorem actDma_answered {s s2 : State} {f : Frame} {x : Session} {d : List Byte} (hf : f.typ.toNat = 4) (h : DmaRange s f .r s2)
    (hn : x.unacked.countP (fun g => decide (g.typ = 4)) < 64)
    (hr : readRange s2 (le f.payload 0 2) (le f.payload 0x10 8) (le f.payload 0x18 4) = .bytes d 0) :
    actDma s f x = (pushTx s2 0x04 true (slice f.payload 0 2 ++ zeros 2 ++ slice f.payload 4 24 ++ zeros 4 ++ d) none s2.now,
      some (0, 0)) := by
  obtain ⟨hctx, ⟨h1, h2⟩, hbelow, s1, hp, hclaim⟩ := h
  have hread : decide (f.typ = 4) = true := decide_eq_true (BitVec.eq_of_toNat_eq hf)
  simp only [actDma, hctx, ne_eq, not_true_eq_false, false_and, if_false, Nat.ne_of_gt h1, Nat.not_lt.2 h2, Nat.not_lt.2 hbelow,
    or_self, hread, if_true, hp, Nat.not_le.2 hn, and_false, hclaim, hr]
  rfl

theorem actIngest_bound {s : State} {f : Frame} {b : Binding} (hc : ctxDetail s (le f.payload 0 2) (le f.payload 8 8) = 0)
    (hb : s.bound.find? (fun b => decide (b.ctx = le f.payload 0 2) && decide (b.record.toNat = le f.payload 0x10 8)) = some b) :
    actIngest s f = ingestBound { s with port := { s.port with
      bindings := s.bound.map fun y => if y = b then { b with last := s.clock } else y } } f { b with last := s.clock } := by
  simp only [actIngest, hc, ne_eq, not_true_eq_false, if_false, hb]
  rfl

theorem headerCheck_ack {f : Frame} (h : headerCheck f = 0) (ht : f.typ.toNat = 7) : f.ackv = true := by
  by_contra ha
  simp only [headerCheck, ht] at h
  split at h
  · simp at h
  split at h
  · simp at h
  split at h
  · simp at h
  simp [ha] at h

theorem beyond_partnerAck (x : Session) : x.beyond x.partnerAck = 0 := by simp [Session.beyond]

/-- An ACK of nothing new clears the marks of the SACK blocks before it. -/
theorem takeAck_repeated {s : State} {f : Frame} {x : Session} (hs : s.port.session = some x) (ht : f.typ = 7)
    (ha : f.ack = x.partnerAck) (hc : frameCode f = 0) :
    takeAck s f = s.setSession { x with unacked := x.unacked.map fun (g : TxFrame) => { g with sacked := false } } := by
  simp only [takeAck, hs, ha, beyond_partnerAck, Nat.not_lt_zero, lt_self_iff_false, false_and, if_false, ht, if_true, takeSack, hc,
    List.range_zero, List.map_nil, List.any_nil, List.length_nil, anyMeet, Bool.or_false, Bool.false_eq_true, or_self]

theorem resendRange_empty (s : State) (n : W32) : resendRange s n n = s := by
  unfold resendRange
  split
  · rfl
  · simp

/-- Settles O18: the expected frame of a session is acted on, and the frames without a number have their effect. -/
theorem expectedFrameResult : Obligations.ExpectedFrameResult := by
  refine ⟨fun f x s => ⟨fun h => ?_, fun h t ht => ?_, fun h hm hl hu => ?_, fun h s2 hd s3 hw => ?_, fun h s2 d hd hn hrd => ?_,
    fun h b t hctx hb => ?_⟩, fun f x s hs hx hh hc hheld => ⟨fun hr ha => ?_, fun hr ha hcode => ?_, fun hr ha hn => ?_⟩⟩
  · refine expected_acted (row := .folestNop) (by simp [IsFrameRow]) h (by omega) (by omega) (by omega) ?_
    simp [act, h.reaches.kind, h.reaches.commandCode rfl]
  · refine expected_acted (row := .folestClose) (by simp [IsFrameRow]) h (by omega) (by omega) (by omega) ?_
    simp [act, h.reaches.kind, h.reaches.commandCode rfl, ht]
  · refine expected_acted (row := .mailboxFrame) (by simp [IsFrameRow]) h (by omega) (by omega) (by omega) ?_
    simp only [act, h.reaches.kind, Nat.not_lt.2 hm, Nat.not_lt.2 hl, Nat.not_lt.2 hu, or_self, if_false]
  · refine expected_acted (row := .dmaWrite) (by simp [IsFrameRow]) h (by omega) (by omega) (by omega) ?_
    simp only [act, h.reaches.kind, actDma_written h.reaches.kind hd hw]
  · refine expected_acted (row := .dmaRead) (by simp [IsFrameRow]) h (by omega) (by omega) (by omega) ?_
    simp only [act, h.reaches.kind, actDma_answered h.reaches.kind hd hn hrd]
  · refine fun hi => expected_acted (row := .ingest) (by simp [IsFrameRow]) h (by omega) (by omega) (by omega) ?_
    simp only [act, h.reaches.kind]
    rw [actIngest_bound hctx hb]
    exact hi
  · rw [receive_inSession (row := .keepalive) (by simp [IsFrameRow]) hr hh hs hx (by omega) (by omega), inSession_plain ha hc]
    simp only [hr.kind]
    exact congrArg _ (resumeFolest_noneHeld ((heardFrame_session s).trans hs) hheld)
  · rw [receive_inSession (row := .ackFrame) (by simp [IsFrameRow]) hr hh hs hx (by omega) (by omega)]
    have hack : f.ackv = true := headerCheck_ack hh hr.kind
    have hheard : (heardFrame s).port.session = some x := (heardFrame_session s).trans hs
    have htake := takeAck_repeated hheard (BitVec.eq_of_toNat_eq hr.kind : f.typ = 7) ha hcode
    have hin : inSession (portCount s 0) f = resumeFolest (takeAck (heardFrame s) f) := by
      simp only [inSession, hack, hc, hr.kind, Bool.false_eq_true, if_true, if_false]
      rfl
    rw [hin, htake]
    exact congrArg _ (resumeFolest_noneHeld rfl hheld)
  · rw [receive_inSession (row := .nackFrame) (by simp [IsFrameRow]) hr hh hs hx (by omega) (by omega), inSession_plain ha hc]
    simp only [hr.kind, hn, resendRange_empty]
    exact congrArg _ (resumeFolest_noneHeld ((heardFrame_session s).trans hs) hheld)

end Sys2Proof.Machine
end

section
/-! PROOFS. The port's timers and queues, the link, the answers below Folest, and device time. -/

namespace Sys2Proof.Machine

open Sys2Proof.Claims Sys2Proof.Laws

/-! ## Timers and queues -/

theorem queueEvent_queued {s : State} {ctx tag : Nat} {payload : List Byte} {c : Context} (hc : s.ctx? ctx = some c)
    (hst : c.state ≠ .destroying) (hp : s.evPending ctx < 2048) (hb : s.eventBytes + 24 + payload.length ≤ 62 * 2 ^ 20) :
    queueEvent s ctx false tag payload = { s.setCtx ctx { c with evCount := c.evCount + 1, evFlag := false } with
      port := { s.port with events := s.port.events ++ [{ ctx := ctx, gen := c.gen, bell := false, tag := tag, serial := w32 c.evCount, dropped := c.evFlag, time := s.now, payload := payload }] } } := by
  simp only [queueEvent, hc]
  rw [if_neg hst, if_neg (by omega)]

/-- The words that hold the bytes of a store. -/
theorem length_wholeWords (data : List Byte) : (data ++ zeros ((4 - data.length % 4) % 4)).length = (data.length + 3) / 4 * 4 := by
  simp only [List.length_append, zeros, List.length_replicate]
  omega

theorem portTimersResult : PortTimersResult := by
  refine ⟨fun x g s hs hg ht => ⟨fun hr => ?_, fun hr => ?_⟩, fun x s hs => ⟨fun ha => ?_, fun ha => ?_, fun ht => ?_, fun ht => ?_,
    fun ht => ?_, fun ht => ?_⟩, fun t s => ⟨_, rfl, fun b hb => ?_, fun b hb hi => ?_, rfl⟩,
    fun ctx line data s c hl h1 h2 hc hst hp hb => ?_, fun ctx x e s hs he ho hw hsent => ?_, fun n rest x s hn ho hs => ?_⟩
  · show execRetransmitTimeout s = _
    simp only [execRetransmitTimeout, hs, hg, Nat.not_lt.2 ht, hr, if_false, if_true]
  · show execRetransmitTimeout s = _
    simp only [execRetransmitTimeout, hs, hg, Nat.not_lt.2 ht, Nat.not_le.2 hr, if_false]
  · show execDelayedAck s = _
    simp only [execDelayedAck, hs, ha, if_true]
  · show execDelayedAck s = _
    simp only [execDelayedAck, hs, ha, Bool.false_eq_true, if_false]
  · show execKeepaliveTimer s = _
    simp only [execKeepaliveTimer, hs, Option.isSome_some, ht, and_self, if_true]
  · show execSessionTimeout s = _
    simp only [execSessionTimeout, hs, Option.isSome_some, ht, and_self, if_true]
  · show execKeepaliveTimer s = _
    simp only [execKeepaliveTimer, Nat.not_le.2 ht, and_false, if_false]
  · show execSessionTimeout s = _
    simp only [execSessionTimeout, Nat.not_le.2 ht, and_false, if_false]
  · obtain ⟨hmem, hidle⟩ := List.mem_filter.1 hb
    exact ⟨hmem, by simpa only [Bool.not_eq_true', Bool.and_eq_false_iff, decide_eq_false_iff_not, not_and_or] using hidle⟩
  · exact List.mem_filter.2 ⟨hb, by
      simpa only [Bool.not_eq_true', Bool.and_eq_false_iff, decide_eq_false_iff_not, not_and_or] using hi⟩
  · have hgo : ¬(256 ≤ line ∨ data = [] ∨ 128 < data.length) := by
      have hsome : data ≠ [] := fun h => by simp [h] at h1
      simp only [not_or, not_le, not_lt]
      exact ⟨hl, hsome, h2⟩
    have hlen := length_wholeWords data
    refine ⟨_, _, (if_neg hgo).trans (congrArg Host.Outcome.next (queueEvent_queued hc hst hp (hlen ▸ hb))), rfl, rfl, rfl, rfl, rfl,
      List.take_left' rfl, hlen, rfl, rfl⟩
  · have hall : (x.unacked.all fun g => g.sent) = true := List.all_eq_true.2 hsent
    show execEventFrameSend ctx s = _
    simp only [execEventFrameSend, hs, he, ho, hw, hall, and_self, if_true]
  · show execNoticeSend s = _
    simp only [execNoticeSend, hn, ho, hs]

/-! ## The link and the answers below Folest -/

theorem answerFor_good {s : State} {o : Out} (h : s.answersPort = true) : answerFor s true true o = wire s o := by
  simp only [answerFor, h, Bool.true_eq_false, if_false, if_true]

theorem answerFor_other {s : State} {o : Out} (h : s.answersPort = true) : answerFor s true false o = portCount s 4 := by
  simp only [answerFor, h, Bool.true_eq_false, Bool.false_eq_true, if_false]

theorem answerFor_foreign {s : State} {g : Bool} {o : Out} (h : s.answersPort = true) : answerFor s false g o = portCount s 3 := by
  simp only [answerFor, h, Bool.true_eq_false, if_false, if_true]

/-- What MACsec has agreed on. -/
def State.mka (s : State) : Bool × Bool := (s.port.mkaLive, s.port.sak)

theorem emitFrame_mka (s : State) (x : Session) (typ : BitVec 8) (retx resp : Bool) (seq : W32) (time : Nat) (payload : List Byte) :
    (emitFrame s x typ retx resp seq time payload).mka = s.mka := by
  show (portCount s 1).mka = s.mka
  rw [State.mka, portCount_port, State.mka]

theorem pump_mka (s : State) : (pump s).mka = s.mka := by
  unfold pump
  split
  · rfl
  · refine foldl_keeps (p := State.mka) (fun s f => ?_) _ _
    split
    · split
      · exact emitFrame_mka ..
      · rfl
    · rfl

theorem pump_noSession {s : State} (h : s.port.session = none) : pump s = s := by
  simp only [pump, h]

/-! ## Device time -/

theorem stepTime_time (s : State) (m : Nat) : (stepTime s m).time = m :=
  logEvent_keeps (p := State.time) (fun _ _ _ => rfl) ..

theorem stepTime_slow (s : State) (m : Nat) : (stepTime s m).port.slow = 0 :=
  logEvent_keeps (p := fun s => s.port.slow) (fun _ _ _ => rfl) ..

/-- From `s` to `t` device time has not gone back, and where it has moved it runs at its own rate (R389). -/
def TimeForward (s t : State) : Prop := s.time ≤ t.time ∧ (t.time = s.time ∨ t.port.slow = 0)

theorem TimeForward.refl (s : State) : TimeForward s s := ⟨le_rfl, .inl rfl⟩

theorem stepTime_forward {s : State} {m : Nat} (h : s.time ≤ m) : TimeForward s (stepTime s m) :=
  ⟨(stepTime_time s m).symm ▸ h, .inr (stepTime_slow s m)⟩

theorem correctTime_forward (s : State) (m : Nat) : TimeForward s (correctTime s m) := by
  unfold correctTime
  split
  · exact stepTime_forward (by omega)
  · split
    · exact ⟨‹_›, .inr rfl⟩
    · exact ⟨le_rfl, .inl rfl⟩

/-- What the port knows of its lock says nothing of the time. -/
theorem TimeForward.locked {s u : State} (h : TimeForward s u) (l e : Bool) :
    TimeForward s { u with port := { u.port with locked := l, everLocked := e } } := h

/-- The corrected state is generalised before its lock is set: to compare the two states the kernel would reduce the test of
the offset, whose time of a thousand million it counts in unary. -/
theorem ptpTime_forward (s : State) (m : Nat) : TimeForward s (ptpTime s m) := by
  unfold ptpTime
  split
  · exact .refl s
  extract_lets +onlyGivenNames p s0 m0 k m1
  split
  · have h : TimeForward s (correctTime s0 m1) := correctTime_forward s0 m1
    generalize correctTime s0 m1 = u at h ⊢
    exact h.locked _ _
  · have h : TimeForward s (if s0.time < m1 then stepTime s0 m1 else correctTime s0 m1) := by
      split
      · exact stepTime_forward (s := s0) (Nat.le_of_lt ‹_›)
      · exact correctTime_forward s0 m1
    generalize (if s0.time < m1 then stepTime s0 m1 else correctTime s0 m1) = u at h ⊢
    exact h.locked _ _

theorem timeSet_forward {m : SbMsg} {s t : State} (h : exec (.timeSet m) s = .next t) : TimeForward s t := by
  have hexec : execTimeSet m s = .next t := h
  have hreply : ∀ (u : State) st p, TimeForward s u → TimeForward s (reply m u 0x32 st p) := fun _ _ _ hu => hu
  simp only [execTimeSet, sideband] at hexec
  split at hexec
  · obtain rfl : s = t := by simpa using hexec
    exact .refl s
  split at hexec
  · obtain rfl := Host.Outcome.next.inj hexec
    exact hreply s _ _ (.refl s)
  split at hexec
  · obtain rfl := Host.Outcome.next.inj hexec
    exact hreply s _ _ (.refl s)
  obtain rfl := Host.Outcome.next.inj hexec
  split
  · exact hreply s _ _ (.refl s)
  split
  · exact hreply _ _ _ (stepTime_forward (Nat.le_of_lt ‹_›))
  · exact hreply _ _ _ (correctTime_forward ..)

/-- Settles O19: no correction of device time takes it back. -/
theorem deviceTimeNeverDecreases : Obligations.DeviceTimeNeverDecreases := by
  intro i s t hi h
  obtain ⟨m, rfl | rfl⟩ | rfl | ⟨m, rfl⟩ := hi
  · obtain rfl : ptpTime s m = t := by simpa [exec, execPtpSync] using h
    exact ptpTime_forward s m
  · obtain rfl : ptpTime s m = t := by simpa [exec, execPtpFollowUp] using h
    exact ptpTime_forward s m
  · have hexec : execPpsInEdge s = .next t := h
    unfold execPpsInEdge at hexec
    split at hexec
    · obtain rfl : s = t := by simpa using hexec
      exact TimeForward.refl s
    · obtain rfl : correctTime s _ = t := by simpa using hexec
      exact correctTime_forward ..
  · exact timeSet_forward h

theorem portEventsResult : PortEventsResult := by
  refine ⟨fun mode s => ⟨rfl, fun h1 h2 h3 h4 => ?_, fun hl => ⟨?_, ?_, ?_, ?_, ?_, ?_⟩⟩, fun ip data s ha =>
    ⟨fun hf hip => ?_, fun hf hip => ?_, fun hip => ⟨?_, ?_⟩, ?_, ?_, ?_, fun he => ?_, fun he => ?_, fun hf ht => ?_⟩,
    fun s ho => ⟨?_, fun d => ?_, fun n => ?_⟩, fun sak s hl hk => ?_, fun s => rfl, fun m s ho => ⟨rfl, rfl⟩,
    fun s => ⟨fun hl ht => ?_, fun hf hp => ?_, fun ht hp => ?_⟩⟩
  · show execLinkUp mode s = _
    rw [execLinkUp, if_pos ⟨h1, h2, h3, h4⟩]
  · show execForeignFrame s = _
    rw [execForeignFrame, if_pos hl]
  iterate 5
    · exact if_neg (by simp [hl])
  · show execArpRequest true ip s = _
    simp only [execArpRequest, hf, hip, Bool.not_false, decide_true, Bool.and_self, answerFor_good ha]
  · show execNdSolicit true ip s = _
    simp only [execNdSolicit, hf, hip, decide_true, Bool.and_self, answerFor_good ha]
  · show execArpRequest true ip s = _
    simp only [execArpRequest, hip, decide_false, Bool.and_false, answerFor_other ha]
  · show execNdSolicit true ip s = _
    simp only [execNdSolicit, hip, decide_false, Bool.and_false, answerFor_other ha]
  · exact congrArg _ (answerFor_foreign ha)
  · exact congrArg _ (answerFor_foreign ha)
  · show execIcmpEcho false data s = _
    simp only [execIcmpEcho, Bool.false_eq_true, false_and, if_false, answerFor_foreign ha]
  · show execIcmpEcho true data s = _
    rw [execIcmpEcho, if_pos ⟨rfl, ha, he⟩]
  · show execIcmpEcho true data s = _
    rw [execIcmpEcho, if_neg (by omega), answerFor_other ha]
  · show execLldpTimer s = _
    simp only [execLldpTimer, ha, hf, ht, decide_true, Bool.and_self, if_true]
  · show execDelayReqTimer s = _
    rw [execDelayReqTimer, if_pos ho]
  · show execPtpDelayResp d s = _
    rw [execPtpDelayResp, if_pos ho]
  · show execPtpAnnounce n s = _
    rw [execPtpAnnounce, if_pos ho]
  · refine ⟨_, show execEapolMka sak s = _ by rw [execEapolMka, if_neg (by simp [hl, hk])], ?_, ?_, fun hsak hs => ?_⟩
    · exact congrArg Prod.fst (pump_mka _)
    · exact congrArg Prod.snd (pump_mka _)
    · rw [pump_noSession (by exact hs)]
      exact if_pos hsak
  · show execPtpHoldover s = _
    rw [execPtpHoldover, if_neg (by simp [hl, ht])]
  · show execPpsInEdge s = _
    rw [execPpsInEdge, if_neg (by simp [hf, hp])]
  · show execPpsOutPulse s = _
    rw [execPpsOutPulse, if_pos ⟨ht, hp⟩]

/-- Settles O58: the port's timers and queues, its link, the answers it gives below Folest, and the rows of device time. -/
theorem portTimersAndEventsResult : Obligations.PortTimersAndEventsResult :=
  ⟨portTimersResult, portEventsResult⟩

end Sys2Proof.Machine
end

section
/-! PROOFS. The sideband: requests that do not fit, the commands that read the state and those that change it. -/

namespace Sys2Proof.Machine

open Sys2Proof.Claims Sys2Proof.Laws

/-! ## Requests -/

theorem sideband_passes {s : State} {code : Nat} {m : SbMsg} {p : List Byte} {fits : List Byte → Bool}
    {body : State → List Byte → State} (h : Requests s code m p) (hf : fits p = true) :
    sideband code m fits s body = .next (body s p) := by
  obtain ⟨ha, rfl, ⟨hl, hu⟩, hz⟩ := h
  simp only [sideband, ha, hl, hf, hz.1, hz.2, Nat.not_lt.2 hu, ne_eq, not_true_eq_false, Bool.true_eq_false, or_self, if_false]

theorem sideband_misfits {s : State} {code : Nat} {m : SbMsg} {fits : List Byte → Bool} {body : State → List Byte → State}
    (h : Misfits s code m) : sideband code m fits s body = .next (reply m s code 0x0802 []) := by
  rw [sideband, if_neg (by simp [h.answered]), if_pos]
  exact h.length.imp id Or.inl

theorem exec_sidebandRow {row : Nat × (SbMsg → Instr)} (h : row ∈ ([(0x01, .identify), (0x02, .stateRead), (0x03, .moduleReset),
    (0x10, .sensorRead), (0x11, .powerCap), (0x12, .policy), (0x13, .policyState), (0x20, .counterRead), (0x21, .lifetimeRead),
    (0x22, .histogramRead), (0x28, .logRead), (0x30, .provision), (0x31, .macsecKey), (0x32, .timeSet), (0x40, .fwBegin),
    (0x41, .fwWrite), (0x43, .fwActivate), (0x44, .fwStatus), (0x50, .attestQuote), (0x51, .attestCert), (0x52, .measureRead)] :
      List (Nat × (SbMsg → Instr)))) (m : SbMsg) (s : State) :
    ∃ fits body, exec (row.2 m) s = sideband row.1 m fits s body := by
  simp only [List.mem_cons, List.not_mem_nil, or_false] at h
  rcases h with rfl | rfl | rfl | rfl | rfl | rfl | rfl | rfl | rfl | rfl | rfl | rfl | rfl | rfl | rfl | rfl | rfl | rfl | rfl |
    rfl | rfl <;> (simp only [exec]; exact ⟨_, _, rfl⟩)

theorem exactly_self {n : Nat} {p : List Byte} (h : p.length = n) : exactly n p = true := decide_eq_true h

theorem exactly_nil : exactly 0 [] = true := rfl

/-! ## What reads take from the state -/

theorem take_vecBytes (w : BitVec 64) (l : List Byte) : (vecBytes w ++ l).take 8 = vecBytes w :=
  List.take_left' (length_leBytes 8 w.toNat)

/-- The counters with the overflow flags of some of them cleared. -/
def ovfCleared (key : Nat → Nat) (t : Table Counter) (i : Nat) : Table Counter :=
  tset Counter.reset t (key i) { tget Counter.reset t (key i) with ovf := false }

theorem ovfCleared_self (key : Nat → Nat) (t : Table Counter) (i : Nat) :
    (tget Counter.reset (ovfCleared key t i) (key i)).ovf = false := by
  rw [ovfCleared, tget_tset_self]

theorem ovfCleared_keeps (key : Nat → Nat) (t : Table Counter) (i k : Nat) (h : (tget Counter.reset t k).ovf = false) :
    (tget Counter.reset (ovfCleared key t i) k).ovf = false := by
  by_cases hk : k = key i
  · rw [hk, ovfCleared_self]
  · rw [ovfCleared, tget_tset_other _ _ _ hk, h]

theorem foldl_ovfCleared_keeps (key : Nat → Nat) (l : List Nat) (t : Table Counter) (k : Nat)
    (h : (tget Counter.reset t k).ovf = false) : (tget Counter.reset (l.foldl (ovfCleared key) t) k).ovf = false := by
  induction l generalizing t with
  | nil => exact h
  | cons i l ih => exact ih _ (ovfCleared_keeps key t i k h)

theorem foldl_ovfCleared (key : Nat → Nat) {l : List Nat} {i : Nat} (t : Table Counter) (hi : i ∈ l) :
    (tget Counter.reset (l.foldl (ovfCleared key) t) (key i)).ovf = false := by
  induction l generalizing t with
  | nil => cases hi
  | cons j l ih =>
    obtain rfl | hi := List.mem_cons.1 hi
    · exact foldl_ovfCleared_keeps key l _ _ (ovfCleared_self key t i)
    · exact ih _ hi

theorem head_leBytes_bit (b : Bool) (l : List Byte) :
    (leBytes 1 (if b then 1 else 0) ++ l).head? = some (if b then 1 else 0) := by
  cases b <;> rfl

theorem sidebandReadResult : SidebandReadResult := by
  refine ⟨fun row hrow m s h => ?_, fun m p s => ⟨fun h => ?_, fun h => ?_, fun h hl => ⟨fun h1 h2 h3 => ?_, fun hbad => ?_⟩,
    fun h hl h1 h2 h3 => ?_, fun h hl hn hall => ?_, fun h hl h1 h2 => ?_, fun h hl h1 => ?_, fun h hl h1 h2 h3 => ?_,
    fun h hl h1 h2 h3 => ?_, fun h hst hf => ?_, fun h hst => ?_, fun h => ?_⟩⟩
  · obtain ⟨fits, body, hexec⟩ := exec_sidebandRow hrow m s
    exact hexec.trans (sideband_misfits h)
  · refine ⟨_, (sideband_passes h exactly_nil : execIdentify m s = _), ?_⟩
    simp only [List.append_assoc]
    exact take_vecBytes ..
  · exact (sideband_passes h exactly_nil : execStateRead m s = _)
  · refine (sideband_passes h (exactly_self hl) : execSensorRead m s = _).trans ?_
    exact congrArg _ (if_neg (by omega))
  · refine (sideband_passes h (exactly_self hl) : execSensorRead m s = _).trans ?_
    exact congrArg _ (if_pos hbad)
  · refine (sideband_passes h (exactly_self hl) : execPolicyState m s = _).trans ?_
    exact congrArg _ (if_neg (by omega))
  · intro key words
    have hexist : ((List.range (le p 5 1)).all fun i => counterExists (le p 0 1) (le p 1 2) (le p 3 2 + i)) = true :=
      List.all_eq_true.2 fun i hi => (hall i (List.mem_range.1 hi)).2
    have hwords : ((List.range (le p 5 1)).flatMap fun i => vecBytes (if counted (le p 0 1) (le p 3 2 + i) then
        counterWord (tget Counter.reset s.counters (key i)) else w64 (Config.freeNat (s.freeVal.2 + i)))) = words :=
      List.flatMap_congr fun i hi => by rw [if_pos (hall i (List.mem_range.1 hi)).1]
    have hexec : ∀ flags, le p 6 1 = flags → flags ≤ 1 → execCounterRead m s = .next (reply m
        (if flags = 1 then { s.freeVal.1 with counters := (List.range (le p 5 1)).foldl (ovfCleared key) s.freeVal.1.counters }
          else s.freeVal.1) 0x20 0 words) := by
      rintro _ rfl hflags
      refine (sideband_passes h (exactly_self hl) : execCounterRead m s = _).trans ?_
      rw [← hwords]
      exact congrArg _ (if_neg (by simp [hexist]; omega))
    exact ⟨fun h0 => hexec 0 h0 (by decide), fun h1 => ⟨_, hexec 1 h1 le_rfl, fun i hi =>
      foldl_ovfCleared key _ (List.mem_range.2 hi)⟩⟩
  · refine (sideband_passes h (exactly_self hl) : execLifetimeRead m s = _).trans ?_
    exact congrArg _ (if_neg (by omega))
  · refine (sideband_passes h (exactly_self hl) : execHistogramRead m s = _).trans ?_
    exact congrArg _ (if_neg (by omega))
  · intro log hlog
    refine (sideband_passes h (exactly_self hl) : execLogRead m s = _).trans (congrArg _ ((if_neg (by omega)).trans ?_))
    have hfull : decide ((if le p 0 1 = 0 then 2097152 else 16384) ≤ log.length) = false :=
      decide_eq_false (Nat.not_le.2 (lt_of_lt_of_le hlog (by split <;> decide)))
    show (match log.head? with
      | some r => if decide ((if le p 0 1 = 0 then 2097152 else 16384) ≤ log.length) ∧ le p 1 8 < r.seq then
          reply m s 0x28 0x080B (leBytes 8 r.seq)
        else reply m s 0x28 0 (((log.filter fun (r : EventRec) => decide (le p 1 8 ≤ r.seq)).take (le p 9 1)).flatMap recordBytes)
      | none => reply m s 0x28 0 []) = _
    rw [hfull]
    cases hh : log with
    | nil => simp
    | cons r rest => simp
  · refine (sideband_passes h (exactly_self hl) : execMeasureRead m s = _).trans (congrArg _ ((if_neg (by omega)).trans ?_))
    cases hm : s.flash.measures with
    | nil => simp
    | cons r rest =>
      have hr : ¬(1 < r.index ∧ le p 0 8 < r.index) := fun hx => Nat.not_lt.2 (h3 r (by rw [hm]; rfl)) hx.2
      exact if_neg hr
  · refine (sideband_passes h exactly_nil : execFwStatus m s = _).trans ?_
    exact congrArg _ (if_pos ⟨hst, hf⟩)
  · refine ⟨_, (sideband_passes h exactly_nil : execFwStatus m s = _).trans (congrArg _ (if_neg fun hx => hst hx.1)), ?_⟩
    rw [List.append_assoc, List.append_assoc, List.append_assoc]
    exact head_leBytes_bit ..
  · exact (sideband_passes h exactly_nil : execAttestCert m s = _)

/-! ## What the records of a write leave -/

section

variable {β : Type} {p : State → β}

/-- A record in the log changes the two rings of records and the lifetime counters alone. -/
theorem logEvent_onlyLog (hp : ∀ (s : State) events severe life lost, p { s with
      flash := { s.flash with events := events, severe := severe }, reeve := { s.reeve with life := life, eventsLost := lost } } = p s)
    (s : State) (r : EventRec) : p (logEvent s r) = p s := by
  unfold logEvent
  extract_lets merge
  clear_value merge
  cases merge with
  | some q => exact hp s _ s.flash.severe s.reeve.life s.reeve.eventsLost
  | none => exact hp s _ _ _ _

theorem measureRecord_keeps (hp : ∀ (s : State) measures count chain, p { s with
      flash := { s.flash with measures := measures, measureCount := count, chain := chain } } = p s)
    (s : State) (kind part code : Nat) (r : List Byte) : p (measureRecord s kind part code r) = p s := by
  unfold measureRecord measure
  exact hp s _ _ _

end

theorem lifeAdd_value {s : State} {k n : Nat} (h : (tget Life.reset s.reeve.life k).value + n < 2 ^ 64 - 1) :
    (tget Life.reset (lifeAdd s k n).reeve.life k).value = (tget Life.reset s.reeve.life k).value + n := by
  simp only [lifeAdd, tget_tset_self, if_pos h]

/-- A lifetime counter that does not reach its limit counts without a record. -/
theorem lifeUp_counts {s : State} {k n : Nat} (h : (tget Life.reset s.reeve.life k).value + n < 2 ^ 64 - 1)
    (hs : (tget Life.reset s.reeve.life k).stuck = false) : lifeUp s k n = lifeAdd s k n := by
  have hstuck : (tget Life.reset (lifeAdd s k n).reeve.life k).stuck = false := by
    simp only [lifeAdd, tget_tset_self, if_pos h, hs, Bool.false_or]
    exact decide_eq_false (Nat.ne_of_lt h)
  simp only [lifeUp, hstuck, Bool.false_and, Bool.false_eq_true, if_false]

/-- The cells of a slot once bytes have been written to it from an offset on. -/
def cellsWritten (c : List Host.Cell) (off : Nat) (bs : List Byte) : List Host.Cell :=
  ((List.range bs.length).zip bs).foldl (fun c b => tset 0xFF c (off + b.1) b.2) c

theorem tget_cellsWritten_from (off : Nat) (bs : List Byte) (n i : Nat) (c : List Host.Cell) :
    tget 0xFF (((List.range' n bs.length).zip bs).foldl (fun c b => tset 0xFF c (off + b.1) b.2) c) (off + i) =
      if n ≤ i ∧ i < n + bs.length then bs.getD (i - n) 0 else tget 0xFF c (off + i) := by
  induction bs generalizing n c with
  | nil => simp
  | cons b bs ih =>
    rw [List.length_cons, List.range'_succ, List.zip_cons_cons, List.foldl_cons, ih]
    obtain hi | rfl | hi := Nat.lt_trichotomy i n
    · rw [if_neg (by omega), if_neg (by omega), tget_tset_other _ _ _ (by omega)]
    · rw [if_neg (by omega), if_pos (by omega), tget_tset_self, Nat.sub_self, List.getD_cons_zero]
    · rw [tget_tset_other _ _ _ (by omega)]
      obtain ⟨d, rfl⟩ := Nat.exists_eq_add_of_lt hi
      by_cases hd : d < bs.length
      · rw [if_pos (by omega), if_pos (by omega), show n + d + 1 - n = (n + d + 1 - (n + 1)) + 1 by omega, List.getD_cons_succ]
      · rw [if_neg (by omega), if_neg (by omega)]

theorem map_tget_cellsWritten (c : List Host.Cell) (off : Nat) (bs : List Byte) :
    (List.range bs.length).map (fun i => tget 0xFF (cellsWritten c off bs) (off + i)) = bs := by
  refine List.ext_getElem (by simp) fun i h1 h2 => ?_
  rw [List.getElem_map, List.getElem_range, cellsWritten, List.range_eq_range', tget_cellsWritten_from, if_pos ⟨Nat.zero_le i, by omega⟩,
    Nat.sub_zero, List.getD_eq_getElem?_getD, List.getElem?_eq_getElem h2, Option.getD_some]

theorem slotCells_setSlot_self (s : State) (b : Bool) (cs : List Host.Cell) : (s.setSlot b cs).slotCells b = cs := by
  cases b <;> rfl

theorem slotCells_setSlot_other (s : State) (b : Bool) (cs : List Host.Cell) : (s.setSlot b cs).slotCells (!b) = s.slotCells (!b) := by
  cases b <;> rfl

/-! ## The commands that change state -/

/-- The state in which the quote with the next index has reached flash. -/
def quoteTaken (s : State) : State :=
  let s1 := lifeUp s 5 1
  { s1 with
    flash := { s1.flash with life := tset Life.reset s1.flash.life 5 (tget Life.reset s1.reeve.life 5) }
    reeve := { s1.reeve with quotes := (s.reeve.quotes.filter fun t => decide (s.clock < t + 64000000000)) ++ [s.clock] } }

/-- The state that answers a quote: near the end of the key an event says so. -/
def quoteDone (s : State) (index : Nat) : State :=
  if index + 1 + 2 ^ 20 = 2 ^ 30 then event (quoteTaken s) 5 0x0815 0x0D 0x41 0xFFFF else quoteTaken s

theorem quoteDone_keeps {β : Type} {p : State → β} (hp : ∀ (s : State) events severe life lost, p { s with
      flash := { s.flash with events := events, severe := severe }, reeve := { s.reeve with life := life, eventsLost := lost } } = p s)
    (s : State) (index : Nat) : p (quoteDone s index) = p (quoteTaken s) := by
  unfold quoteDone
  split
  · exact logEvent_onlyLog hp ..
  · rfl

theorem quoteTaken_life {s : State} (hi : (tget Life.reset s.reeve.life 5).value < 2 ^ 30)
    (hs : (tget Life.reset s.reeve.life 5).stuck = false) :
    (tget Life.reset (quoteTaken s).flash.life 5).value = (tget Life.reset s.reeve.life 5).value + 1 := by
  have hn : (tget Life.reset s.reeve.life 5).value + 1 < 2 ^ 64 - 1 := by omega
  simp only [quoteTaken, tget_tset_self, lifeUp_counts hn hs]
  exact lifeAdd_value hn

theorem moduleResetCommand {m : SbMsg} {p : List Byte} {s : State} (h : Requests s 0x03 m p) (hl : p.length = 1)
    (ht : s.power.trip = false) :
    (2 < le p 0 1 → exec (.moduleReset m) s = .next (reply m s 0x03 0x0803 [])) ∧
    (le p 0 1 < 2 → exec (.moduleReset m) s = .next (moduleReset (reply m s 0x03 0 []) (decide (le p 0 1 = 1)))) ∧
    (le p 0 1 = 2 → exec (.moduleReset m) s = .next (reeveReset (reply m s 0x03 0 []))) := by
  have hexec := (sideband_passes h (exactly_self hl) : execModuleReset m s = _)
  simp only [ht, Bool.false_eq_true, if_false] at hexec
  refine ⟨fun h2 => ?_, fun h2 => ?_, fun h2 => ?_⟩ <;> refine hexec.trans ?_
  · rw [if_pos h2]
  · rw [if_neg (by omega), if_neg (Nat.ne_of_lt h2)]
  · rw [if_neg (by omega), if_pos h2]

theorem powerCapCommand {m : SbMsg} {p : List Byte} {s : State} (h : Requests s 0x11 m p) (hl : p.length = 3) (h1 : le p 0 1 = 1) :
    (40 ≤ le p 1 2 → le p 1 2 ≤ 96 →
      ∃ t, exec (.powerCap m) s = .next (reply m t 0x11 0 (leBytes 2 (le p 1 2))) ∧ t.flash.cap = le p 1 2 ∧ t.mem = s.mem) ∧
    (le p 1 2 < 40 ∨ 96 < le p 1 2 → exec (.powerCap m) s = .next (reply m s 0x11 0x0803 [])) := by
  have hexec := (sideband_passes h (by simp [exactly, hl]) : execPowerCap m s = _)
  dsimp only at hexec
  refine ⟨fun h2 h3 => ⟨measureRecord { s with flash := { s.flash with cap := le p 1 2 } } 5 0xFFFF 0x11 (leBytes 2 (le p 1 2)),
    hexec.trans ?_, measureRecord_keeps (p := fun s => s.flash.cap) (fun _ _ _ _ => rfl) ..,
    measureRecord_keeps (p := State.mem) (fun _ _ _ _ => rfl) ..⟩, fun hbad => hexec.trans ?_⟩
  · rw [if_neg (by omega), if_neg (by omega)]
  · rw [if_pos (.inr ⟨h1, hbad⟩)]

theorem policyCommand {m : SbMsg} {p : List Byte} {s : State} (h : Requests s 0x12 m p) (hl : p.length = 12) (h1 : le p 0 1 ≤ 11)
    (h2 : le p 1 1 ≤ 3) (h3 : le p 2 1 ≤ 1) (h4 : le p 3 1 ≤ 25) (h5 : le p 1 1 = 2 ∨ le p 3 1 = 0) :
    ((s.part (le p 0 1)).state = .unconfigured → exec (.policy m) s = .next (reply m s 0x12 0x0805 [])) ∧
    (∀ t v w, (s.part (le p 0 1)).state ≠ .unconfigured →
      policyAccess s (le p 0 1) (le p 1 1) (le p 2 1) (le p 3 1) (w64 (le p 4 8)) 0x0803 = (t, 0, v, w) →
      exec (.policy m) s = .next (reply m t 0x12 0 (vecBytes v ++ vecBytes w))) := by
  have hexec := (sideband_passes h (by simp [exactly, hl]) : execPolicy m s = _)
  dsimp only at hexec
  rw [if_neg (by omega)] at hexec
  refine ⟨fun hu => hexec.trans ?_, fun t v w hu ha => hexec.trans ?_⟩
  · rw [if_pos hu]
  · rw [if_neg hu, ha]
    rfl

theorem provisionCommand {m : SbMsg} {p : List Byte} {s : State} (h : Requests s 0x30 m p) (hl : p.length = 129) (h1 : le p 0 1 = 1)
    (h2 : le (p.drop 1) 1 1 < 32) (h3 : le (p.drop 1) 0x44 60 = 0) :
    ∃ t, exec (.provision m) s = .next (reply m t 0x30 0 (provStore (p.drop 1))) ∧
      t.flash.prov = BitVec.ofNat 1024 (leNat (provStore (p.drop 1))) ∧ t.port = s.port := by
  have hexec := (sideband_passes h (by simp [exactly, hl]) : execProvision m s = _)
  dsimp only at hexec
  rw [if_neg (by omega), if_neg (by omega)] at hexec
  exact ⟨_, hexec, measureRecord_keeps (p := fun s => s.flash.prov) (fun _ _ _ _ => rfl) ..,
    measureRecord_keeps (p := State.port) (fun _ _ _ _ => rfl) ..⟩

theorem timeSetCommand {m : SbMsg} {p : List Byte} {s : State} (h : Requests s 0x32 m p) (hl : p.length = 8) :
    (s.port.everLocked = true → exec (.timeSet m) s = .next (reply m s 0x32 0x0806 [])) ∧
    (s.port.everLocked = false → s.time < le p 0 8 → exec (.timeSet m) s = .next (reply m (stepTime s (le p 0 8)) 0x32 0 [])) ∧
    (s.port.everLocked = false → le p 0 8 ≤ s.time → exec (.timeSet m) s = .next (reply m (correctTime s (le p 0 8)) 0x32 0 [])) := by
  have hexec := (sideband_passes h (exactly_self hl) : execTimeSet m s = _)
  refine ⟨fun he => hexec.trans ?_, fun he ht => hexec.trans ?_, fun he ht => hexec.trans ?_⟩
  · rw [if_pos he]
  · rw [if_neg (Bool.eq_false_iff.1 he), if_pos ht]
  · rw [if_neg (Bool.eq_false_iff.1 he), if_neg (Nat.not_lt.2 ht)]

theorem fwBeginCommand {m : SbMsg} {s : State} (h : Requests s 0x40 m []) :
    (s.reeve.fwOpen = true → exec (.fwBegin m) s = .next (reply m s 0x40 0x0804 [])) ∧
    (s.reeve.fwOpen = false → ∃ t, exec (.fwBegin m) s = .next (reply m t 0x40 0 []) ∧ t.reeve.fwOpen = true ∧
      t.slotCells s.idleSlot = [] ∧ t.slotCells (!s.idleSlot) = s.slotCells (!s.idleSlot)) := by
  have hexec := (sideband_passes h exactly_nil : execFwBegin m s = _)
  refine ⟨fun ho => hexec.trans (congrArg _ (if_pos ho)), fun ho => ⟨_, hexec.trans (congrArg _ (if_neg (Bool.eq_false_iff.1 ho))), rfl,
    slotCells_setSlot_self .., slotCells_setSlot_other ..⟩⟩

theorem fwWriteCommand {m : SbMsg} {p : List Byte} {s : State} (h : Requests s 0x41 m p) (hl : 17 ≤ p.length) (hz : le p 8 8 = 0)
    (hb : le p 0 8 + (p.length - 16) ≤ 2 ^ 25) :
    (s.reeve.fwOpen = false → exec (.fwWrite m) s = .next (reply m s 0x41 0x0808 [])) ∧
    (s.reeve.fwOpen = true → ∃ t, exec (.fwWrite m) s = .next (reply m t 0x41 0 []) ∧
      t.slotBytes s.idleSlot (le p 0 8) (p.length - 16) = p.drop 16 ∧
      t.slotCells (!s.idleSlot) = s.slotCells (!s.idleSlot) ∧ t.reeve.verified = none) := by
  have hgo : ¬(le p 8 8 ≠ 0 ∨ 2 ^ 25 < le p 0 8 + (p.drop 16).length) := by rw [List.length_drop]; omega
  have hexec := (sideband_passes h (decide_eq_true hl) : execFwWrite m s = _)
  dsimp only at hexec
  rw [if_neg hgo] at hexec
  refine ⟨fun ho => hexec.trans (congrArg _ (if_pos ho)), fun ho => ⟨_, hexec.trans (congrArg _ (if_neg (by simp [ho]))), ?_,
    slotCells_setSlot_other .., rfl⟩⟩
  have hcells := slotCells_setSlot_self s s.idleSlot (cellsWritten (s.slotCells s.idleSlot) (le p 0 8) (p.drop 16))
  rw [← List.length_drop]
  refine Eq.trans ?_ (map_tget_cellsWritten (s.slotCells s.idleSlot) (le p 0 8) (p.drop 16))
  rw [← hcells]
  rfl

theorem attestQuoteCommand {m : SbMsg} {p : List Byte} {s : State} (h : Requests s 0x50 m p) (hl : p.length = 32) :
    let index := (tget Life.reset s.reeve.life 5).value
    (2 ^ 30 ≤ index → exec (.attestQuote m) s = .next (reply m s 0x50 0x080C [])) ∧
    (index < 2 ^ 30 → 16 ≤ (s.reeve.quotes.filter fun t => decide (s.clock < t + 1000000000)).length →
      exec (.attestQuote m) s = .next (reply m s 0x50 0x080D [])) ∧
    (index < 2 ^ 30 → s.reeve.quotes = [] → (tget Life.reset s.reeve.life 5).stuck = false →
      ∃ t, exec (.attestQuote m) s = .next (reply m t 0x50 0 (quoteBytes s p index ++ Config.hssSign (quoteBytes s p index))) ∧
        (tget Life.reset t.flash.life 5).value = index + 1 ∧ t.reeve.quotes = [s.clock]) := by
  intro index
  have hexec := (sideband_passes h (exactly_self hl) : execAttestQuote m s = _)
  refine ⟨fun hi => hexec.trans (congrArg _ (if_pos hi)), fun hi hq => hexec.trans (congrArg _ ((if_neg (Nat.not_le.2 hi)).trans
    (if_pos (.inl hq)))), fun hi hq hs => ⟨quoteDone s index, hexec.trans (congrArg _ ((if_neg (Nat.not_le.2 hi)).trans
    (if_neg (by simp [hq])))), ?_, ?_⟩⟩
  · rw [quoteDone_keeps (p := fun s => s.flash.life) (fun _ _ _ _ _ => rfl)]
    exact quoteTaken_life hi hs
  · rw [quoteDone_keeps (p := fun s => s.reeve.quotes) (fun _ _ _ _ _ => rfl)]
    simp only [quoteTaken, hq, List.filter_nil, List.nil_append]

theorem sidebandWriteResult : SidebandWriteResult := by
  refine fun m p s => ⟨moduleResetCommand, powerCapCommand, policyCommand, provisionCommand, fun h h1 h2 hl => ?_, timeSetCommand,
    fwBeginCommand, fwWriteCommand, fun sig h => ⟨fun hs => ?_, fun hs => ?_⟩, fun h => ⟨fun hv => ?_, fun hv => ?_⟩,
    attestQuoteCommand⟩
  · refine (sideband_passes h (decide_eq_true hl) : execMacsecKey m s = _).trans (congrArg _ ?_)
    exact if_neg (by omega)
  · refine (sideband_passes h exactly_nil : execFwVerify m sig s = _).trans (congrArg _ ?_)
    simp only [hs, if_true]
  · refine (sideband_passes h exactly_nil : execFwVerify m sig s = _).trans (congrArg _ ?_)
    simp only [hs, if_false]
  · refine (sideband_passes h exactly_nil : execFwActivate m s = _).trans (congrArg _ ?_)
    exact if_pos hv
  · refine (sideband_passes h exactly_nil : execFwActivate m s = _).trans (congrArg _ ?_)
    exact if_neg hv

/-- Settles O56: the sideband refuses what does not fit and carries out the commands that read and those that write. -/
theorem sidebandResult : Obligations.SidebandResult :=
  ⟨sidebandReadResult, sidebandWriteResult⟩

end Sys2Proof.Machine
end

section
/-! PROOFS. The Reeve: its answers, the islands' clocks and caps, gating, histograms and its restart. -/

namespace Sys2Proof.Machine

open Sys2Proof.Claims Sys2Proof.Laws

/-! ## Islands -/

/-- An island with the cycles of its last clock step counted, when the clock changes. -/
def clockCounted (s : State) (old new : Island) : Island :=
  if new.clock = old.clock then new
  else { new with cycles := old.cycles + (s.power.up - old.since) * old.clock / 20, since := s.power.up }

theorem tget_foldl_tset_of_mem {α : Type} [DecidableEq α] (d : α) (f : Nat → α) {l : List Nat} {i : Nat} (h : i ∈ l) (t : Table α) :
    tget d (l.foldl (fun t i => tset d t i (f i)) t) i = f i := by
  have hkeep : ∀ (l : List Nat) (t : Table α), tget d t i = f i → tget d (l.foldl (fun t i => tset d t i (f i)) t) i = f i := by
    intro l
    induction l with
    | nil => exact fun t ht => ht
    | cons j l ih =>
      intro t ht
      refine ih _ ?_
      by_cases hj : i = j
      · rw [hj, tget_tset_self]
      · rw [tget_tset_other _ _ _ hj, ht]
  induction l generalizing t with
  | nil => cases h
  | cons j l ih =>
    obtain rfl | h := List.mem_cons.1 h
    · exact hkeep l _ (tget_tset_self ..)
    · exact ih h _

theorem setIslands_eq (s : State) (f : Nat → Island → Island) : setIslands s f = { s with reeve := { s.reeve with
    islands := (List.range 528).foldl (fun t i => tset Island.reset t i (clockCounted s (s.island i) (f i (s.island i)))) s.reeve.islands } } := by
  unfold setIslands clockCounted
  rfl

theorem setIslands_island (s : State) (f : Nat → Island → Island) {i : Nat} (h : i < 528) :
    (setIslands s f).island i = clockCounted s (s.island i) (f i (s.island i)) := by
  have hfold := tget_foldl_tset_of_mem Island.reset (fun i => clockCounted s (s.island i) (f i (s.island i))) (List.mem_range.2 h)
    s.reeve.islands
  rw [setIslands_eq, State.island, hfold]

theorem setIslands_keeps {β : Type} {p : State → β}
    (hp : ∀ (s : State) islands, p { s with reeve := { s.reeve with islands := islands } } = p s) (s : State)
    (f : Nat → Island → Island) : p (setIslands s f) = p s := by
  rw [setIslands_eq]
  exact hp s _

section

variable {β : Type} {q : Island → β}

/-- What does not depend on the count of cycles is as the change says. -/
theorem setIslands_gives (hq : ∀ (x : Island) cycles since, q { x with cycles := cycles, since := since } = q x) (s : State)
    (f : Nat → Island → Island) {i : Nat} (h : i < 528) : q ((setIslands s f).island i) = q (f i (s.island i)) := by
  rw [setIslands_island s f h, clockCounted]
  split
  · rfl
  · exact hq ..

end

theorem setIslands_power (s : State) (f : Nat → Island → Island) {i : Nat} (h : i < 528) :
    ((setIslands s f).island i).power = (f i (s.island i)).power :=
  setIslands_gives (q := Island.power) (fun _ _ _ => rfl) s f h

theorem setIslands_heat (s : State) (f : Nat → Island → Island) {i : Nat} (h : i < 528) :
    ((setIslands s f).island i).heat = (f i (s.island i)).heat :=
  setIslands_gives (q := Island.heat) (fun _ _ _ => rfl) s f h

theorem setIslands_coolFor (s : State) (f : Nat → Island → Island) {i : Nat} (h : i < 528) :
    ((setIslands s f).island i).coolFor = (f i (s.island i)).coolFor :=
  setIslands_gives (q := Island.coolFor) (fun _ _ _ => rfl) s f h

/-- A count of the lifetime counters changes nothing but them and the log. -/
theorem lifeUp_onlyLog {β : Type} {p : State → β} (hp : ∀ (s : State) events severe life lost, p { s with
      flash := { s.flash with events := events, severe := severe }, reeve := { s.reeve with life := life, eventsLost := lost } } = p s)
    (s : State) (k n : Nat) : p (lifeUp s k n) = p s := by
  have hadd : p (lifeAdd s k n) = p s := hp s s.flash.events s.flash.severe _ s.reeve.eventsLost
  unfold lifeUp
  extract_lets was s1
  split
  · exact (logEvent_onlyLog hp _ _).trans hadd
  · exact hadd

/-! ## The power loop -/

/-- What one step of the power loop leaves: the loop's own marks and memory; no island is faster than before. -/
structure Slowed (s t : State) : Prop where
  capped : t.reeve.capped = s.reeve.capped
  underFor : t.reeve.underFor = s.reeve.underFor
  watts : t.reeve.powerWatts = s.reeve.powerWatts
  mem : t.mem = s.mem
  power : ∀ i < 528, (t.island i).power ≤ (s.island i).power

theorem setIslands_slowed (s : State) {f : Nat → Island → Island} (hf : ∀ i x, (f i x).power ≤ x.power) : Slowed s (setIslands s f) where
  capped := setIslands_keeps (p := fun s => s.reeve.capped) (fun _ _ => rfl) ..
  underFor := setIslands_keeps (p := fun s => s.reeve.underFor) (fun _ _ => rfl) ..
  watts := setIslands_keeps (p := fun s => s.reeve.powerWatts) (fun _ _ => rfl) ..
  mem := setIslands_keeps (p := State.mem) (fun _ _ => rfl) ..
  power _ hi := (setIslands_power s f hi).trans_le (hf ..)

theorem event_slowed {s t : State} (h : Slowed s t) (level : BitVec 8) (status : W16) (unit die : BitVec 8) (index : W16) :
    Slowed s (event t level status unit die index) where
  capped := (logEvent_onlyLog (p := fun s => s.reeve.capped) (fun _ _ _ _ _ => rfl) ..).trans h.capped
  underFor := (logEvent_onlyLog (p := fun s => s.reeve.underFor) (fun _ _ _ _ _ => rfl) ..).trans h.underFor
  watts := (logEvent_onlyLog (p := fun s => s.reeve.powerWatts) (fun _ _ _ _ _ => rfl) ..).trans h.watts
  mem := (logEvent_onlyLog (p := State.mem) (fun _ _ _ _ _ => rfl) ..).trans h.mem
  power i hi := (congrArg Island.power (logEvent_onlyLog (p := fun s => s.island i) (fun _ _ _ _ _ => rfl) ..)).trans_le (h.power i hi)

theorem lowerClocks_slowed (s : State) : Slowed s (lowerClocks s) := by
  unfold lowerClocks
  extract_lets can
  split
  · split
    · exact ⟨rfl, rfl, rfl, rfl, fun i _ => le_rfl⟩
    · refine event_slowed ?_ ..
      exact ⟨rfl, rfl, rfl, rfl, fun i _ => le_rfl⟩
  · extract_lets first mine s1
    have hs1 : Slowed s s1 := setIslands_slowed s fun _ _ => by
      split
      · exact Nat.sub_le ..
      · exact le_rfl
    split
    · exact event_slowed hs1 ..
    · exact hs1

/-- The state of the power loop once the interval's average has been noted, every island at its ceiling or below. -/
def capMeasured (s : State) (watts : Nat) : State :=
  setIslands { s with reeve := { s.reeve with powerWatts := watts } } fun i x => { x with power := min x.power (s.ceiling i) }

theorem capMeasured_mem (s : State) (watts : Nat) : (capMeasured s watts).mem = s.mem :=
  setIslands_keeps (p := State.mem) (fun _ _ => rfl) ..

theorem capMeasured_watts (s : State) (watts : Nat) : (capMeasured s watts).reeve.powerWatts = watts :=
  setIslands_keeps (p := fun s => s.reeve.powerWatts) (fun _ _ => rfl) ..

theorem capMeasured_parts (s : State) (watts : Nat) : (capMeasured s watts).parts = s.parts :=
  setIslands_keeps (p := State.parts) (fun _ _ => rfl) ..

theorem capMeasured_power (s : State) (watts : Nat) {i : Nat} (h : i < 528) :
    ((capMeasured s watts).island i).power ≤ (s.island i).power :=
  (setIslands_power { s with reeve := { s.reeve with powerWatts := watts } } _ h).trans_le (Nat.min_le_left ..)

theorem ceiling_congr {s t : State} (h : t.parts = s.parts) (i : Nat) : t.ceiling i = s.ceiling i := by
  have hparts : ∀ u : State, u.ceiling i = ({ State.reset with parts := u.parts } : State).ceiling i := fun _ => rfl
  rw [hparts t, hparts s, h]

theorem raiseClocks_keeps {s t : State} (h : raiseClocks s = some t) :
    t.reeve.powerWatts = s.reeve.powerWatts ∧ t.mem = s.mem := by
  unfold raiseClocks at h
  obtain ⟨g, -, rfl⟩ := Option.map_eq_some_iff.1 h
  exact ⟨setIslands_keeps (p := fun s => s.reeve.powerWatts) (fun _ _ => rfl) .., setIslands_keeps (p := State.mem) (fun _ _ => rfl) ..⟩

/-- The state of the loop over the cap: no step has been taken yet. -/
def capExceeded (s : State) (watts : Nat) : State :=
  let s2 := capMeasured s watts
  { s2 with reeve := { s2.reeve with capped := true, underFor := 0 } }

/-- The state of the loop within the cap. -/
def capMet (s : State) (watts : Nat) : State :=
  let s2 := capMeasured s watts
  { s2 with reeve := { s2.reeve with unmet := false } }

def underCounted (s : State) (n : Nat) : State := { s with reeve := { s.reeve with underFor := n } }

def loopEnded (s : State) : State := { s with reeve := { s.reeve with capped := false } }

theorem capExceeded_marks (s : State) (watts : Nat) : (capExceeded s watts).reeve.capped = true ∧
    (capExceeded s watts).reeve.underFor = 0 ∧ (capExceeded s watts).reeve.powerWatts = watts ∧ (capExceeded s watts).mem = s.mem := by
  simp only [capExceeded, capMeasured_watts, capMeasured_mem, and_self]

theorem capExceeded_island (s : State) (watts i : Nat) : (capExceeded s watts).island i = (capMeasured s watts).island i := by
  simp only [capExceeded, State.island]

theorem capMet_keeps (s : State) (watts : Nat) : (capMet s watts).reeve.powerWatts = watts ∧ (capMet s watts).mem = s.mem ∧
    (capMet s watts).parts = s.parts := by
  simp only [capMet, capMeasured_watts, capMeasured_mem, capMeasured_parts, and_self]

theorem powerCapInterval_exceeded {s : State} (hr : s.reeveRuns = true) (hp : s.power.st = .ready) {watts : Nat}
    (hw : 100 * s.capNow < watts) : exec (.powerCapInterval watts) s = .next (lowerClocks (capExceeded s watts)) := by
  show execPowerCapInterval watts s = _
  rw [execPowerCapInterval, if_neg (by simp [hr, hp])]
  exact if_pos hw

/-- Within the cap, with the loop in force: clocks stay or rise by one step. -/
theorem powerCapInterval_capped {s : State} (hr : s.reeveRuns = true) (hp : s.power.st = .ready) {watts : Nat}
    (hw : watts ≤ 100 * s.capNow) (hc : s.reeve.capped = true) :
    ∃ t, exec (.powerCapInterval watts) s = .next t ∧ t.reeve.powerWatts = watts ∧ t.mem = s.mem := by
  obtain ⟨hwatts, hmem, -⟩ := capMet_keeps s watts
  have hexec : execPowerCapInterval watts s = if watts ≤ 98 * s.capNow then
      if s.reeve.underFor + 1 < 100 then .next (underCounted (capMet s watts) (s.reeve.underFor + 1))
      else match raiseClocks (underCounted (capMet s watts) (s.reeve.underFor + 1)) with
        | some t => .next t
        | none => .next (loopEnded (underCounted (capMet s watts) (s.reeve.underFor + 1)))
      else .next (underCounted (capMet s watts) 0) := by
    rw [execPowerCapInterval, if_neg (by simp [hr, hp])]
    exact (if_neg (Nat.not_lt.2 hw)).trans (if_neg (by simp [hc]))
  show ∃ t, execPowerCapInterval watts s = .next t ∧ _
  rw [hexec]
  split
  · split
    · exact ⟨_, rfl, hwatts, hmem⟩
    · split
      next t ht =>
        obtain ⟨hw, hm⟩ := raiseClocks_keeps ht
        exact ⟨t, rfl, hw.trans hwatts, hm.trans hmem⟩
      · exact ⟨_, rfl, by simp only [loopEnded, underCounted, hwatts], by simp only [loopEnded, underCounted, hmem]⟩
  · exact ⟨_, rfl, hwatts, hmem⟩

theorem powerCapInterval_result {s : State} (hr : s.reeveRuns = true) (hp : s.power.st = .ready) (watts : Nat) :
    ∃ t, exec (.powerCapInterval watts) s = .next t ∧ t.reeve.powerWatts = watts ∧ t.mem = s.mem ∧
      (100 * s.capNow < watts → t.reeve.capped = true ∧ t.reeve.underFor = 0 ∧
        ∀ i < 528, (t.island i).power ≤ (s.island i).power) ∧
      (watts ≤ 100 * s.capNow → s.reeve.capped = false → ∀ i < 528, (t.island i).power = s.ceiling i) := by
  by_cases hw : 100 * s.capNow < watts
  · obtain ⟨hcapped, hunder, hwatts, hmem, hpower⟩ := lowerClocks_slowed (capExceeded s watts)
    obtain ⟨hcapped', hunder', hwatts', hmem'⟩ := capExceeded_marks s watts
    exact ⟨_, powerCapInterval_exceeded hr hp hw, hwatts.trans hwatts', hmem.trans hmem', fun _ => ⟨hcapped.trans hcapped',
      hunder.trans hunder', fun i hi => (hpower i hi).trans
        ((congrArg Island.power (capExceeded_island s watts i)).trans_le (capMeasured_power s watts hi))⟩, fun hle => absurd hw (Nat.not_lt.2 hle)⟩
  · cases hc : s.reeve.capped with
    | true =>
      obtain ⟨t, hexec, hwatts, hmem⟩ := powerCapInterval_capped hr hp (Nat.not_lt.1 hw) hc
      exact ⟨t, hexec, hwatts, hmem, fun h => absurd h hw, fun _ h => by cases h⟩
    | false =>
      obtain ⟨hwatts, hmem, hparts⟩ := capMet_keeps s watts
      refine ⟨settleClocks (capMet s watts), ?_, ?_, ?_, fun h => absurd h hw, fun _ _ i hi => ?_⟩
      · show execPowerCapInterval watts s = _
        rw [execPowerCapInterval, if_neg (by simp [hr, hp])]
        exact (if_neg hw).trans (if_pos hc)
      · exact (setIslands_keeps (p := fun s => s.reeve.powerWatts) (fun _ _ => rfl) ..).trans hwatts
      · exact (setIslands_keeps (p := State.mem) (fun _ _ => rfl) ..).trans hmem
      · exact (setIslands_power _ _ hi).trans (ceiling_congr hparts i)

/-! ## Heat and run-ahead -/

/-- What an interval of the thermal loop makes of an island. -/
def throttleIsland (s : State) (i : Nat) (x : Island) : Island :=
  if decide (100000 ≤ s.sensor i) then
    { x with heat := max 16 (x.clock - 1), coolFor := 0, throttledAt := some (s.clock / 1000000000) }
  else if s.sensor i < 97000 then
    let up := x.heat + 1
    if 99 ≤ x.coolFor then { x with heat := if s.ceiling i ≤ up then 42 else up, coolFor := x.coolFor + 1 }
    else { x with coolFor := x.coolFor + 1 }
  else { x with coolFor := 0 }

/-- The record of an island's first throttle in a second. -/
def throttleRecord (s : State) (i : Nat) : State :=
  lifeUp (event s 5 0x0813 0x01 (BitVec.ofNat 8 (0x10 + i / 11)) (BitVec.ofNat 16 (8 * i))) 27 1

theorem throttleRecord_keeps {β : Type} {p : State → β} (hp : ∀ (s : State) events severe life lost, p { s with
      flash := { s.flash with events := events, severe := severe }, reeve := { s.reeve with life := life, eventsLost := lost } } = p s)
    (s : State) (i : Nat) : p (throttleRecord s i) = p s :=
  (lifeUp_onlyLog hp ..).trans (logEvent_onlyLog hp ..)

theorem thermalThrottle_eq {s : State} (hr : s.reeveRuns = true) : ∃ is : List Nat,
    exec .thermalThrottle s = .next (is.foldl throttleRecord (setIslands s (throttleIsland s))) :=
  ⟨_, if_neg (by simp [hr])⟩

theorem thermalThrottle_result {s : State} (hr : s.reeveRuns = true) :
    ∃ t, exec .thermalThrottle s = .next t ∧ t.mem = s.mem ∧ ∀ i < 528,
      (100000 ≤ s.sensor i → (t.island i).heat = max 16 ((s.island i).clock - 1) ∧ (t.island i).coolFor = 0) ∧
      (97000 ≤ s.sensor i → s.sensor i < 100000 → (t.island i).heat = (s.island i).heat ∧ (t.island i).coolFor = 0) ∧
      (s.sensor i < 97000 → (t.island i).coolFor = (s.island i).coolFor + 1) ∧
      ((t.island i).power = (s.island i).power) := by
  obtain ⟨is, hexec⟩ := thermalThrottle_eq hr
  refine ⟨_, hexec, ?_, fun i hi => ?_⟩
  · exact (foldl_keeps (p := State.mem) (throttleRecord_keeps fun _ _ _ _ _ => rfl) is _).trans
      (setIslands_keeps (p := State.mem) (fun _ _ => rfl) ..)
  · have hisland : (is.foldl throttleRecord (setIslands s (throttleIsland s))).island i = (setIslands s (throttleIsland s)).island i :=
      foldl_keeps (p := fun s : State => s.island i) (throttleRecord_keeps (p := fun s => s.island i) fun _ _ _ _ _ => rfl) is _
    rw [hisland, setIslands_heat _ _ hi, setIslands_coolFor _ _ hi, setIslands_power _ _ hi]
    refine ⟨fun h => ?_, fun h1 h2 => ?_, fun h => ?_, ?_⟩
    · rw [throttleIsland, if_pos (decide_eq_true h)]
      exact ⟨rfl, rfl⟩
    · rw [throttleIsland, if_neg (by simpa using h2), if_neg (not_lt.2 h1)]
      exact ⟨rfl, rfl⟩
    · rw [throttleIsland, if_neg (by simp only [decide_eq_true_eq]; omega), if_pos h]
      dsimp only
      split <;> rfl
    · unfold throttleIsland
      dsimp only
      split
      · rfl
      split
      · split <;> rfl
      · rfl

/-- What an interval of the run-ahead policy makes of an island. -/
def policyIsland (s : State) (i : Nat) (x : Island) : Island :=
  let f := s.islandCount i 5
  let u := s.islandCount i 6
  let y := { x with fetched := f, useful := u }
  match s.islandPolicy i with
  | some v => { y with raCap := nextRaCap v x.raCap (f - x.fetched) (u - x.useful) }
  | none => y

theorem policyIsland_counts (s : State) (i : Nat) (x : Island) :
    (policyIsland s i x).fetched = s.islandCount i 5 ∧ (policyIsland s i x).useful = s.islandCount i 6 := by
  unfold policyIsland
  dsimp only
  split <;> exact ⟨rfl, rfl⟩

theorem policyIsland_cap {s : State} {i : Nat} {v : W64} (h : s.islandPolicy i = some v) (x : Island) :
    (policyIsland s i x).raCap = nextRaCap v x.raCap (s.islandCount i 5 - x.fetched) (s.islandCount i 6 - x.useful) := by
  simp only [policyIsland, h]

theorem runAheadPolicy_result {s : State} (hr : s.reeveRuns = true) :
    ∃ t, exec .runAheadPolicy s = .next t ∧ t.mem = s.mem ∧ ∀ i < 528, ∀ v, s.islandPolicy i = some v →
      let fetched := s.islandCount i 5 - (s.island i).fetched
      let useful := s.islandCount i 6 - (s.island i).useful
      (raLock v = true → (t.island i).raCap = raCapMax v) ∧
      (raLock v = false → (t.island i).raCap = clamp (raCapMin v) (raCapMax v) (if fetched = 0 then (s.island i).raCap
        else if 100 * useful < 25 * fetched then (s.island i).raCap / 2
        else if 60 * fetched < 100 * useful then 2 * (s.island i).raCap else (s.island i).raCap)) ∧
      (t.island i).fetched = s.islandCount i 5 ∧ (t.island i).useful = s.islandCount i 6 := by
  refine ⟨setIslands s (policyIsland s), if_neg (by simp [hr]), setIslands_keeps (p := State.mem) (fun _ _ => rfl) .., fun i hi v hv => ?_⟩
  have hcap : ((setIslands s (policyIsland s)).island i).raCap = _ :=
    (setIslands_gives (q := Island.raCap) (fun _ _ _ => rfl) s _ hi).trans (policyIsland_cap hv _)
  refine ⟨fun hl => ?_, fun hl => ?_, ?_, ?_⟩
  · rw [hcap, nextRaCap, if_pos hl]
  · rw [hcap, nextRaCap, if_neg (by simp [hl])]
  · exact (setIslands_gives (q := Island.fetched) (fun _ _ _ => rfl) s _ hi).trans (policyIsland_counts s i _).1
  · exact (setIslands_gives (q := Island.useful) (fun _ _ _ => rfl) s _ hi).trans (policyIsland_counts s i _).2

/-! ## Histograms -/

theorem tget_histAdd_self (t : Table Nat) (k : Nat) : tget 0 (histAdd t k) k = min (tget 0 t k + 1) (2 ^ 64 - 1) := by
  rw [tget, histAdd, tfind_tput_self, Option.getD_some]

theorem tget_histAdd_other (t : Table Nat) {k n : Nat} (h : n ≠ k) : tget 0 (histAdd t k) n = tget 0 t n := by
  rw [tget, histAdd, tfind_tput_other _ _ h, tget]

theorem tget_foldl_histAdd_other (key : Nat → Nat) {n : Nat} (l : List Nat) (h : ∀ i ∈ l, n ≠ key i) (t : Table Nat) :
    tget 0 (l.foldl (fun t i => histAdd t (key i)) t) n = tget 0 t n := by
  induction l generalizing t with
  | nil => rfl
  | cons i l ih =>
    rw [List.foldl_cons, ih fun j hj => h j (List.mem_cons_of_mem _ hj), tget_histAdd_other _ (h i List.mem_cons_self)]

theorem tempBin_le (t : Int) : tempBin t ≤ 31 := by
  unfold tempBin
  split
  · exact Nat.zero_le _
  · exact Nat.min_le_left ..

/-- The bins of the histograms of temperature lie before those of input power. -/
theorem histKey_lt_two {hist inst bin b : Nat} (h : hist < 2) (hi : inst < 1024) (hb : bin ≤ 31) :
    histKey hist inst bin < histKey 2 0 b := by
  unfold histKey
  omega

theorem histKey_two_lt {hist inst bin b : Nat} (h : 2 < hist) (hb : b ≤ 31) : histKey 2 0 b < histKey hist inst bin := by
  unfold histKey
  omega

/-- The histograms after a second: the input power's bin has one more, whatever the others count. -/
theorem histogramTick_result {s : State} (hr : s.reeveRuns = true) :
    ∃ t, exec .histogramTick s = .next t ∧ t.mem = s.mem ∧
      (tget 0 t.reeve.hist (histKey 2 0 (min 31 (s.reeve.powerWatts / 300))) =
        min (tget 0 s.reeve.hist (histKey 2 0 (min 31 (s.reeve.powerWatts / 300))) + 1) (2 ^ 64 - 1)) ∧
      t.reeve.joules = (s.reeve.joules + s.reeve.powerWatts) % 1000 := by
  refine ⟨_, if_neg (by simp [hr]), ?_, ?_, ?_⟩
  · exact (lifeUp_onlyLog (p := State.mem) (fun _ _ _ _ _ => rfl) ..).trans (lifeUp_onlyLog (p := State.mem) (fun _ _ _ _ _ => rfl) ..)
  · generalize hbin : min 31 (s.reeve.powerWatts / 300) = b
    have hb : b ≤ 31 := hbin ▸ Nat.min_le_left ..
    refine (congrArg (tget 0 · _) ((lifeUp_onlyLog (p := fun s => s.reeve.hist) (fun _ _ _ _ _ => rfl) ..).trans
      (lifeUp_onlyLog (p := fun s => s.reeve.hist) (fun _ _ _ _ _ => rfl) ..))).trans ?_
    dsimp only
    rw [tget_foldl_histAdd_other (fun k => histKey 4 k _) _ fun k _ => (histKey_two_lt (by decide) hb).ne,
      tget_foldl_histAdd_other (fun i => histKey 3 i _) _ fun i _ => (histKey_two_lt (by decide) hb).ne, tget_histAdd_self,
      tget_foldl_histAdd_other (fun k => histKey 1 k _) _ fun k hk => (histKey_lt_two (by decide) (by simp at hk; omega) (tempBin_le _)).ne',
      tget_foldl_histAdd_other (fun i => histKey 0 i _) _ fun i hi => (histKey_lt_two (by decide) (by simp at hi; omega) (tempBin_le _)).ne']
  · exact (lifeUp_onlyLog (p := fun s => s.reeve.joules) (fun _ _ _ _ _ => rfl) ..).trans
      (lifeUp_onlyLog (p := fun s => s.reeve.joules) (fun _ _ _ _ _ => rfl) ..)

/-! ## Gating -/

theorem gatingInterval_result {s : State} (hr : s.reeveRuns = true) {u : GateUnit} {q : Nat} (hq : s.partOfHall (hallOfUnit u) = some q)
    (hu : u.wf = true) :
    (gateEnable (s.part q).reeve = true →
      (s.unitIdle q u = false → exec (.gatingInterval u) s = .next (s.stirUnit u)) ∧
      (s.unitIdle q u = true →
        ((s.idle.find? fun e => decide (e.1 = u)) = none →
          exec (.gatingInterval u) s = .next { s with idle := (u, s.clock) :: s.idle }) ∧
        (∀ e, (s.idle.find? fun e => decide (e.1 = u)) = some e →
          (e.2 + idleTime u ≤ s.clock → exec (.gatingInterval u) s = .next (sealUnit s u)) ∧
          (s.clock < e.2 + idleTime u → exec (.gatingInterval u) s = .next s)))) ∧
    (gateEnable (s.part q).reeve = false →
      (s.seal? u = some .gated → exec (.gatingInterval u) s = .next (ungateUnit s u)) ∧
      (s.seal? u = some .closed → exec (.gatingInterval u) s = .next (s.setSeal u none)) ∧
      (s.seal? u = none ∨ s.seal? u = some .dead → exec (.gatingInterval u) s = .next s)) := by
  have hexec : exec (.gatingInterval u) s =
      if gateEnable (s.part q).reeve then .next (if s.unitIdle q u then seeIdle s u else s.stirUnit u)
      else if s.seal? u = some .gated then .next (ungateUnit s u)
      else if s.seal? u = some .closed then .next (s.setSeal u none)
      else .next s := by
    show execGatingInterval u s = _
    simp only [execGatingInterval, hq, hr, hu, Bool.true_eq_false, or_self, if_false]
  rw [hexec]
  refine ⟨fun hg => ⟨fun hi => ?_, fun hi => ⟨fun hf => ?_, fun e hf => ⟨fun ht => ?_, fun ht => ?_⟩⟩⟩, fun hg => ⟨fun hs => ?_, fun hs => ?_,
    fun hs => ?_⟩⟩
  · simp only [hg, hi, Bool.false_eq_true, if_true, if_false]
  · simp only [hg, hi, if_true, seeIdle, hf, Option.map_none]
  · simp only [hg, hi, if_true, seeIdle, hf, Option.map_some, ht]
  · simp only [hg, hi, if_true, seeIdle, hf, Option.map_some, Nat.not_le.2 ht, if_false]
  · simp [hg, hs]
  · simp [hg, hs]
  · obtain hs | hs := hs <;> simp [hg, hs]

/-- Settles O20: the answers of the Reeve, its loops over power, heat, run-ahead, gating and histograms, and its restart. -/
theorem reeveResult : Obligations.ReeveResult := by
  intro s hr
  obtain ⟨-, hon⟩ : s.power.slot.isSome = true ∧ s.power.st ≠ .off := by simpa [State.reeveRuns] using hr
  refine ⟨fun data => ?_, fun id => ⟨?_, fun hid => ?_, fun hid => ?_, ?_⟩, fun addr => ?_, fun n v hn h1 h2 => ?_,
    fun watts hp => powerCapInterval_result hr hp watts, thermalThrottle_result hr, runAheadPolicy_result hr,
    fun st inst core c q hc hq hq' hplace hthr hclock hen hen' => ?_, fun u q hq hu => gatingInterval_result hr hq hu, ?_,
    histogramTick_result hr, fun hp => ?_, fun hp ht => ?_⟩
  · exact congrArg _ (if_pos hr)
  · exact congrArg _ (if_pos hr)
  · show execGetSensorReading id s = _
    simp only [execGetSensorReading, hr, hid, if_true]
  · show execGetSensorReading id s = _
    simp only [execGetSensorReading, hr, Nat.not_lt.2 hid, if_true, if_false]
  · exact congrArg _ (if_pos hr)
  · exact congrArg _ (if_neg hon)
  · show execSensorSample n v s = _
    simp only [execSensorSample, hr, Nat.not_le.2 hn, h1, h2, Bool.true_eq_false, or_self, if_false]
  · show execPlacementProposal st inst core s = _
    simp only [execPlacementProposal, hc, hq, hq', hplace, hthr, hclock, hen, hen', hr, decide_true, Bool.and_self, if_true]
  · exact congrArg _ (if_pos hr)
  · show execReeveRestart s = _
    simp only [execReeveRestart, hr, reeveReset, hp, if_true]
  · show execReeveRestart s = _
    simp only [execReeveRestart, hr, reeveReset, hp, hon, ht, Bool.false_eq_true, or_self, if_true, if_false]

end Sys2Proof.Machine
end

section
/-! PROOFS. Containment: the loss of a core's state renews the capability pages, so memory does change. -/

namespace Sys2Proof.Machine

open Sys2Proof.Claims Sys2Proof.Laws

/-- A station that takes one group. -/
def lostStation : Station :=
  { tag := 0, ctx := 1, loc := 0, groups := 1, vregs := 8, insts := 1, mill := 0, lane := 0, spread := false, pack := false,
    exclusive := false, near := none, halls := 0, entry := 0, decl := [], declPage := 0, save := [], removing := none }

/-- Its task, placed on core 5. -/
def lostInst : Inst :=
  { core := some 5, last := 5, placed := true, base := 0, saved := [], savedPoison := [], stranded := false, left := [] }

/-- A module in service with one context, whose capability page lies at address 0, and its task, placed on core 5. -/
def lostCoreModule : State :=
  { State.reset with
    power := { Power.reset with st := .ready }
    contexts := [(1, Context.fresh 1 0 0 false)], stations := [(0, lostStation)], insts := [(0, lostInst)] }

/-- The byte of the capability page that holds CAP_GEN goes from 0 to 2 when the core's state is lost (R32). -/
theorem coreStateLost_renews_capPage :
    (match exec (.coreStateLost 5) lostCoreModule with
      | .next t => t.byte 24
      | _ => 0) = 2 ∧ lostCoreModule.byte 24 = 0 := by
  decide +kernel

theorem lose_keeps_mem (s : State) (ctx : Nat) (status : W16) (core : Nat) (station : W32) (addr : W64) :
    (lose s ctx status core station addr).mem = s.mem := by
  unfold lose addLoss
  split <;> rfl

theorem notify_keeps_mem (s : State) (n : Notice) : (notify s n).mem = s.mem := by
  unfold notify
  exact (apply_ite State.mem _ _ _).trans (ite_self _)

/-- Refutes O21: the second clause says that a core that loses its state leaves memory as it was, but the smaller module of R32
renews the capability page of every context. -/
theorem not_containmentResult : ¬ Obligations.ContainmentResult := by
  rintro ⟨-, hlost, -⟩
  obtain ⟨s3, hexec, -, -, hmem⟩ := hlost 5 (0, lostInst) lostStation lostCoreModule (by decide +kernel) rfl rfl rfl
  obtain ⟨hafter, hbefore⟩ := coreStateLost_renews_capPage
  rw [hexec] at hafter
  have hrenewed : (notify (lose s3 _ _ _ _ _) _).byte 24 = 2 := hafter
  rw [State.byte_congr ((notify_keeps_mem ..).trans ((lose_keeps_mem ..).trans hmem)), hbefore] at hrenewed
  exact absurd hrenewed (by decide)

end Sys2Proof.Machine
end

section
/-! PROOFS. Power, bring-up, the references, the blades, the thermal trip and the TAP. -/

namespace Sys2Proof.Machine

open Sys2Proof.Claims Sys2Proof.Laws

/-- A record of the event log changes nothing but the log and the lifetime counters. -/
theorem event_onlyLog {β : Type} {p : State → β} (hp : ∀ (s : State) events severe life lost, p { s with
      flash := { s.flash with events := events, severe := severe }, reeve := { s.reeve with life := life, eventsLost := lost } } = p s)
    (s : State) (level : BitVec 8) (status : W16) (unit die : BitVec 8) (index : W16) :
    p (event s level status unit die index) = p s :=
  logEvent_onlyLog hp ..

/-! ## Bring-up -/

theorem modPwrEnFall_result (s : State) : ∃ t, exec .modPwrEnFall s = .next t ∧ t.power.st = .off ∧ t.power.pwrEn = false ∧
    t.power.trip = false ∧ t.time ≤ s.time ∧
    (s.power.st ≠ .off → t.flash.life = s.reeve.life ∧ t.flash.hist = s.reeve.hist ∧ t.mem = []) := by
  refine ⟨_, rfl, ?_⟩
  by_cases hoff : s.power.st = .off
  · rw [if_pos hoff]
    exact ⟨hoff, rfl, rfl, le_rfl, fun h => absurd hoff h⟩
  · rw [if_neg hoff]
    exact ⟨rfl, rfl, rfl, Nat.zero_le _, fun _ => ⟨rfl, rfl, rfl⟩⟩

theorem inputFault_result (s : State) : ∃ t, exec .inputFault s = .next t ∧ t.power.st = .off ∧ t.power.inputOk = false ∧
    (s.power.st ≠ .off → t.mem = []) := by
  refine ⟨_, rfl, ?_⟩
  by_cases hoff : s.power.st = .off
  · rw [if_pos hoff]
    exact ⟨hoff, rfl, fun h => absurd hoff h⟩
  · rw [if_neg hoff]
    exact ⟨rfl, rfl, fun _ => rfl⟩

theorem bootVerify_result {s : State} (a b : Bool) (hst : s.power.st = .boot) (hr : s.power.rails ≠ 0) (hl : s.power.resetLow = false)
    (hc : s.power.refclk = true) :
    let first := s.flash.trial.getD s.flash.activeB
    (s.slotStatus first (if first then b else a) = 0 → exec (.bootVerify a b) s = .next (bootSlot s first)) ∧
    (s.slotStatus first (if first then b else a) ≠ 0 →
      (s.slotStatus (!first) (if first then a else b) = 0 → exec (.bootVerify a b) s = .next (bootSlot (fallBack s) (!first))) ∧
      (s.slotStatus (!first) (if first then a else b) ≠ 0 → exec (.bootVerify a b) s = .next (hold s 0x080A 0x0D 0x41 0xFFFF))) := by
  intro first
  have hother : (if (!first) = true then b else a) = (if first then a else b) := by cases first <;> rfl
  have hexec : exec (.bootVerify a b) s =
      if decide (s.slotStatus first (if first then b else a) = 0) then .next (bootSlot s first)
      else if decide (s.slotStatus (!first) (if first then a else b) = 0) then .next (bootSlot (fallBack s) (!first))
      else .next (hold s 0x080A 0x0D 0x41 0xFFFF) := by
    rw [← hother]
    exact if_neg (by simp [hst, hr, hl, hc])
  rw [hexec]
  refine ⟨fun h => ?_, fun h => ⟨fun h' => ?_, fun h' => ?_⟩⟩
  · exact if_pos (decide_eq_true h)
  · exact (if_neg (mt of_decide_eq_true h)).trans (if_pos (decide_eq_true h'))
  · exact (if_neg (mt of_decide_eq_true h)).trans (if_neg (mt of_decide_eq_true h'))

theorem route_reeve : route .reeve (.hall 10) = [21] := by decide

theorem linkTrain_result {s : State} {l : Nat} (hst : s.power.st = .training) (hr : s.power.rails = 4) (hl : l < 22)
    (hn : s.power.links.contains l = false) (hw : s.power.retrying.contains l = false)
    (h21 : l = 21 ∨ s.power.links.contains 21 = true) :
    exec (.linkTrain l true) s = .next (s.setPower { s.power with links := s.power.links ++ [l] }) ∧
    (tget 0 s.power.attempts l < 3 → exec (.linkTrain l false) s = .next (s.setPower { s.power with
      attempts := tput s.power.attempts l (tget 0 s.power.attempts l + 1), retrying := addOnce l s.power.retrying })) ∧
    (3 ≤ tget 0 s.power.attempts l → exec (.linkTrain l false) s = .next (hold (s.setPower { s.power with
      attempts := tput s.power.attempts l (tget 0 s.power.attempts l + 1), linkMask := s.power.linkMask ||| w32 (2 ^ l) })
      0x0706 0x09 0xFF (BitVec.ofNat 16 l))) := by
  have hrouted : ¬(l ≠ 21 ∧ s.routed .reeve (.hall 10) = false) := by
    rintro ⟨hne, hno⟩
    rw [State.routed, route_reeve, List.all_cons, h21.resolve_left hne] at hno
    exact absurd hno (by simp)
  have hgo : ¬(s.power.st ≠ .training ∨ s.power.rails ≠ 4 ∨ 22 ≤ l ∨ s.power.links.contains l = true ∨
      s.power.retrying.contains l = true ∨ (l ≠ 21 ∧ s.routed .reeve (.hall 10) = false)) := by
    rw [hn, hw]
    simp [hst, hr, Nat.not_le.2 hl, hrouted]
  refine ⟨?_, fun h => ?_, fun h => ?_⟩
  · exact (if_neg hgo).trans (if_pos rfl)
  · exact (if_neg hgo).trans ((if_neg (by decide)).trans (if_pos (by omega)))
  · exact (if_neg hgo).trans ((if_neg (by decide)).trans (if_neg (by omega)))

theorem mem_foldl_addOnce {α β : Type} [DecidableEq β] (f : α → β) (l : List α) (acc : List β) (y : β) :
    y ∈ l.foldl (fun acc x => addOnce (f x) acc) acc ↔ (∃ x ∈ l, f x = y) ∨ y ∈ acc := by
  induction l generalizing acc with
  | nil => simp
  | cons x l ih =>
    rw [List.foldl_cons, ih, mem_addOnce, eq_comm (a := y), ← or_assoc, or_comm (b := f x = y)]
    simp only [List.mem_cons, exists_eq_or_imp]

theorem memoryTrainingDone_result {s : State} (hl : s.linksUp = true) (gs ds : List Nat) (hm : s.power.memReady = false) :
    ∃ t, exec (.memoryTrainingDone gs ds) s = .next t ∧ t.mem = [] ∧ t.poison = [] ∧ t.power.memReady = true ∧
      (∀ g, g ∈ t.excluded ↔ g ∈ gs ∧ g < 96) ∧ (∀ d, d ∈ t.excludedDies ↔ ∃ k ∈ ds, k < 32 ∧ k / 16 = d) := by
  have hkeep : ∀ {β : Type} (p : State → β) (_ : ∀ (s : State) events severe life lost, p { s with
      flash := { s.flash with events := events, severe := severe }, reeve := { s.reeve with life := life, eventsLost := lost } } = p s)
      (s1 : State), p (ds.filter (fun d => decide (d < 32)) |>.foldl (fun s d => event s 2 0x0714 0x07 (dieCL (d / 16)) (BitVec.ofNat 16 (d % 16)))
        (gs.filter (fun g => decide (g < 96)) |>.foldl (fun s g => event s 2 0x0714 0x06 (BitVec.ofNat 8 (hallOfGroup g)) (BitVec.ofNat 16 g)) s1)) = p s1 :=
    fun p hp s1 => (foldl_keeps (p := p) (fun s d => event_onlyLog hp ..) _ _).trans (foldl_keeps (p := p) (fun s d => event_onlyLog hp ..) _ _)
  refine ⟨_, if_neg (by simp [hl, hm]), hkeep State.mem (fun _ _ _ _ _ => rfl) _, hkeep State.poison (fun _ _ _ _ _ => rfl) _,
    (congrArg Power.memReady (hkeep State.power (fun _ _ _ _ _ => rfl) _)).trans rfl, fun g => ?_, fun d => ?_⟩
  · rw [hkeep State.excluded (fun _ _ _ _ _ => rfl)]
    simp [mem_foldl_addOnce (fun g => g)]
  · rw [hkeep State.excludedDies (fun _ _ _ _ _ => rfl)]
    simp [mem_foldl_addOnce (fun d => d / 16), and_assoc]

theorem coreTestDone_result {s : State} (hl : s.linksUp = true) (bad : List Nat) (ht : s.power.coresTested = false) :
    ∃ t, exec (.coreTestDone bad) s = .next t ∧ t.power.coresTested = true ∧ t.retired = [] ∧
      (∀ c, c ∈ t.failedCores ↔ c ∈ bad ∧ c < Config.cores ∧ c ∉ s.disabled) := by
  have hkeep : ∀ {β : Type} (p : State → β) (_ : ∀ (s : State) events severe life lost, p { s with
      flash := { s.flash with events := events, severe := severe }, reeve := { s.reeve with life := life, eventsLost := lost } } = p s)
      (cs : List Nat) (s1 : State),
      p (cs.foldl (fun s c => event (lifeUp s 26 1) 2 0x0705 0x01 (dieCD c) (BitVec.ofNat 16 c)) s1) = p s1 :=
    fun p hp cs s1 => foldl_keeps (p := p) (fun s c => (event_onlyLog hp ..).trans (lifeUp_onlyLog hp ..)) _ _
  refine ⟨_, if_neg (by simp [hl, ht]), (congrArg Power.coresTested (hkeep State.power (fun _ _ _ _ _ => rfl) _ _)).trans rfl,
    hkeep State.retired (fun _ _ _ _ _ => rfl) _ _, fun c => ?_⟩
  rw [hkeep State.failedCores (fun _ _ _ _ _ => rfl)]
  simp [mem_foldl_addOnce (fun c => c)]

theorem commitTrial_power (s : State) : (commitTrial s).power = s.power := by
  unfold commitTrial
  split
  · split
    · rfl
    · exact lifeUp_onlyLog (p := State.power) (fun _ _ _ _ _ => rfl) ..
  · rfl

theorem partitionRestore_ready {s : State} (hl : s.linksUp = true) (hm : s.power.memReady = true) (ht : s.power.coresTested = true) :
    ∃ t, exec .partitionRestore s = .next t ∧ t.power.st = .ready := by
  refine ⟨_, if_neg (by simp [hl, hm, ht]), ?_⟩
  rw [settleClocks, setIslands_keeps (p := State.power) (fun _ _ => rfl), commitTrial_power]
  rfl

/-- Settles O22: each event of the power-up sequence takes the module where the table has it. -/
theorem bringUpResult : Obligations.BringUpResult := by
  refine ⟨fun s => ⟨rfl, rfl, rfl, modPwrEnFall_result s, inputFault_result s, fun hst ht => ⟨?_, fun hl => ?_⟩⟩,
    fun a b s hst hr hl hc => bootVerify_result a b hst hr hl hc,
    fun s => ⟨fun hst hr => ?_, fun g hst h2 h4 hg => ?_, fun r hst => ?_, fun l => rfl⟩,
    fun l s hst hr hl hn hw h21 => linkTrain_result hst hr hl hn hw h21,
    fun s hl => ⟨memoryTrainingDone_result hl, coreTestDone_result hl, partitionRestore_ready hl⟩, fun s ht hslot hr hoff htrip => ?_⟩
  · exact congrArg _ (if_neg (by simp [hst, ht]))
  · exact congrArg _ (if_neg (by simp [hst, ht, hl]))
  · exact if_pos ⟨by rw [hr], by decide, .inl ⟨rfl, hst⟩⟩
  · exact if_pos ⟨hg.symm, h4, .inr ⟨h2, hst⟩⟩
  · exact if_pos hst
  · refine if_neg ?_
    simp only [Option.isNone_iff_eq_none, ht, hslot, hr, hoff, htrip, ne_eq, not_true_eq_false, Bool.false_eq_true, or_self,
      not_false_eq_true]

/-! ## References, blades, trip and TAP -/

/-- The power loop is in force from now on. -/
def loopForced (s : State) : State := { s with reeve := { s.reeve with capped := true, underFor := 0 } }

/-- The record of a lost blade, with the alert. -/
def alerted (s : State) (b : Nat) : State := raiseAlert (event s 5 0x081A 0x10 0xFF (BitVec.ofNat 16 b))

theorem alerted_keeps {β : Type} {p : State → β} (hp : ∀ (s : State) events severe life lost, p { s with
      flash := { s.flash with events := events, severe := severe }, reeve := { s.reeve with life := life, eventsLost := lost } } = p s)
    (ha : ∀ s, p (raiseAlert s) = p s) (s : State) (b : Nat) : p (alerted s b) = p s :=
  (ha _).trans (event_onlyLog hp ..)

theorem loopForced_island (s : State) (i : Nat) : (loopForced s).island i = s.island i := by
  simp only [loopForced, State.island]

theorem bladeLost_result {s : State} {b : Nat} (hb : b < 2) (hst : s.power.st ≠ .off) (hn : s.power.lostBlade = none) :
    ∃ t, exec (.bladeLost b) s = .next t ∧ t.power.lostBlade = some b ∧ t.reeve.alert = true ∧ t.capNow = 40 ∧
      ∀ i < 528, (t.island i).power = 16 := by
  refine ⟨alerted (loopForced (setIslands (s.setPower { s.power with lostBlade := some b }) fun _ x => { x with power := 16 })) b,
    if_neg (by simp [hst, hn, Nat.not_le.2 hb]), ?_, rfl, ?_, fun i hi => ?_⟩
  · rw [alerted_keeps (p := State.power) (fun _ _ _ _ _ => rfl) (fun _ => rfl), loopForced, setIslands_keeps (p := State.power) (fun _ _ => rfl)]
    rfl
  · rw [State.capNow, alerted_keeps (p := State.power) (fun _ _ _ _ _ => rfl) (fun _ => rfl), loopForced,
      setIslands_keeps (p := State.power) (fun _ _ => rfl)]
    rfl
  · rw [alerted_keeps (p := fun s => s.island i) (fun _ _ _ _ _ => rfl) (fun _ => rfl), loopForced_island]
    exact setIslands_power _ _ hi

theorem bladeReturn_result {s : State} {b : Nat} (h : s.power.lostBlade = some b) :
    ∃ t, exec (.bladeReturn b) s = .next t ∧ t.power.lostBlade = none ∧ t.capNow = s.flash.cap := by
  refine ⟨_, if_neg (not_not.2 h), ?_, ?_⟩
  · rw [logEvent_onlyLog (p := State.power) (fun _ _ _ _ _ => rfl)]
    rfl
  · rw [State.capNow, logEvent_onlyLog (p := State.power) (fun _ _ _ _ _ => rfl),
      logEvent_onlyLog (p := fun s => s.flash.cap) (fun _ _ _ _ _ => rfl)]
    rfl

/-- The module as a trip leaves it, before its record. -/
def tripped (s : State) : State :=
  let s1 := moduleReset s true
  s1.setPower { s1.power with st := .failed, failure := 0x0814, trip := true, slot := s.power.slot, links := [], up := s.power.up }

/-- The record of a trip, with the alert. -/
def tripRecorded (s : State) (n : Nat) : State := lifeUp (raiseAlert (event s 4 0x0814 0x10 0xFF (BitVec.ofNat 16 n))) 28 1

theorem tripRecorded_keeps {β : Type} {p : State → β} (hp : ∀ (s : State) events severe life lost, p { s with
      flash := { s.flash with events := events, severe := severe }, reeve := { s.reeve with life := life, eventsLost := lost } } = p s)
    (ha : ∀ s, p (raiseAlert s) = p s) (s : State) (n : Nat) : p (tripRecorded s n) = p s :=
  (lifeUp_onlyLog hp ..).trans ((ha _).trans (event_onlyLog hp ..))

theorem thermalTrip_result {s : State} (n : Nat) (h : s.power.st ≠ .off) (ht : s.power.trip = false) :
    ∃ t, exec (.thermalTrip n) s = .next t ∧ t.power.st = .failed ∧ t.power.failure = 0x0814 ∧ t.power.trip = true ∧
      t.reeve.alert = true ∧ t.mem = [] ∧ t.groups = [] ∧ t.contexts = [] := by
  have hpower := tripRecorded_keeps (p := State.power) (fun _ _ _ _ _ => rfl) (fun _ => rfl) (tripped s) n
  refine ⟨tripRecorded (tripped s) n, if_neg (by simp [h, ht]), congrArg Power.st hpower, congrArg Power.failure hpower,
    congrArg Power.trip hpower, lifeUp_onlyLog (p := fun s => s.reeve.alert) (fun _ _ _ _ _ => rfl) .., ?_, ?_, ?_⟩
  · exact tripRecorded_keeps (p := State.mem) (fun _ _ _ _ _ => rfl) (fun _ => rfl) ..
  · exact tripRecorded_keeps (p := State.groups) (fun _ _ _ _ _ => rfl) (fun _ => rfl) ..
  · exact tripRecorded_keeps (p := State.contexts) (fun _ _ _ _ _ => rfl) (fun _ => rfl) ..

theorem jtagRun_powered {s : State} (h : s.power.st ≠ .off) (i : JtagInstr) (d : List Byte) :
    jtagRun s i d = (s.setPower { s.power with jtag := i }).emit (.jtag i d) := if_neg h

/-- Settles O23: what the references, the blades, a trip and the TAP's instructions do to the module. -/
theorem powerEventsResult : Obligations.PowerEventsResult := by
  refine ⟨fun s => ⟨fun h => ?_, fun h => ?_, fun h => ?_, fun h => ?_, rfl, rfl⟩, fun b s hb => ⟨fun h hn => ?_, fun h => ?_⟩,
    fun n s h ht => ?_, fun s h => ⟨?_, ?_, ?_, fun pins => ⟨fun hr => ?_, fun hr => ?_⟩, rfl⟩⟩
  · show execRefclkLost s = _
    simp only [execRefclkLost, h]
  · show execRefclkLost s = _
    simp only [execRefclkLost, h]
  · show execRefclkLost s = _
    simp only [execRefclkLost, h]
  · show execRefclkLost s = _
    obtain h | h | h := h <;> simp only [execRefclkLost, h]
  · exact bladeLost_result hb h hn
  · exact bladeReturn_result h
  · exact thermalTrip_result n h ht
  · exact congrArg _ (jtagRun_powered h ..)
  · exact congrArg _ (jtagRun_powered h ..)
  · exact ⟨_, leBytes 12 s.freeVal.2, congrArg Host.Outcome.next (jtagRun_powered (s := s.freeVal.1) h ..), length_leBytes .., rfl, rfl⟩
  · exact congrArg _ ((if_pos hr).trans (jtagRun_powered h ..))
  · exact congrArg _ ((if_neg (by simp [hr])).trans (jtagRun_powered h ..))

end Sys2Proof.Machine
end

section
/-! PROOFS. The words of the core instructions: every field of an encoding comes back, and the tables of the decoder hold the
instruction at its opcode and FN. -/

namespace Sys2Proof.Machine

open Sys2Proof.Claims Sys2Proof.Laws

/-! ## Fields of a word -/

section

variable (opc : BitVec 8) (fn : BitVec 6)

theorem extBit_getLsbD (b : Bool) : (if b then 1#1 else 0#1).getLsbD 0 = b := by cases b <;> rfl

theorem opcOf_encR (f : RWord) : opcOf (encR opc fn f) = opc.toNat := by
  unfold opcOf encR
  repeat rw [BitVec.extractLsb'_append_eq_of_le (by decide)]
  rw [BitVec.extractLsb'_eq_self]

theorem fnOf_encR (f : RWord) : fnOf (encR opc fn f) = fn.toNat := by
  unfold fnOf encR
  repeat rw [BitVec.extractLsb'_append_eq_of_le (by decide)]
  rw [BitVec.extractLsb'_append_eq_of_add_le (by decide), BitVec.extractLsb'_eq_self]

theorem extOf_encR (f : RWord) : extOf (encR opc fn f) = f.ext.isSome := by
  unfold extOf encR
  repeat rw [BitVec.getLsbD_append, if_neg (by decide)]
  rw [BitVec.getLsbD_append, if_pos (by decide), extBit_getLsbD]

theorem rFields_encR (f : RWord) : rFields (encR opc fn f) f.ext = f := by
  obtain ⟨ext, gp, gn, c, b, a, dst, mod⟩ := f
  unfold rFields encR
  congr 1
  case e_gn =>
    repeat rw [BitVec.getLsbD_append, if_neg (by decide)]
    rw [BitVec.getLsbD_append, if_pos (by decide), extBit_getLsbD]
  all_goals
    repeat rw [BitVec.extractLsb'_append_eq_of_le (by decide)]
    rw [BitVec.extractLsb'_append_eq_of_add_le (by decide), BitVec.extractLsb'_eq_self]

theorem opcOf_encI (f : IWord) : opcOf (encI opc fn f) = opc.toNat := by
  unfold opcOf encI
  repeat rw [BitVec.extractLsb'_append_eq_of_le (by decide)]
  rw [BitVec.extractLsb'_eq_self]

theorem fnOf_encI (f : IWord) : fnOf (encI opc fn f) = fn.toNat := by
  unfold fnOf encI
  repeat rw [BitVec.extractLsb'_append_eq_of_le (by decide)]
  rw [BitVec.extractLsb'_append_eq_of_add_le (by decide), BitVec.extractLsb'_eq_self]

theorem extOf_encI (f : IWord) : extOf (encI opc fn f) = f.ext.isSome := by
  unfold extOf encI
  repeat rw [BitVec.getLsbD_append, if_neg (by decide)]
  rw [BitVec.getLsbD_append, if_pos (by decide), extBit_getLsbD]

theorem iFields_encI (f : IWord) : iFields (encI opc fn f) f.ext = f := by
  obtain ⟨ext, gp, gn, imm, a, dst, mod⟩ := f
  unfold iFields encI
  congr 1
  case e_gn =>
    repeat rw [BitVec.getLsbD_append, if_neg (by decide)]
    rw [BitVec.getLsbD_append, if_pos (by decide), extBit_getLsbD]
  all_goals
    repeat rw [BitVec.extractLsb'_append_eq_of_le (by decide)]
    rw [BitVec.extractLsb'_append_eq_of_add_le (by decide), BitVec.extractLsb'_eq_self]

theorem opcOf_encM (f : MWord) : opcOf (encM opc f) = opc.toNat := by
  unfold opcOf encM
  repeat rw [BitVec.extractLsb'_append_eq_of_le (by decide)]
  rw [BitVec.extractLsb'_eq_self]

theorem extOf_encM (f : MWord) : extOf (encM opc f) = f.ext.isSome := by
  unfold extOf encM
  repeat rw [BitVec.getLsbD_append, if_neg (by decide)]
  rw [BitVec.getLsbD_append, if_pos (by decide), extBit_getLsbD]

theorem mFields_encM (f : MWord) : mFields (encM opc f) f.ext = f := by
  obtain ⟨ext, gp, gn, sz, mark, scope, base, index, data, scale, imm⟩ := f
  unfold mFields encM
  congr 1
  case e_gn =>
    repeat rw [BitVec.getLsbD_append, if_neg (by decide)]
    rw [BitVec.getLsbD_append, if_pos (by decide), extBit_getLsbD]
  all_goals
    repeat rw [BitVec.extractLsb'_append_eq_of_le (by decide)]
    rw [BitVec.extractLsb'_append_eq_of_add_le (by decide), BitVec.extractLsb'_eq_self]

theorem opcOf_encB (f : BWord) : opcOf (encB opc f) = opc.toNat := by
  unfold opcOf encB
  repeat rw [BitVec.extractLsb'_append_eq_of_le (by decide)]
  rw [BitVec.extractLsb'_eq_self]

theorem extOf_encB (f : BWord) : extOf (encB opc f) = f.ext.isSome := by
  unfold extOf encB
  repeat rw [BitVec.getLsbD_append, if_neg (by decide)]
  rw [BitVec.getLsbD_append, if_pos (by decide), extBit_getLsbD]

theorem bFields_encB (f : BWord) : bFields (encB opc f) f.ext = f := by
  obtain ⟨ext, gp, gn, hi, tgt, rcv, lo⟩ := f
  unfold bFields encB
  congr 1
  case e_gn =>
    repeat rw [BitVec.getLsbD_append, if_neg (by decide)]
    rw [BitVec.getLsbD_append, if_pos (by decide), extBit_getLsbD]
  all_goals
    repeat rw [BitVec.extractLsb'_append_eq_of_le (by decide)]
    rw [BitVec.extractLsb'_append_eq_of_add_le (by decide), BitVec.extractLsb'_eq_self]

end

/-! ## The decoder by format -/

/-- The opcodes of format R that have a format-I twin stand alone in the table of twins. -/
theorem twin_opc {opc fn : Nat} {c : MkRI} (h : mkRI? opc fn = some c) :
    opc = 1 ∨ opc = 2 ∨ opc = 3 ∨ opc = 4 ∨ opc = 0x10 ∨ opc = 0x11 := by
  unfold mkRI? at h
  split at h <;> simp_all

theorem extRule_twin {opc fn : Nat} {c : MkRI} (h : mkRI? opc fn = some c) (n : Nat) :
    extRule opc n = .may ∧ extRule (opc + 0x40) n = .may := by
  rcases twin_opc h with rfl | rfl | rfl | rfl | rfl | rfl <;> exact ⟨rfl, rfl⟩

theorem decodeCore_twin {opc : BitVec 8} {fn : BitVec 6} {c : MkRI} (h : mkRI? opc.toNat fn.toNat = some c) (g : Grp) (f : RI) :
    decodeCore g (encRI opc fn f).1 (encRI opc fn f).2 = some (c g f) := by
  have hopc := twin_opc h
  obtain ⟨hmay, hmay'⟩ := extRule_twin h fn.toNat
  cases f with
  | r f =>
    simp only [encRI, decodeCore, opcOf_encR, fnOf_encR, extOf_encR, rFields_encR, bne_self_eq_false, Bool.false_eq_true, if_false]
    rw [if_neg (by omega), if_neg (by omega), if_neg (by omega), if_neg (by simp [extOk, hmay]), if_neg (by omega), if_neg (by omega),
      if_neg (by omega), h]
  | i f =>
    have hadd : (opc + 0x40).toNat = opc.toNat + 0x40 := by
      rw [BitVec.toNat_add]
      exact Nat.mod_eq_of_lt (by simp; omega)
    simp only [encRI, decodeCore, opcOf_encI, fnOf_encI, extOf_encI, iFields_encI, bne_self_eq_false, Bool.false_eq_true, if_false, hadd]
    rw [if_neg (by omega), if_neg (by omega), if_neg (by omega), if_neg (by simp [extOk, hmay']), if_neg (by omega), if_neg (by omega),
      if_pos (by omega), Nat.add_sub_cancel, h]
    rfl

/-- An opcode of format R that has no format-I twin. -/
def plainR (opc : Nat) : Bool :=
  decide (opc < 0x41) && !decide (0x28 ≤ opc ∧ opc ≤ 0x32) && !decide (opc = 0x39) && !decide (opc = 0x3A) && !decide (opc = 0x05) &&
  !decide (opc = 0x3D)

theorem decodeCore_R {opc : BitVec 8} {fn : BitVec 6} {c : MkR} (hp : plainR opc.toNat = true) (hi : ∀ n, mkRI? opc.toNat n = none)
    (h : mkR? opc.toNat fn.toNat = some c) (g : Grp) (f : RWord) (hx : extOk opc.toNat fn.toNat f.ext.isSome = true) :
    decodeCore g (encR opc fn f) f.ext = some (c g f) := by
  simp only [plainR, Bool.and_eq_true, Bool.not_eq_true', decide_eq_true_eq, decide_eq_false_iff_not] at hp
  obtain ⟨⟨⟨⟨⟨h41, h28⟩, h39⟩, h3A⟩, h05⟩, h3D⟩ := hp
  simp only [decodeCore, opcOf_encR, fnOf_encR, extOf_encR, rFields_encR, bne_self_eq_false, Bool.false_eq_true, if_false, h28, h39, h3A,
    h05, h3D, hx, Bool.not_true, Nat.not_le.2 h41, hi, h, Option.map_some]

theorem decodeCore_M {opc : BitVec 8} {c : Grp → MWord → Instr} (h28 : 0x28 ≤ opc.toNat ∧ opc.toNat ≤ 0x32)
    (h : mkM[opc.toNat - 0x28]? = some c) (g : Grp) (f : MWord) (hx : extOk opc.toNat 0 f.ext.isSome = true) :
    decodeCore g (encM opc f) f.ext = some (c g f) := by
  simp only [decodeCore, opcOf_encM, extOf_encM, mFields_encM, bne_self_eq_false, Bool.false_eq_true, if_false, h28, and_self, if_true, hx,
    h, Option.map_some]

theorem extOk_M {opc fn : Nat} (h : 0x28 ≤ opc ∧ opc ≤ 0x32) (b : Bool) : extOk opc fn b = extOk opc 0 b := by
  have h3B : opc ≠ 0x3B := by omega
  simp only [extOk, extRule, h3B, if_false]

theorem decodeCore_bra (g : Grp) (f : BWord) : decodeCore g (encB 0x39 f) f.ext = some (.bra g f) := by
  simp only [decodeCore, opcOf_encB, extOf_encB, bFields_encB, bne_self_eq_false, Bool.false_eq_true, if_false]
  rfl

theorem decodeCore_call (g : Grp) (f : BWord) : decodeCore g (encB 0x3A f) f.ext = some (.call g f) := by
  simp only [decodeCore, opcOf_encB, extOf_encB, bFields_encB, bne_self_eq_false, Bool.false_eq_true, if_false]
  rfl

theorem decodeCore_srdcr (g : Grp) (f : IWord) : decodeCore g (encI 0x05 0 f) f.ext = some (.srdcr g f) := by
  simp only [decodeCore, opcOf_encI, fnOf_encI, extOf_encI, iFields_encI, bne_self_eq_false, Bool.false_eq_true, if_false]
  rfl

theorem decodeCore_wrcr (g : Grp) (f : IWord) : decodeCore g (encI 0x3D 0 f) f.ext = some (.wrcr g f) := by
  simp only [decodeCore, opcOf_encI, fnOf_encI, extOf_encI, iFields_encI, bne_self_eq_false, Bool.false_eq_true, if_false]
  rfl

/-! ## Conditions and source types -/

theorem mkR_vcmp (c : Cond) : mkR? 0x13 c.fn.toNat = some fun g f => .vcmp g c f := by cases c <;> rfl

theorem mkR_vdcmp (c : Cond) : mkR? 0x22 (c.fn + 16).toNat = some fun g f => .vdcmp g c f := by cases c <;> rfl

theorem mkR_vcvt {t : BitVec 4} (h : t.toNat < 7) : mkR? 0x14 (t.setWidth 6).toNat = some fun g f => .vcvt g t f := by
  have hn : (t.setWidth 6).toNat = t.toNat := by simp; omega
  rw [hn]
  show mk14[t.toNat]? = _
  simp [mk14, h]

theorem mkR_vdcvt {t : BitVec 4} (h : t.toNat < 11) : mkR? 0x22 (t.setWidth 6).toNat = some fun g f => .vdcvt g t f := by
  have hn : (t.setWidth 6).toNat = t.toNat := by simp; omega
  rw [hn]
  show (if t.toNat < 16 then mk22[t.toNat]? else mk22b[t.toNat - 16]?) = _
  rw [if_pos (by omega)]
  simp [mk22, h]

/-! ## The round trip -/

section

variable {w : BitVec 64} {x : Option (BitVec 64)} {opc : BitVec 8} {fn : BitVec 6} {g : Grp}

theorem decodes_twin {c : MkRI} {f : RI} (h : some (encRI opc fn f) = some (w, x)) (hc : mkRI? opc.toNat fn.toNat = some c) :
    ∃ g', decodeCore g' w x = some (c g f) := by
  have hw := decodeCore_twin hc g f
  rw [Option.some.inj h] at hw
  exact ⟨g, hw⟩

theorem decodes_R {c : MkR} {f : RWord} (h : some (encR opc fn f, f.ext) = some (w, x)) (hx : extOk (opcOf w) (fnOf w) x.isSome = true)
    (hp : plainR opc.toNat = true) (hi : ∀ n, mkRI? opc.toNat n = none) (hc : mkR? opc.toNat fn.toNat = some c) :
    ∃ g', decodeCore g' w x = some (c g f) := by
  obtain ⟨rfl, rfl⟩ := Prod.mk.inj (Option.some.inj h).symm
  rw [opcOf_encR, fnOf_encR] at hx
  exact ⟨g, decodeCore_R hp hi hc g f hx⟩

theorem decodes_M {c : Grp → MWord → Instr} {f : MWord} (h : some (encM opc f, f.ext) = some (w, x))
    (hx : extOk (opcOf w) (fnOf w) x.isSome = true) (hm : 0x28 ≤ opc.toNat ∧ opc.toNat ≤ 0x32)
    (hc : mkM[opc.toNat - 0x28]? = some c) : ∃ g', decodeCore g' w x = some (c g f) := by
  obtain ⟨rfl, rfl⟩ := Prod.mk.inj (Option.some.inj h).symm
  rw [opcOf_encM, extOk_M hm] at hx
  exact ⟨g, decodeCore_M hm hc g f hx⟩

end

/-- Settles O29: the encoder's table is the decoder's, opcode by opcode and FN by FN, and each format gives its fields back. -/
theorem coreWordsRoundTrip : Obligations.CoreWordsRoundTrip := by
  intro i w x h hx hcvt hdcvt
  unfold encodeCore at h
  split at h
  -- The rows with a format-I twin, from SADD to VBREV.
  iterate 49
    · exact decodes_twin h rfl
  -- The rows of format R alone, from VFADD to MACC.WR.
  iterate 64
    · exact decodes_R h hx rfl (fun _ => rfl) rfl
  next g c f => exact decodes_R (g := g) h hx rfl (fun _ => rfl) (mkR_vcmp c)
  next g c f => exact decodes_R (g := g) h hx rfl (fun _ => rfl) (mkR_vdcmp c)
  next g t f => exact decodes_R (c := fun g f => .vcvt g t f) h hx rfl (fun _ => rfl) (mkR_vcvt (hcvt g t f rfl))
  next g t f => exact decodes_R (c := fun g f => .vdcvt g t f) h hx rfl (fun _ => rfl) (mkR_vdcvt (hdcvt g t f rfl))
  · obtain ⟨rfl, rfl⟩ := Prod.mk.inj (Option.some.inj h).symm
    exact ⟨_, decodeCore_srdcr _ _⟩
  · obtain ⟨rfl, rfl⟩ := Prod.mk.inj (Option.some.inj h).symm
    exact ⟨_, decodeCore_wrcr _ _⟩
  · obtain ⟨rfl, rfl⟩ := Prod.mk.inj (Option.some.inj h).symm
    exact ⟨_, decodeCore_bra _ _⟩
  · obtain ⟨rfl, rfl⟩ := Prod.mk.inj (Option.some.inj h).symm
    exact ⟨_, decodeCore_call _ _⟩
  -- The rows of format M.
  iterate 11
    · exact decodes_M h hx (by decide) rfl
  · cases h

end Sys2Proof.Machine
end

section

/-! PROOFS. Every command of the table is carried out in every state. -/

namespace Sys2Proof.Machine

open Sys2Proof.Claims Sys2Proof.Laws

/-- The command ends in a next state: it is neither refused nor does it stop the machine. -/
def Completes (o : Host.Outcome State Fault Refusal) : Prop := ∃ t, o = .next t

/-! ## The operations that many commands share -/

theorem runCmd_completes (cmd mb : Nat) (s : State) (body : State → Nat → List Byte → State) : Completes (runCmd cmd mb s body) := by
  fun_cases runCmd cmd mb s body <;> exact ⟨_, rfl⟩

theorem sideband_completes (code : Nat) (m : SbMsg) (fits : List Byte → Bool) (s : State) (body : State → List Byte → State) :
    Completes (sideband code m fits s body) := by
  fun_cases sideband code m fits s body <;> exact ⟨_, rfl⟩

theorem receive_completes (typ code : Nat) (f : Frame) (s : State) : Completes (receive typ code f s) := by
  fun_cases receive typ code f s <;> exact ⟨_, rfl⟩

theorem startEntry_completes (op qi k : Nat) (s : State)
    (body : State → Queue → TlbStruct → List Byte → State × Option EntryPhase) : Completes (startEntry op qi k s body) := by
  fun_cases startEntry op qi k s body <;> exact ⟨_, rfl⟩

theorem onCommand_completes (s : State) (p op : Nat) (act : State → EpochStore → State) : Completes (onCommand s p op act) := by
  fun_cases onCommand s p op act <;> exact ⟨_, rfl⟩

theorem atHome_completes (kind : MsgKind) (core line : Nat) (s : State) (act : State → Msg → State) :
    Completes (atHome kind core line s act) := by
  fun_cases atHome kind core line s act <;> exact ⟨_, rfl⟩

theorem atCore_completes (kind : MsgKind) (core line : Nat) (s : State) (act : State → Msg → State) :
    Completes (atCore kind core line s act) := by
  fun_cases atCore kind core line s act <;> exact ⟨_, rfl⟩

theorem requestAtHome_completes (kind : MsgKind) (core line : Nat) (s : State) : Completes (requestAtHome kind core line s) := by
  fun_cases requestAtHome kind core line s <;> exact ⟨_, rfl⟩

theorem onRunning_completes (s : State) (g : Grp) (f : Group → Group) : Completes (onRunning s g f) := by
  fun_cases onRunning s g f <;> exact ⟨_, rfl⟩

theorem resumed_completes {r : Host.Outcome State Fault Refusal} (h : Completes r) : Completes (resumed r) := by
  obtain ⟨t, rfl⟩ := h
  exact ⟨_, rfl⟩

theorem victimAccepted_completes (hall line : Nat) (s : State) : Completes (victimAccepted hall line s) := by
  fun_cases victimAccepted hall line s <;> exact ⟨_, rfl⟩

theorem invAckArrives_completes (core line : Nat) (s : State) : Completes (invAckArrives core line s) := by
  fun_cases invAckArrives core line s with
  | case1 => exact ⟨_, rfl⟩
  | case2 => exact atCore_completes ..

theorem dataHomeArrives_completes (core line : Nat) (s : State) : Completes (dataHomeArrives core line s) := by
  fun_cases dataHomeArrives core line s with
  | case1 => exact ⟨_, rfl⟩
  | case2 => exact atHome_completes ..

theorem dataInFlightArrives_completes (core line : Nat) (s : State) : Completes (dataInFlightArrives core line s) := by
  fun_cases dataInFlightArrives core line s with
  | case1 => exact ⟨_, rfl⟩
  | case2 => exact atHome_completes ..

theorem doneArrives_completes (core line : Nat) (s : State) : Completes (doneArrives core line s) := atHome_completes ..

theorem execPutm_completes (core line : Nat) (s : State) : Completes (execPutm core line s) := by
  fun_cases execPutm core line s with
  | case1 => exact ⟨_, rfl⟩
  | case2 => exact atHome_completes ..

theorem execStationRemove_completes (mb : Nat) (s : State) : Completes (execStationRemove mb s) := by
  fun_cases execStationRemove mb s with
  | case5 => exact runCmd_completes ..
  | _ => exact ⟨_, rfl⟩

theorem execPartQuiesce_completes (mb : Nat) (s : State) : Completes (execPartQuiesce mb s) := by
  fun_cases execPartQuiesce mb s with
  | case3 => exact runCmd_completes ..
  | _ => exact ⟨_, rfl⟩

theorem execPartReset_completes (mb : Nat) (s : State) : Completes (execPartReset mb s) := by
  fun_cases execPartReset mb s with
  | case3 => exact runCmd_completes ..
  | _ => exact ⟨_, rfl⟩

theorem exec_completes (i : Instr) (s : State) : Completes (exec i s) := by
  cases i with
  | sadd _ _ | ssub _ _ | smul _ _ | smulhu _ _ | smulhs _ _ | sdivu _ _ | sdivs _ _ | sremu _ _ | srems _ _ | sand _ _ | sor _ _ | sxor _ _
    | sandn _ _ | sshl _ _ | sshr _ _ | ssar _ _ | sror _ _ | smin _ _ | smax _ _ | sminu _ _ | smaxu _ _ | sslt _ _ | ssltu _ _ | sseq _ _ | smov _ _
    | spopc _ _ | sclz _ _ | sctz _ _ | spget _ _ | spset _ _ | srdcr _ _ | wrcr _ _ | vadd _ _ | vsub _ _ | vmul _ _ | vmulhu _ _ | vmulhs _ _
    | vmin _ _ | vmax _ _ | vminu _ _ | vmaxu _ _ | vand _ _ | vor _ _ | vxor _ _ | vandn _ _ | vshl _ _ | vshr _ _ | vsar _ _ | vpopc _ _ | vclz _ _
    | vbrev _ _ | vfadd _ _ | vfsub _ _ | vfmul _ _ | vffma _ _ | vfmin _ _ | vfmax _ _ | vfabs _ _ | vfneg _ _ | vfcpys _ _ | vcmp _ _ _ | vcvt _ _ _
    | vmov _ _ | vsel _ _ | vlane _ _ | vget _ _ | vshfl _ _ | vbcast _ _ | vany _ _ | vall _ _ | vballot _ _ | vredAdd _ _ | vredFadd _ _ | vdadd _ _
    | vdsub _ _ | vdmul _ _ | vdfma _ _ | vdmin _ _ | vdmax _ _ | vdabs _ _ | vdneg _ _ | vfdiv _ _ | vfsqrt _ _ | vddiv _ _ | vdsqrt _ _ | vidivu _ _
    | vidivs _ _ | viremu _ _ | virems _ _ | vdcvt _ _ _ | vdcmp _ _ _ | ld _ _ | st _ _ | sld _ _ | sst _ _ | atom _ _ | satom _ _ | pf _ _ | lld _ _
    | lst _ _ | lldR _ _ | lstR _ _ | mldS _ _ | mmaW _ _ | mmaA _ _ | maccRd _ _ | maccWr _ _ | sivIsect _ _ | sivUnion _ _ | sivDiff _ _
    | sivProbe _ _ | sivGather _ _ | sivScatter _ _ | tlyAdd _ _ | tlySub _ _ | tlySetmax _ _ | tlyRead _ _ | tlyWatch _ _ | tlyCancel _ _ | bra _ _
    | call _ _ | brx _ _ | callx _ _ | ret _ _ | exitOp _ _ | yield _ _ | spin _ _ | barG _ _ | fenceOrd _ _ | fenceSeq _ _ | fenceDone _ _ | brk _ _ => exact ⟨_, rfl⟩
  | instanceMigrate _ _ _ | poolFold _ | unitSeal _ | unitUngate _ | coherenceError _ _ _ | queueSlotRotate _ | linkDown | foreignFrame
    | arpRequest _ _ | ndSolicit _ _ | lldpTimer | ptpSync _ | ptpFollowUp _ | ptpDelayResp _ | ptpAnnounce _ | bindingIdle _ | mctpControl _
    | getPdr _ | getSensorReading _ | getStateSensorReadings _ | reeveRestart | lifetimeFlush | moduleFailed _ | modPwrEnRise | modPwrEnFall
    | modResetAssert | modResetRelease | linkRetry _ | ethrefLost | ethrefReturn | inputFault | inputRecovered | jtagBypass | jtagIdcode
    | jtagSamplePreload | jtagExtest _ | delayReqTimer | mkaPeerLost | inputPowerApplied | dynamicAddressAssignment _ | jtagTrst => exact ⟨_, rfl⟩
  | capRead _ | noticeAck _ | sessionGrace _ | ctxCreate _ | ctxDestroy _ | ctxQuery _ | ctxSet _ | bellLogRead _ | parkRead _ | memCreate _
    | memMap _ | memUnmap _ | memShare _ | memRelease _ | memQuery _ | commonsCreate _ | commonsFill _ | commonsSeal _ | commonsFree _ | queueCreate _
    | queueDestroy _ | queueDoorbell _ | queueQuery _ | stationDeclare _ | tallyAlloc _ | tallyFree _ | tallySet _ | tallyExport _ | tallyImport _
    | tallyRelease _ | tallyQuery _ | epochAllot _ | epochReturn _ | partPolicy _ | partConfig _ | partResume _ | partMoveHalls _ | debugDump _
    | debugResume _ | tableRead _ =>
      simp only [exec]; exact runCmd_completes ..
  | identify _ | stateRead _ | moduleReset _ | sensorRead _ | powerCap _ | policy _ | policyState _ | counterRead _ | lifetimeRead _ | histogramRead _
    | logRead _ | provision _ | macsecKey _ | timeSet _ | fwBegin _ | fwWrite _ | fwVerify _ _ | fwActivate _ | fwStatus _ | attestQuote _
    | attestCert _ | measureRead _ =>
      simp only [exec]; exact sideband_completes ..
  | folestOpen _ | folestClose _ | folestReset _ | folestNop _ | mailboxFrame _ | dmaWrite _ | dmaRead _ | ingest _ | ackFrame _ | nackFrame _
    | keepalive _ =>
      simp only [exec]; exact receive_completes ..
  | queueCopy _ _ | queueFill _ _ | queueToLarder _ _ | queueFromLarder _ _ | queueWait _ _ | queueRaise _ _ | queueNop _ _ =>
      simp only [exec]; exact startEntry_completes ..
  | epochOpen _ | epochCommit _ | epochDiscard _ =>
      simp only [exec]; exact onCommand_completes ..
  | pute _ _ =>
      simp only [exec]; exact atHome_completes ..
  | invMsg _ _ | fwdgets _ _ | fwdgetm _ _ =>
      simp only [exec]; exact atCore_completes ..
  | gets _ _ | getm _ _ | upgrade _ _ =>
      simp only [exec]; exact requestAtHome_completes ..
  | pathSwitch _ _ | spinTimeout _ _ =>
      simp only [exec]; exact onRunning_completes ..
  | victimWriteAccepted _ _ => simp only [exec]; exact resumed_completes (victimAccepted_completes ..)
  | invack _ _ => simp only [exec]; exact resumed_completes (invAckArrives_completes ..)
  | datahome _ _ => simp only [exec]; exact resumed_completes (dataHomeArrives_completes ..)
  | datainflight _ _ => simp only [exec]; exact resumed_completes (dataInFlightArrives_completes ..)
  | doneMsg _ _ => simp only [exec]; exact resumed_completes (doneArrives_completes ..)
  | barrierStall g bar => simp only [exec]; fun_cases execBarrierStall g bar s <;> exact ⟨_, rfl⟩
  | missNotice g load => simp only [exec]; fun_cases execMissNotice g load s <;> exact ⟨_, rfl⟩
  | loadDataArrival g load => simp only [exec]; fun_cases execLoadDataArrival g load s <;> exact ⟨_, rfl⟩
  | runAheadLimit g => simp only [exec]; fun_cases execRunAheadLimit g s <;> exact ⟨_, rfl⟩
  | parkComplete g => simp only [exec]; fun_cases execParkComplete g s <;> exact ⟨_, rfl⟩
  | groupWake watch => simp only [exec]; fun_cases execGroupWake watch s <;> exact ⟨_, rfl⟩
  | replay station inst index g => simp only [exec]; fun_cases execReplay station inst index g s <;> exact ⟨_, rfl⟩
  | coreRetire core => simp only [exec]; fun_cases execCoreRetire core s <;> exact ⟨_, rfl⟩
  | storeDrain core entry => simp only [exec]; fun_cases execStoreDrain core entry s <;> exact ⟨_, rfl⟩
  | writeAck g req => simp only [exec]; fun_cases execWriteAck g req s <;> exact ⟨_, rfl⟩
  | fenceEndpointLost g w => simp only [exec]; fun_cases execFenceEndpointLost g w s <;> exact ⟨_, rfl⟩
  | millOpStart core => simp only [exec]; fun_cases execMillOpStart core s <;> exact ⟨_, rfl⟩
  | millBlockDrain core => simp only [exec]; fun_cases execMillBlockDrain core s <;> exact ⟨_, rfl⟩
  | millRescaleRetry core => simp only [exec]; fun_cases execMillRescaleRetry core s <;> exact ⟨_, rfl⟩
  | millComplete core cycles => simp only [exec]; fun_cases execMillComplete core cycles s <;> exact ⟨_, rfl⟩
  | millFault core status => simp only [exec]; fun_cases execMillFault core status s <;> exact ⟨_, rfl⟩
  | sieveComplete core => simp only [exec]; fun_cases execSieveComplete core s <;> exact ⟨_, rfl⟩
  | sieveFault core status => simp only [exec]; fun_cases execSieveFault core status s <;> exact ⟨_, rfl⟩
  | dmaTransferComplete queue entry => simp only [exec]; fun_cases execDmaTransferComplete queue entry s <;> exact ⟨_, rfl⟩
  | nearStoreAtomic core hall => simp only [exec]; fun_cases execNearStoreAtomic core hall s <;> exact ⟨_, rfl⟩
  | homeRead cls core ctx attr pa ecc => simp only [exec]; fun_cases execHomeRead cls core ctx attr pa ecc s <;> exact ⟨_, rfl⟩
  | homeWrite cls core ctx attr pa data => simp only [exec]; fun_cases execHomeWrite cls core ctx attr pa data s <;> exact ⟨_, rfl⟩
  | fillSectorArrival hall line sector ecc => simp only [exec]; fun_cases execFillSectorArrival hall line sector ecc s <;> exact ⟨_, rfl⟩
  | poolWrite ctx epoch pa data => simp only [exec]; fun_cases execPoolWrite ctx epoch pa data s <;> exact ⟨_, rfl⟩
  | epochCommandRefused part => simp only [exec]; fun_cases execEpochCommandRefused part s <;> exact ⟨_, rfl⟩
  | epochSliceApply part epoch hall => simp only [exec]; fun_cases execEpochSliceApply part epoch hall s <;> exact ⟨_, rfl⟩
  | epochSliceAck part epoch hall => simp only [exec]; fun_cases execEpochSliceAck part epoch hall s <;> exact ⟨_, rfl⟩
  | unitDrainDone u => simp only [exec]; fun_cases execUnitDrainDone u s <;> exact ⟨_, rfl⟩
  | patrolScrub pa pool ecc => simp only [exec]; fun_cases execPatrolScrub pa pool ecc s <;> exact ⟨_, rfl⟩
  | pageWalk st ctx va => simp only [exec]; fun_cases execPageWalk st ctx va s <;> exact ⟨_, rfl⟩
  | shootdown id st => simp only [exec]; fun_cases execShootdown id st s <;> exact ⟨_, rfl⟩
  | shootdownAck id st => simp only [exec]; fun_cases execShootdownAck id st s <;> exact ⟨_, rfl⟩
  | pageMoveRequest frame group => simp only [exec]; fun_cases execPageMoveRequest frame group s <;> exact ⟨_, rfl⟩
  | pageCopyDone move => simp only [exec]; fun_cases execPageCopyDone move s <;> exact ⟨_, rfl⟩
  | moveAbandoned move => simp only [exec]; fun_cases execMoveAbandoned move s <;> exact ⟨_, rfl⟩
  | tierInterval part => simp only [exec]; fun_cases execTierInterval part s <;> exact ⟨_, rfl⟩
  | refreshAdjust stack => simp only [exec]; fun_cases execRefreshAdjust stack s <;> exact ⟨_, rfl⟩
  | regulatorWindow resource part held => simp only [exec]; fun_cases execRegulatorWindow resource part held s <;> exact ⟨_, rfl⟩
  | putm core line => exact execPutm_completes ..
  | dataMsg core line evict => simp only [exec]; fun_cases execDataMsg core line evict s <;> exact ⟨_, rfl⟩
  | noticeSend => simp only [exec]; fun_cases execNoticeSend s <;> exact ⟨_, rfl⟩
  | stationRemove mb => exact execStationRemove_completes ..
  | partQuiesce mb => exact execPartQuiesce_completes ..
  | partReset mb => exact execPartReset_completes ..
  | doorbellStore queue tail => simp only [exec]; fun_cases execDoorbellStore queue tail s <;> exact ⟨_, rfl⟩
  | queueEntryComplete queue entry => simp only [exec]; fun_cases execQueueEntryComplete queue entry s <;> exact ⟨_, rfl⟩
  | notifyBellWrite watch => simp only [exec]; fun_cases execNotifyBellWrite watch s <;> exact ⟨_, rfl⟩
  | bellToSteward watch => simp only [exec]; fun_cases execBellToSteward watch s <;> exact ⟨_, rfl⟩
  | contextEvict ctx => simp only [exec]; fun_cases execContextEvict ctx s <;> exact ⟨_, rfl⟩
  | residencyReturn ctx => simp only [exec]; fun_cases execResidencyReturn ctx s <;> exact ⟨_, rfl⟩
  | contextLoss ctx => simp only [exec]; fun_cases execContextLoss ctx s <;> exact ⟨_, rfl⟩
  | destroyOverrun ctx => simp only [exec]; fun_cases execDestroyOverrun ctx s <;> exact ⟨_, rfl⟩
  | sessionGraceExpiry => simp only [exec]; fun_cases execSessionGraceExpiry s <;> exact ⟨_, rfl⟩
  | instancePlaced station inst core => simp only [exec]; fun_cases execInstancePlaced station inst core s <;> exact ⟨_, rfl⟩
  | linkUp mode => simp only [exec]; fun_cases execLinkUp mode s <;> exact ⟨_, rfl⟩
  | icmpEcho partner data => simp only [exec]; fun_cases execIcmpEcho partner data s <;> exact ⟨_, rfl⟩
  | eapolMka sak => simp only [exec]; fun_cases execEapolMka sak s <;> exact ⟨_, rfl⟩
  | ptpHoldover => simp only [exec]; fun_cases execPtpHoldover s <;> exact ⟨_, rfl⟩
  | retransmitTimeout => simp only [exec]; fun_cases execRetransmitTimeout s <;> exact ⟨_, rfl⟩
  | delayedAck => simp only [exec]; fun_cases execDelayedAck s <;> exact ⟨_, rfl⟩
  | keepaliveTimer => simp only [exec]; fun_cases execKeepaliveTimer s <;> exact ⟨_, rfl⟩
  | sessionTimeout => simp only [exec]; fun_cases execSessionTimeout s <;> exact ⟨_, rfl⟩
  | egressPost ctx line data => simp only [exec]; fun_cases execEgressPost ctx line data s <;> exact ⟨_, rfl⟩
  | eventFrameSend ctx => simp only [exec]; fun_cases execEventFrameSend ctx s <;> exact ⟨_, rfl⟩
  | sensorSample sensor value => simp only [exec]; fun_cases execSensorSample sensor value s <;> exact ⟨_, rfl⟩
  | powerCapInterval watts => simp only [exec]; fun_cases execPowerCapInterval watts s <;> exact ⟨_, rfl⟩
  | thermalThrottle => simp only [exec]; fun_cases execThermalThrottle s <;> exact ⟨_, rfl⟩
  | runAheadPolicy => simp only [exec]; fun_cases execRunAheadPolicy s <;> exact ⟨_, rfl⟩
  | placementProposal station inst core => simp only [exec]; fun_cases execPlacementProposal station inst core s <;> exact ⟨_, rfl⟩
  | gatingInterval u => simp only [exec]; fun_cases execGatingInterval u s <;> exact ⟨_, rfl⟩
  | histogramTick => simp only [exec]; fun_cases execHistogramTick s <;> exact ⟨_, rfl⟩
  | commonsRepaired obj block => simp only [exec]; fun_cases execCommonsRepaired obj block s <;> exact ⟨_, rfl⟩
  | coreStateLost core => simp only [exec]; fun_cases execCoreStateLost core s <;> exact ⟨_, rfl⟩
  | tallyCorrupt tally => simp only [exec]; fun_cases execTallyCorrupt tally s <;> exact ⟨_, rfl⟩
  | endpointDead e => simp only [exec]; fun_cases execEndpointDead e s <;> exact ⟨_, rfl⟩
  | resetOverrun part => simp only [exec]; fun_cases execResetOverrun part s <;> exact ⟨_, rfl⟩
  | bootVerify sigA sigB => simp only [exec]; fun_cases execBootVerify sigA sigB s <;> exact ⟨_, rfl⟩
  | railGroupUp group => simp only [exec]; fun_cases execRailGroupUp group s <;> exact ⟨_, rfl⟩
  | railFault rail => simp only [exec]; fun_cases execRailFault rail s <;> exact ⟨_, rfl⟩
  | linkTrain link ok => simp only [exec]; fun_cases execLinkTrain link ok s <;> exact ⟨_, rfl⟩
  | memoryTrainingDone badGroups badDies => simp only [exec]; fun_cases execMemoryTrainingDone badGroups badDies s <;> exact ⟨_, rfl⟩
  | coreTestDone bad => simp only [exec]; fun_cases execCoreTestDone bad s <;> exact ⟨_, rfl⟩
  | partitionRestore => simp only [exec]; fun_cases execPartitionRestore s <;> exact ⟨_, rfl⟩
  | bootTrialTimeout => simp only [exec]; fun_cases execBootTrialTimeout s <;> exact ⟨_, rfl⟩
  | refclkLost => simp only [exec]; fun_cases execRefclkLost s <;> exact ⟨_, rfl⟩
  | bladeLost blade => simp only [exec]; fun_cases execBladeLost blade s <;> exact ⟨_, rfl⟩
  | bladeReturn blade => simp only [exec]; fun_cases execBladeReturn blade s <;> exact ⟨_, rfl⟩
  | thermalTrip sensor => simp only [exec]; fun_cases execThermalTrip sensor s <;> exact ⟨_, rfl⟩
  | ppsInEdge => simp only [exec]; fun_cases execPpsInEdge s <;> exact ⟨_, rfl⟩
  | ppsOutPulse => simp only [exec]; fun_cases execPpsOutPulse s <;> exact ⟨_, rfl⟩
  | illegalOpcode g w x => simp only [exec]; fun_cases execIllegalOpcode g w x s <;> exact ⟨_, rfl⟩
  | queueWaitRetry queue => simp only [exec]; fun_cases execQueueWaitRetry queue s <;> exact ⟨_, rfl⟩
  | rxFrameDropped cause => simp only [exec]; fun_cases execRxFrameDropped cause s <;> exact ⟨_, rfl⟩

/-- Settles O25: the operations that commands share end in a next state, and so does every branch of the commands' own case distinctions. -/
theorem everyCommandIsCarriedOut : Obligations.EveryCommandIsCarriedOut := exec_completes

end Sys2Proof.Machine

end

section

/-! PROOFS. A coherence error takes the domain of its partition down. -/

namespace Sys2Proof.Machine

open Sys2Proof.Claims Sys2Proof.Laws

/-! ## What reaching and reading memory leaves -/

section

variable {β : Type} {p : State → β}

/-- The projection sees nothing of what reading and claiming memory may change: what a translation changes, the cores'
notes and the messages that ask caches for their lines. -/
def BlindToReads (p : State → β) : Prop :=
  ∀ s spare tlb walks slices counters regs heat cores out net dir flash reeve, p { s with
    spare := spare, tlb := tlb, walkCache := walks, slices := slices, counters := counters, regs := regs, heat := heat
    cores := cores, out := out, net := net, dir := dir, flash := flash, reeve := reeve } = p s

theorem foldl_fst_keeps {σ α γ : Type} {p : σ → β} {f : σ × γ → α → σ × γ} (hf : ∀ a x, p (f a x).1 = p a.1) (l : List α) (a : σ × γ) :
    p (l.foldl f a).1 = p a.1 :=
  foldl_keeps (p := fun a : σ × γ => p a.1) hf l a

variable (hp : BlindToReads p)
include hp

theorem BlindToReads.translated {s t : State} (h : OnlyTranslated s t) : p t = p s := by
  obtain ⟨spare, tlb, walks, slices, heat, counters, regs, events, severe, life, lost, rfl, -⟩ := h
  exact hp s spare tlb walks slices counters regs heat s.cores s.out s.net s.dir _ _

theorem BlindToReads.homeRead (s : State) (cls : RClass) (core attr pa : Nat) : p (homeRead s cls core attr pa) = p s :=
  homeRead_keeps (fun s slices counters regs heat cores out f v =>
    hp s s.spare s.tlb s.walkCache slices counters regs heat cores out s.net s.dir f v) ..

theorem BlindToReads.send (s : State) (m : Msg) : p (send s m) = p s :=
  hp s s.spare s.tlb s.walkCache s.slices s.counters s.regs s.heat s.cores s.out _ s.dir s.flash s.reeve

theorem BlindToReads.markDir (s : State) (l : Nat) (d : DirEntry) : p (s.markDir l d) = p s :=
  hp s s.spare s.tlb s.walkCache s.slices s.counters s.regs s.heat s.cores s.out s.net _ s.flash s.reeve

theorem BlindToReads.homeCall (s : State) (l : Nat) (write : Bool) : p (homeCall s l write) = p s := by
  unfold Machine.homeCall
  extract_lets d txn
  split
  · rfl
  split
  · exact (hp.send ..).trans (hp.markDir ..)
  · rfl
  split
  · rfl
  split
  · exact hp.markDir ..
  · exact (foldl_keeps (fun s _ => hp.send s _) ..).trans (hp.markDir ..)

theorem BlindToReads.claimLine (s : State) (l : Nat) (write : Bool) : p (claimLine s l write).1 = p s := by
  unfold Machine.claimLine
  split
  · rfl
  · exact hp.homeCall ..

theorem BlindToReads.claimRange (s : State) (pa n : Nat) (write : Bool) : p (claimRange s pa n write).1 = p s :=
  foldl_fst_keeps (fun a l => by exact hp.claimLine a.1 l write) _ _

theorem BlindToReads.claimPiece (s : State) (need : Need) (pa n : Nat) : p (claimPiece s need pa n).1 = p s := by
  have h := hp.claimRange s pa n (decide (need ≠ .r))
  unfold Machine.claimPiece
  split
  next heq => rw [heq] at h; exact h
  next heq => rw [heq] at h; exact h

theorem BlindToReads.reachPiece (s : State) (st : TlbStruct) (ctx : Nat) (need : Need) (v n : Nat) :
    p (reachPiece s st ctx need v n).1 = p s := by
  have h := hp.translated (translate_only s st false ctx v need)
  unfold Machine.reachPiece
  split
  next heq => rw [heq] at h; exact h
  next heq => rw [heq] at h; exact h
  next heq =>
    rw [heq] at h
    split
    · exact h
    split
    · exact h
    split
    · exact h
    · exact (hp.claimPiece ..).trans h

theorem BlindToReads.reachPieces (s : State) (st : TlbStruct) (ctx : Nat) (need : Need) (ps : List (Nat × Nat)) :
    p (reachPieces s st ctx need ps).1 = p s :=
  foldl_fst_keeps (fun a x => by
    split
    · rfl
    · exact hp.reachPiece ..) _ _

theorem BlindToReads.seePiece (st : TlbStruct) (ctx : Nat) (need : Need) (s : State) (x : Nat × Nat) :
    p (seePiece st ctx need s x) = p s := by
  unfold Machine.seePiece
  split
  · split
    · exact hp.homeRead ..
    split
    · rfl
    · exact hp.translated (homeWrite_only ..)
  · rfl

theorem BlindToReads.reach (s : State) (st : TlbStruct) (ctx : Nat) (need : Need) (ss : List (Nat × Nat)) :
    p (reach s st ctx need ss).1 = p s := by
  have h := hp.reachPieces s st ctx need (ss.flatMap fun x => pieces x.1 x.2)
  unfold Machine.reach
  extract_lets ps
  split
  next heq => rw [heq] at h; exact (foldl_keeps (hp.seePiece st ctx need) ..).trans h
  · exact h

theorem BlindToReads.unitReach (s : State) (c ctx : Nat) (larder : Bool) (need : Need) (ss : List (Nat × Nat)) :
    p (unitReach s c ctx larder need ss).1 = p s := by
  unfold Machine.unitReach
  split
  · rfl
  · exact hp.reach ..

/-! ## What a run of the sieve leaves -/

theorem BlindToReads.runReach (r : SRun) (c ctx : Nat) (larder : Bool) (need : Need) (v n : Nat) :
    p (r.reach c ctx larder need v n).s = p r.s := by
  unfold SRun.reach
  split
  · rfl
  · exact hp.unitReach ..

omit hp in
theorem SRun.put_s (r : SRun) (w : SWrite) : (r.put w).s = r.s := by
  unfold SRun.put
  split <;> rfl

theorem BlindToReads.runKey (r : SRun) (c ctx : Nat) (t : Tile) (i : Nat) : p (r.key c ctx t i).1.s = p r.s :=
  hp.runReach ..

theorem BlindToReads.outKey (r : SRun) (c ctx : Nat) (use : Bool) (o : Tile) (i v : Nat) :
    p (r.outKey c ctx use o i v).s = p r.s := by
  unfold SRun.outKey
  split
  · rfl
  split
  · rfl
  · exact (congrArg p (SRun.put_s ..)).trans (hp.runReach ..)

omit hp in
theorem elem_keeps {f : SRun → SRun} (hf : ∀ r, p (f r).s = p r.s) (r : SRun) : p (r.elem f).s = p r.s :=
  hf { r with stop := .ok }

theorem BlindToReads.eachKey (op : SieveOp) (c : Nat) (r : SRun) {f : SRun → Nat → Nat → SRun}
    (hf : ∀ r i x, p (f r i x).s = p r.s) : p (eachKey op c r f).s = p r.s :=
  foldl_keeps (p := fun r : SRun => p r.s) (fun r i => elem_keeps (fun r => by
    dsimp only
    split
    · exact (hf ..).trans (hp.runKey ..)
    · exact hp.runKey ..) r) _ _

theorem BlindToReads.probeFrom (c ctx : Nat) (larder : Bool) (base log2 kb x : Nat) : ∀ (n slot : Nat) (r : SRun),
    p (probeFrom r c ctx larder base log2 kb x n slot).1.s = p r.s
  | 0, _, _ => rfl
  | n + 1, slot, r => by
    unfold Machine.probeFrom
    extract_lets a r1 bs key
    have h1 : p r1.s = p r.s := by
      show p (ite _ _ _ : SRun).s = _
      split
      · rfl
      · exact hp.runReach ..
    split
    · exact h1
    split
    · exact h1
    split
    · exact h1
    · exact (BlindToReads.probeFrom c ctx larder base log2 kb x n _ _).trans h1

theorem BlindToReads.probeKey (r : SRun) (op : SieveOp) (c x : Nat) : p (probeKey r op c x).1.s = p r.s := by
  unfold Machine.probeKey
  extract_lets a kb ones log2 home per
  split
  · rfl
  have h := hp.probeFrom c op.ctx (bit op.desc 498) (bits op.desc 191 136) log2 kb x
    (per - home % per + (bits op.desc 359 352 - 1) * per) home r
  split
  next heq => rw [heq] at h; exact h
  next heq => rw [heq] at h; exact h
  next heq =>
    rw [heq] at h
    dsimp only
    split <;> exact h

theorem BlindToReads.runProbe (op : SieveOp) (c : Nat) (r : SRun) : p (runProbe op c r).s = p r.s :=
  hp.eachKey _ _ _ fun r _ x => (hp.outKey ..).trans (hp.probeKey r op c x)

theorem BlindToReads.runGather (op : SieveOp) (c : Nat) (r : SRun) : p (runGather op c r).s = p r.s := by
  unfold Machine.runGather
  extract_lets size o
  refine hp.eachKey _ _ _ fun r i x => ?_
  extract_lets dest write r1 all v r2 r3
  have hwrite : ∀ r bs, p (write r bs).s = p r.s := fun r bs => by
    show p (ite _ _ _ : SRun).s = _
    split
    · rfl
    · exact (congrArg p (SRun.put_s ..)).trans (hp.runReach ..)
  split
  · split <;> exact hwrite ..
  · have h2 : p r2.s = p r.s := hp.runReach ..
    show p (ite _ _ _ : SRun).s = _
    split
    · exact (hwrite ..).trans h2
    · exact h2

theorem BlindToReads.runScatter (op : SieveOp) (c : Nat) (r : SRun) : p (runScatter op c r).s = p r.s :=
  hp.eachKey _ _ _ fun r i x => by
    dsimp only
    split
    · rfl
    · exact (congrArg p (SRun.put_s ..)).trans ((hp.runReach ..).trans (hp.runReach ..))

theorem BlindToReads.inputNext (x : SInput) (r : SRun) (c ctx : Nat) : p (x.next r c ctx).1.s = p r.s := by
  unfold SInput.next
  split
  · rfl
  · have h := hp.runKey r c ctx x.tile x.keys.length
    dsimp only
    split
    · exact h
    split
    · split <;> exact h
    · exact h

theorem BlindToReads.readSets (c ctx : Nat) : ∀ (n : Nat) (r : SRun) (x y : SInput), p (readSets c ctx n r x y).1.s = p r.s
  | 0, _, _, _ => rfl
  | n + 1, r, x, y => by
    unfold Machine.readSets
    extract_lets xEnd yEnd goX goY
    split
    · rfl
    split
    next r1 x1 heq1 =>
    split
    next r2 y1 heq2 =>
    have h1 : p r1.s = p r.s := by
      have h : p (if goX = true then x.next r c ctx else (r, x)).1.s = p r.s := by
        split
        · exact hp.inputNext ..
        · rfl
      rw [heq1] at h; exact h
    have h2 : p r2.s = p r1.s := by
      have h : p (if (goY && !x1.stopped) = true then y.next r1 c ctx else (r1, y)).1.s = p r1.s := by
        split
        · exact hp.inputNext ..
        · rfl
      rw [heq2] at h; exact h
    exact (BlindToReads.readSets c ctx n r2 x1 y1).trans (h2.trans h1)

theorem BlindToReads.runSet (op : SieveOp) (c : Nat) (r : SRun) : p (runSet op c r).s = p r.s := by
  unfold Machine.runSet
  extract_lets na nb
  split
  next r1 x y heq =>
  have h1 : p r1.s = p r.s := by
    have h := hp.readSets c op.ctx (na + nb + 1) r { tile := .ofWord op.aTile, count := na, keys := [], stopped := false }
      { tile := .ofWord op.bTile, count := nb, keys := [], stopped := false }
    rw [heq] at h; exact h
  exact (foldl_keeps (p := fun r : SRun => p r.s) (fun r z => elem_keeps (fun r => hp.outKey ..) r) ..).trans h1

/-- A run of the sieve gathers its writes and puts none. -/
theorem BlindToReads.sieveRun (s : State) (c : Nat) (op : SieveOp) : p (sieveRun s c op).s = p s := by
  unfold Machine.sieveRun
  split
  · rfl
  extract_lets r
  split
  · exact hp.runProbe ..
  · exact hp.runGather ..
  · exact hp.runScatter ..
  · exact hp.runSet ..

end

/-! ## What the units' writes leave of the partitions and contexts -/

/-- The partitions and the contexts. -/
def State.domains (s : State) : Table Partition × Table Context := (s.parts, s.contexts)

theorem domains_blind : BlindToReads State.domains := fun _ _ _ _ _ _ _ _ _ _ _ _ _ _ => rfl

theorem countUp_domains (s : State) (kind unit num n : Nat) : (countUp s kind unit num n).domains = s.domains :=
  countUp_keeps (fun _ _ _ _ => rfl) ..

theorem OnlyRecalled.domains {s t : State} (h : OnlyRecalled s t) : t.domains = s.domains := by
  obtain ⟨_, _, _, _, _, _, rfl⟩ := h; rfl

theorem foldCommitted_domains (s : State) (h l : Nat) : (foldCommitted s h l).domains = s.domains := by
  have hfold : ((toFold s h l).foldl foldOne s).domains = s.domains :=
    foldl_keeps (f := foldOne) (fun s x => (recallLine_only s x.line).domains) ..
  rw [foldCommitted_eq]
  split
  · exact hfold
  · exact hfold

theorem refreshFlight_domains (s : State) (l : Nat) : (refreshFlight s l).domains = s.domains := by
  unfold refreshFlight
  split
  · extract_lets d s1
    exact foldl_keeps (p := State.domains) (f := fun s (e : Nat × Core) => wakeSpins s e.1 l) (fun _ _ => rfl) _ s1
  · rfl

theorem write_domains (s : State) (pa : Nat) (bs : List Byte) : (s.write pa bs).domains = s.domains := by
  have hrecall := foldl_keeps (fun s l => (recallLine_only s l).domains) (linesOf pa bs.length) s
  have hcommit := foldl_keeps (fun s l => foldCommitted_domains s (s.homeOf (128 * l)) l) (linesOf pa bs.length)
    ((linesOf pa bs.length).foldl recallLine s)
  exact (foldl_keeps refreshFlight_domains ..).trans (hcommit.trans hrecall)

theorem poolWriteLine_domains (s : State) (e l : Nat) (mask : BitVec 128) (data : Line) :
    (poolWriteLine s e l mask data).1.domains = s.domains := by
  unfold poolWriteLine
  extract_lets h ep s1 sl mine mix
  split
  · rfl
  have h1 : s1.domains = s.domains := by
    show (ite _ _ _ : State).domains = _
    split
    · rfl
    · exact (recallLine_only ..).domains
  clear_value mine
  cases mine with
  | cons x _ => exact (countUp_domains ..).trans h1
  | nil =>
  dsimp only
  split
  · exact countUp_domains ..
  · exact (countUp_domains ..).trans h1

theorem unitWrite_domains (s : State) (e : Option Nat) (pa : Nat) (bs : List Byte) : (s.unitWrite e pa bs).1.domains = s.domains := by
  cases e with
  | none => exact write_domains ..
  | some n =>
    exact foldl_fst_keeps (fun a l => by
      split
      · rfl
      · exact poolWriteLine_domains ..) _ _

theorem virtWrite_domains (s : State) (st : TlbStruct) (ctx v : Nat) (bs : List Byte) :
    (virtWrite s st ctx v bs).1.domains = s.domains :=
  foldl_fst_keeps (fun a x => by
    split
    · rfl
    split
    · exact unitWrite_domains ..
    · rfl) _ _

theorem nearApply_domains (s : State) (e : Option Nat) (pa aop n val cmp : Nat) :
    (nearApply s e pa aop n val cmp).1.domains = s.domains := by
  unfold nearApply
  extract_lets old
  split
  next heq =>
  have h := unitWrite_domains s e pa (leBytes n (atomicResult aop (8 * n) old val cmp))
  rw [heq] at h
  split
  · exact h
  · rfl

theorem sievePut_domains (s : State) (c ctx : Nat) (w : SWrite) : (sievePut s c ctx w).1.domains = s.domains := by
  cases w with
  | put larder v bs =>
    unfold sievePut unitPut
    dsimp only
    split
    · rfl
    · exact virtWrite_domains ..
  | atom v aop n val =>
    unfold sievePut
    dsimp only
    split
    · exact nearApply_domains ..
    · rfl

/-! ## What stopping the units of a context leaves of the partitions and contexts -/

theorem deliverWord_domains (s : State) (g : Grp) (ctx gen : Nat) (dst : BitVec 9) (w : W64) :
    (deliverWord s g ctx gen dst w).domains = s.domains := by
  unfold deliverWord
  split <;> rfl

theorem cancelMill_domains (s : State) (c : Nat) (o : MillOp) : (cancelMill s c o).domains = s.domains := deliverWord_domains ..

theorem cancelSieve_domains (s : State) (c : Nat) (o : SieveOp) : (cancelSieve s c o).domains = s.domains := deliverWord_domains ..

theorem stopSieve_domains (s : State) (c : Nat) (o : SieveOp) : (stopSieve s c o).domains = s.domains := by
  have hrun : (sieveRun s c o).s.domains = s.domains := domains_blind.sieveRun s c o
  exact (cancelSieve_domains ..).trans ((foldl_keeps (fun s w => sievePut_domains s c o.ctx w) ..).trans hrun)

theorem abortMill_domains (s : State) (ctx : Nat) : (abortMill s ctx).domains = s.domains := by
  unfold abortMill
  refine foldl_keeps (fun s e => foldl_keeps (fun s o => ?_) _ s) _ s
  exact cancelMill_domains s e.1 o

theorem abortSieve_domains (s : State) (ctx : Nat) : (abortSieve s ctx).domains = s.domains := by
  unfold abortSieve
  refine foldl_keeps (fun s e => foldl_keeps (fun s o => ?_) _ s) _ s
  split
  · exact stopSieve_domains ..
  · exact cancelSieve_domains ..

theorem finishEntry_domains (s : State) (qi k : Nat) (q : Queue) (status : W16) : (finishEntry s qi k q status).domains = s.domains :=
  (virtWrite_domains ..).trans (virtWrite_domains ..)

theorem completeTransfers_domains (s : State) (ctx : Nat) (status : W16) : (completeTransfers s ctx status).domains = s.domains := by
  unfold completeTransfers
  refine foldl_keeps (fun s r => ?_) _ s
  have h1 : ∀ ph : EntryPhase, (match ph with
      | .larder c n => s.modCore c fun k => { k with scores := k.scores.filter fun e => decide (e.seq ≠ n) }
      | _ => s).domains = s.domains := fun ph => by cases ph <;> rfl
  dsimp only
  split
  · exact (finishEntry_domains ..).trans (h1 _)
  · exact h1 _

theorem haltQueues_domains (s : State) (ctx : Nat) (status : W16) : (haltQueues s ctx status).domains = s.domains :=
  foldl_keeps (p := State.domains) (f := fun (s : State) (x : Nat × Nat) =>
    s.modCore x.1 fun k => { k with scores := k.scores.filter fun e => decide (e.seq ≠ x.2) }) (fun _ _ => rfl) _ s

/-! ## Groups that leave their slots, contexts that are queued for loss -/

theorem gkey_keyGrp (k : Nat) : gkey (keyGrp k) = k := Nat.div_add_mod' k 48

theorem mem_groups_of_dropped {l : List (Nat × Group)} {s : State} {e : Nat × Group}
    (h : e ∈ (l.foldl (fun s x => s.dropGroup (keyGrp x.1)) s).groups) : e ∈ s.groups ∧ ∀ x ∈ l, e.1 ≠ x.1 := by
  induction l generalizing s with
  | nil => exact ⟨h, by simp⟩
  | cons x l ih =>
    obtain ⟨hmem, hne⟩ := ih h
    have hdel : e ∈ tdel s.groups x.1 := gkey_keyGrp x.1 ▸ hmem
    obtain ⟨hs, hx⟩ := List.mem_filter.1 hdel
    exact ⟨hs, List.forall_mem_cons.2 ⟨of_decide_eq_true hx, hne⟩⟩

theorem dropGroups_domains (l : List (Nat × Group)) (s : State) :
    (l.foldl (fun s x => s.dropGroup (keyGrp x.1)) s).domains = s.domains :=
  foldl_keeps (f := fun s (x : Nat × Group) => s.dropGroup (keyGrp x.1)) (fun _ _ => rfl) l s

/-- The partitions, the contexts and the groups. -/
def State.places (s : State) : Table Partition × Table Context × Table Group := (s.parts, s.contexts, s.groups)

theorem lose_places (s : State) (c : Nat) (st : W16) (addr : Nat) : (loseCtx s c st addr).places = s.places := by
  unfold loseCtx lose addLoss
  split <;> rfl

theorem lose_keeps_queued {s : State} {x : Loss} (h : x ∈ s.lossQ) (c : Nat) (st : W16) (addr : Nat) :
    x ∈ (loseCtx s c st addr).lossQ := by
  unfold loseCtx lose addLoss
  split
  · exact h
  · exact List.mem_append_left _ h

theorem lose_queues {s : State} {c : Nat} {ctx : Context} (h : s.ctx? c = some ctx) (st : W16) (addr : Nat) :
    ∃ x ∈ (loseCtx s c st addr).lossQ, x.ctx = c ∧ x.status = st := by
  unfold loseCtx lose addLoss
  rw [h]
  exact ⟨_, List.mem_append_right _ List.mem_cons_self, rfl, rfl⟩

theorem loseAll_queues {cs : List Nat} {s : State} {c : Nat} {ctx : Context} (h : s.ctx? c = some ctx) (hc : c ∈ cs) (st : W16)
    (addr : Nat) : ∃ x ∈ (cs.foldl (fun s c => loseCtx s c st addr) s).lossQ, x.ctx = c ∧ x.status = st := by
  have hkeep : ∀ (cs : List Nat) (s : State), ∀ x ∈ s.lossQ, x ∈ (cs.foldl (fun s c => loseCtx s c st addr) s).lossQ := by
    intro cs
    induction cs with
    | nil => exact fun _ _ hx => hx
    | cons d cs ih => exact fun s x hx => ih _ x (lose_keeps_queued hx d st addr)
  induction cs generalizing s with
  | nil => exact absurd hc List.not_mem_nil
  | cons d cs ih =>
    rcases List.mem_cons.1 hc with rfl | hc
    · obtain ⟨x, hx, hctx, hst⟩ := lose_queues h st addr
      exact ⟨x, hkeep cs _ x hx, hctx, hst⟩
    · have hctx : (loseCtx s d st addr).ctx? c = some ctx := by
        unfold State.ctx?
        rw [show (loseCtx s d st addr).contexts = s.contexts from congrArg (·.2.1) (lose_places s d st addr)]
        exact h
      exact ih hctx hc

/-! ## What an answer and a record leave -/

/-- What a coherence error decides: the partitions, the contexts, the groups and the losses. -/
def State.fate (s : State) : Table Partition × Table Context × Table Group × List Loss := (s.parts, s.contexts, s.groups, s.lossQ)

theorem emitFrame_fate (s : State) (x : Session) (typ : BitVec 8) (retx resp : Bool) (seq : W32) (time : Nat) (payload : List Byte) :
    (emitFrame s x typ retx resp seq time payload).fate = s.fate :=
  countUp_keeps (p := State.fate) (fun _ _ _ _ => rfl) ..

theorem pump_fate (s : State) : (pump s).fate = s.fate := by
  unfold pump
  split
  · rfl
  · refine foldl_keeps (p := State.fate) (fun s f => ?_) _ _
    split
    · split
      · exact emitFrame_fate ..
      · rfl
    · rfl

theorem sendMail_fate (s : State) (mb : Nat) (m : List Byte) : (sendMail s mb m).fate = s.fate := by
  unfold sendMail pushTx
  split
  · rfl
  · exact pump_fate _

theorem respond_fate (s : State) (mb : Nat) (status : W16) (payload : List Byte) : (respond s mb status payload).fate = s.fate := by
  unfold respond respondGen
  split
  · rfl
  split
  · rfl
  split
  · rfl
  · extract_lets s1
    have h1 : s1.fate = s.fate := sendMail_fate ..
    split
    · exact h1
    · exact h1

theorem respondLate_fate (s : State) (ticket : Nat) (status : W16) (payload : List Byte) :
    (respondLate s ticket status payload).fate = s.fate := by
  unfold respondLate
  split
  · exact respond_fate ..
  · rfl

theorem logEvent_fate (s : State) (r : EventRec) : (logEvent s r).fate = s.fate := logEvent_keeps (fun _ _ _ => rfl) ..

theorem rasNotice_fate (s : State) (p : Nat) (status : W16) (addr : Nat) : (rasNotice s p status addr).fate = s.fate := by
  unfold rasNotice notify
  by_cases h : 4096 ≤ s.notices.length + (if s.noticeOut.isSome then 1 else 0)
  · rw [if_pos h]; rfl
  · rw [if_neg h]; rfl

/-! ## A domain goes down -/

/-- The units of the contexts stop: their operations end and their queues halt. -/
def unitsStopped (s : State) (cs : List Nat) (status : W16) : State :=
  cs.foldl (fun s c => haltQueues (completeTransfers (abortSieve (abortMill s c) c) c status) c status) s

theorem unitsStopped_domains (s : State) (cs : List Nat) (status : W16) : (unitsStopped s cs status).domains = s.domains := by
  unfold unitsStopped
  refine foldl_keeps (fun s c => ?_) cs s
  exact (haltQueues_domains ..).trans ((completeTransfers_domains ..).trans ((abortSieve_domains ..).trans (abortMill_domains ..)))

/-- The groups of the contexts have left their slots. -/
def groupsDropped (s : State) (cs : List Nat) : State :=
  (s.groups.filter fun e => cs.contains e.2.ctx).foldl (fun s e => s.dropGroup (keyGrp e.1)) s

theorem groupsDropped_ctx {s : State} {cs : List Nat} {e : Nat × Group} (h : e ∈ (groupsDropped s cs).groups) : e.2.ctx ∉ cs := by
  obtain ⟨hmem, hne⟩ := mem_groups_of_dropped h
  exact fun hc => hne e (List.mem_filter.2 ⟨hmem, List.contains_iff_mem.2 hc⟩) rfl

/-- The partition's record once its domain is down. -/
def downed (s : State) (p : Nat) : State := s.setPart p { s.part p with state := .down, quiesceMb := none }

/-- The domain of `p` is down and its contexts are queued for loss; a command that waited for it has its answer. -/
theorem takeDown_fate (s : State) (p : Nat) (status : W16) (addr : Nat) : ∃ u : State,
    u.places = (groupsDropped (unitsStopped (downed s p) (s.ctxsOf p) status) (s.ctxsOf p)).places ∧
    (takeDown s p status addr).fate = ((s.ctxsOf p).foldl (fun s c => loseCtx s c status addr) u).fate := by
  unfold takeDown
  extract_lets pt cs ours s1 s2 s3 mine s4 s5
  refine ⟨s4, rfl, ?_⟩
  split
  · exact respondLate_fate ..
  · rfl

theorem tfind_mem {α : Type} {t : Table α} {k : Nat} {v : α} (h : tfind t k = some v) : (k, v) ∈ t := by
  induction t with
  | nil => exact absurd h (by simp [tfind])
  | cons e t ih =>
    obtain ⟨a, w⟩ := e
    unfold tfind at h
    split at h
    next hk => cases h; exact hk ▸ List.mem_cons_self
    · exact List.mem_cons_of_mem _ (ih h)

theorem mem_ctxsOf {s : State} {c : Nat} {ctx : Context} (h : s.ctx? c = some ctx) : c ∈ s.ctxsOf ctx.part :=
  List.mem_map.2 ⟨(c, ctx), List.mem_filter.2 ⟨tfind_mem h, by simp⟩, rfl⟩

/-- Settles O11: the partition is set down, its groups are dropped and its contexts queued for loss; what the units had under way,
the answer to a waiting command and the record leave partitions, contexts, groups and losses alone. -/
theorem coherenceErrorResult : Obligations.CoherenceErrorResult := by
  intro p die l s hp hrun
  obtain ⟨u, hu, hdown⟩ := takeDown_fate s p 0x0713 (128 * l)
  have hfate : (coherenceDown s p die l).fate = ((s.ctxsOf p).foldl (fun s c => loseCtx s c 0x0713 (128 * l)) u).fate := by
    have hif : ¬((s.part p).state ≠ .running ∧ (s.part p).state ≠ .quiesced) := fun h => h.1 hrun
    unfold coherenceDown
    extract_lets pt s1 s2
    rw [if_neg hif, rasNotice_fate, logEvent_fate, hdown]
  have hplaces : ((s.ctxsOf p).foldl (fun s c => loseCtx s c 0x0713 (128 * l)) u).places = u.places :=
    foldl_keeps (fun s c => lose_places s c 0x0713 (128 * l)) _ u
  have hdom : u.domains = (downed s p).domains :=
    (congrArg (fun x => (x.1, x.2.1)) hu).trans ((dropGroups_domains _ _).trans (unitsStopped_domains ..))
  have hparts : (coherenceDown s p die l).parts = (downed s p).parts :=
    (congrArg (·.1) hfate).trans ((congrArg (·.1) hplaces).trans (congrArg (·.1) hdom))
  have hgroups : (coherenceDown s p die l).groups = u.groups :=
    (congrArg (·.2.2.1) hfate).trans (congrArg (·.2.2) hplaces)
  have hloss : (coherenceDown s p die l).lossQ = _ := congrArg (·.2.2.2) hfate
  have hdropped : u.groups = _ := congrArg (·.2.2) hu
  refine ⟨coherenceDown s p die l, congrArg Host.Outcome.next (if_pos hp), ?_, fun q hq => ?_, fun e he => ?_, fun c ctx hc hpart => ?_⟩
  · rw [State.part, hparts, downed, State.setPart, tget_tset_self]
  · rw [State.part, hparts, downed, State.setPart, tget_tset_other _ _ _ hq, State.part]
  · rw [hgroups, hdropped] at he
    exact groupsDropped_ctx he
  · have hctx : u.ctx? c = some ctx := (congrArg (fun x : Table Partition × Table Context => tfind x.2 c) hdom).trans hc
    rw [hloss]
    exact loseAll_queues hctx (hpart ▸ mem_ctxsOf hc) _ _

end Sys2Proof.Machine

end

section

/-! PROOFS. What each operation of the model leaves of memory: the operations that store nothing. -/

namespace Sys2Proof.Machine

open Sys2Proof.Claims Sys2Proof.Laws

/-- A fold of operations that each leave memory alone leaves it alone. -/
@[simp] theorem foldl_mem {α : Type} (f : State → α → State) (l : List α) (s : State) (hf : ∀ s x, (f s x).mem = s.mem) :
    (l.foldl f s).mem = s.mem := by
  induction l generalizing s with
  | nil => rfl
  | cons x t ih => rw [List.foldl_cons, ih, hf]

/-- The same of a fold that gathers a result beside the state. -/
theorem foldl_fst_mem {α β : Type} (f : State × β → α → State × β) (l : List α) (r : State × β)
    (hf : ∀ r x, (f r x).1.mem = r.1.mem) : (l.foldl f r).1.mem = r.1.mem := by
  induction l generalizing r with
  | nil => rfl
  | cons x t ih => rw [List.foldl_cons, ih, hf]

/-- The same of a fold that can fail. -/
theorem foldl_bind_mem {α : Type} (f : State → α → Option State) (l : List α) (s t : State)
    (hf : ∀ s x t, f s x = some t → t.mem = s.mem) (h : l.foldl (fun o x => o.bind fun s => f s x) (some s) = some t) : t.mem = s.mem := by
  induction l generalizing s with
  | nil => cases h; rfl
  | cons x l ih =>
    rw [List.foldl_cons, Option.bind_some] at h
    cases hs : f s x with
    | none =>
      rw [hs] at h
      have hn : ∀ l : List α, l.foldl (fun o x => o.bind fun s => f s x) none = none := fun l => by
        induction l with
        | nil => rfl
        | cons y l ih => exact ih
      rw [hn] at h
      cases h
    | some u => rw [ih u (hs ▸ h), hf s x u hs]

/-- The first of a pair whose memory is known. -/
theorem mem_of_eq {β : Type} {p : State × β} {s : State} {x : β} {m : List Host.Cell} (e : p = (s, x)) (h : p.1.mem = m) : s.mem = m := by
  subst e; exact h

@[simp] theorem State.modCore_mem (s : State) (c : ℕ) (f : Core → Core) : (State.modCore s c f).mem = s.mem := by unfold State.modCore; simp

@[simp] theorem State.dropGroup_mem (s : State) (g : Grp) : (State.dropGroup s g).mem = s.mem := by unfold State.dropGroup; simp

@[simp] theorem State.modGroup_mem (s : State) (g : Grp) (f : Group → Group) : (State.modGroup s g f).mem = s.mem := by
  unfold State.modGroup
  split <;> simp

@[simp] theorem State.modCtx_mem (s : State) (c : ℕ) (f : Context → Context) : (State.modCtx s c f).mem = s.mem := by
  unfold State.modCtx
  split <;> simp

@[simp] theorem State.setPart_mem (s : State) (p : ℕ) (k : Partition) : (State.setPart s p k).mem = s.mem := by unfold State.setPart; simp

@[simp] theorem State.setSlice_mem (s : State) (h : ℕ) (k : Slice) : (State.setSlice s h k).mem = s.mem := by unfold State.setSlice; simp

@[simp] theorem State.setEpoch_mem (s : State) (e : ℕ) (k : Epoch) : (State.setEpoch s e k).mem = s.mem := by unfold State.setEpoch; simp

@[simp] theorem State.freeVal_mem (s : State) : (State.freeVal s).1.mem = s.mem := by unfold State.freeVal; simp

@[simp] theorem State.setSeal_mem (s : State) (u : GateUnit) (v : Option SealState) :
    (State.setSeal s u v).mem = s.mem := by unfold State.setSeal; simp

@[simp] theorem wakeSpins_mem (s : State) (c l : ℕ) : (wakeSpins s c l).mem = s.mem := by unfold wakeSpins; simp

@[simp] theorem dropCopy_memory (l : ℕ) (s : State) (c : ℕ) : (dropCopy l s c).mem = s.mem := dropCopy_mem ..

@[simp] theorem State.setDir_mem (s : State) (l : ℕ) (d : DirEntry) : (State.setDir s l d).mem = s.mem := by unfold State.setDir; simp

@[simp] theorem refreshFlight_mem (s : State) (l : ℕ) : (refreshFlight s l).mem = s.mem := by
  unfold refreshFlight
  split <;> simp

@[simp] theorem lifeAdd_mem (s : State) (k n : ℕ) : (lifeAdd s k n).mem = s.mem := by unfold lifeAdd; simp

@[simp] theorem logEvent_mem (s : State) (r : EventRec) : (logEvent s r).mem = s.mem := by
  unfold logEvent
  (repeat' split) <;> simp

@[simp] theorem event_mem (s : State) (level : BitVec 8) (status : W16) (unit die : BitVec 8) (index : W16) :
    (event s level status unit die index).mem = s.mem := by unfold event; simp

@[simp] theorem eventCtx_mem (s : State) (level : BitVec 8) (status : W16) (unit die : BitVec 8) (index : W16) (ctx pa : ℕ) (detail : W64) :
    (eventCtx s level status unit die index ctx pa detail).mem = s.mem := by unfold eventCtx; simp

@[simp] theorem withSyndrome_mem (s : State) (r : EventRec) : (withSyndrome s r).mem = s.mem := by unfold withSyndrome; simp

@[simp] theorem lifeUp_mem (s : State) (k n : ℕ) : (lifeUp s k n).mem = s.mem := by
  unfold lifeUp
  dsimp only
  split <;> simp

@[simp] theorem countUp_mem (s : State) (kind unit num n : ℕ) : (countUp s kind unit num n).mem = s.mem := (countUp_only ..).mem

@[simp] theorem sweepEpochs_mem (s : State) : (sweepEpochs s).mem = s.mem := by unfold sweepEpochs; simp

@[simp] theorem notify_mem (s : State) (n : Notice) : (notify s n).mem = s.mem := by
  unfold notify
  (repeat' split) <;> simp

@[simp] theorem addLoss_mem (s : State) (ctx : ℕ) (status : W16) (core : ℕ) (station : W32) (addr : W64) (logged : Bool) :
    (addLoss s ctx status core station addr logged).mem = s.mem := by
  unfold addLoss
  split <;> simp

@[simp] theorem lose_mem (s : State) (ctx : ℕ) (status : W16) (core : ℕ) (station : W32) (addr : W64) :
    (lose s ctx status core station addr).mem = s.mem := by unfold lose; simp

@[simp] theorem loseCtx_mem (s : State) (ctx : ℕ) (status : W16) (addr : ℕ) : (loseCtx s ctx status addr).mem = s.mem := by unfold loseCtx; simp

@[simp] theorem chargePart_mem (s : State) (part pa n : ℕ) : (chargePart s part pa n).mem = s.mem := by
  unfold chargePart
  split <;> simp

@[simp] theorem charge_mem (s : State) (core pa n : ℕ) : (charge s core pa n).mem = s.mem := by
  unfold charge
  (repeat' split) <;> simp

@[simp] theorem addHeat_mem (s : State) (h pa : ℕ) : (addHeat s h pa).mem = s.mem := by
  unfold addHeat
  split <;> simp

@[simp] theorem startFill_mem (s : State) (h l : ℕ) (way : ℕ × Option CLine) (first : ℕ) (joined : List Joined) (dirty : Bool) :
    (startFill s h l way first joined dirty).mem = s.mem := by
  unfold startFill
  (repeat' split) <;> simp

@[simp] theorem installWhole_mem (s : State) (h l : ℕ) (way : ℕ × Option CLine) (dirty : Bool) : (installWhole s h l way dirty).mem = s.mem := by
  unfold installWhole
  split <;> simp

@[simp] theorem dropLine_mem (s : State) (h l : ℕ) : (dropLine s h l).mem = s.mem := by
  unfold dropLine
  dsimp only
  split <;> simp

@[simp] theorem touchLine_mem (s : State) (h l : ℕ) (dirty : Bool) : (touchLine s h l dirty).mem = s.mem := by
  unfold touchLine
  dsimp only
  split <;> simp

@[simp] theorem missNotice_mem (s : State) (cls : RClass) (core l : ℕ) : (missNotice s cls core l).mem = s.mem := by
  unfold missNotice
  split <;> simp

@[simp] theorem homeRead_mem (s : State) (cls : RClass) (core attr pa : ℕ) : (homeRead s cls core attr pa).mem = s.mem := by
  unfold homeRead
  dsimp only
  (repeat' split) <;> simp

@[simp] theorem writeMiss_mem (s : State) (cls : RClass) (attr pa n : ℕ) : (writeMiss s cls attr pa n).mem = s.mem := by
  unfold writeMiss
  dsimp only
  (repeat' split) <;> simp

@[simp] theorem homeWrite_mem (s : State) (cls : RClass) (attr pa n : ℕ) : (homeWrite s cls attr pa n).mem = s.mem := by
  unfold homeWrite
  dsimp only
  (repeat' split) <;> simp

@[simp] theorem send_mem (s : State) (m : Msg) : (send s m).mem = s.mem := by unfold send; simp

@[simp] theorem State.markDir_mem (s : State) (l : ℕ) (d : DirEntry) : (State.markDir s l d).mem = s.mem := by unfold State.markDir; simp

@[simp] theorem homeCall_mem (s : State) (l : ℕ) (write : Bool) : (homeCall s l write).mem = s.mem := by
  unfold homeCall
  dsimp only
  (repeat' split) <;> simp

@[simp] theorem claimLine_mem (s : State) (l : ℕ) (write : Bool) : (claimLine s l write).1.mem = s.mem := by
  unfold claimLine
  split <;> simp

@[simp] theorem claimRange_mem (s : State) (pa n : ℕ) (write : Bool) :
    (claimRange s pa n write).1.mem = s.mem := foldl_fst_mem _ _ _ fun _ _ => claimLine_mem ..

@[simp] theorem walkInstall_mem (s : State) (e : WalkEntry) : (walkInstall s e).mem = s.mem := by
  unfold walkInstall
  dsimp only
  (repeat' split) <;> simp

@[simp] theorem walkerFrom_mem (s0 : State) (hall ctx v : ℕ) (a0 : List ℕ) (a1 : ℕ) :
    (walkerFrom s0 hall ctx v a0 a1).1.mem = s0.mem := (walkerFrom_only ..).mem

@[simp] theorem walker_mem (s : State) (st : TlbStruct) (ctx v : ℕ) : (walker s st ctx v).1.mem = s.mem := (walker_only ..).mem

@[simp] theorem tlbInstall_mem (s : State) (st : TlbStruct) (fetch : Bool) (e : TlbEntry) : (tlbInstall s st fetch e).mem = s.mem := by
  unfold tlbInstall
  dsimp only
  (repeat' split) <;> simp

@[simp] theorem tlbFill_mem (s : State) (st : TlbStruct) (fetch : Bool) (ctx v level : ℕ) (e : W64) :
    (tlbFill s st fetch ctx v level e).mem = s.mem := by
  unfold tlbFill
  dsimp only
  (repeat' split) <;> simp

@[simp] theorem loseBy_mem (s : State) (u : BitVec 8 × BitVec 8 × W16) (ctx : ℕ) (status : W16) (v : ℕ) :
    (loseBy s u ctx status v).mem = s.mem := by
  unfold loseBy
  (repeat' split) <;> simp

@[simp] theorem tableMalformed_mem (s : State) (ctx pa : ℕ) : (tableMalformed s ctx pa).mem = s.mem := by unfold tableMalformed; simp

@[simp] theorem translate_mem (s : State) (st : TlbStruct) (fetch : Bool) (ctx v : ℕ) (need : Need) :
    (translate s st fetch ctx v need).1.mem = s.mem := (translate_only ..).mem

@[simp] theorem queueEvent_mem (s : State) (ctx : ℕ) (bell : Bool) (tag : ℕ) (payload : List Byte) :
    (queueEvent s ctx bell tag payload).mem = s.mem := by
  unfold queueEvent
  (repeat' split) <;> simp

@[simp] theorem State.setWatch_mem (s : State) (w : ℕ) (a0 : Watch) : (State.setWatch s w a0).mem = s.mem := by unfold State.setWatch; simp

@[simp] theorem freeWatch_mem (s : State) (w : ℕ) : (freeWatch s w).mem = s.mem := by unfold freeWatch; simp

@[simp] theorem fire_mem (s0 : State) (w : ℕ) (status : W16) : (fire s0 w status).mem = s0.mem := by
  unfold fire
  dsimp only
  split <;> simp

@[simp] theorem evalWatches_mem (s : State) (n : ℕ) : (evalWatches s n).mem = s.mem := foldl_mem _ _ _ fun _ _ => by split <;> simp

@[simp] theorem tallyApply_mem (s : State) (n : ℕ) (op : TallyOp) (v : ℕ) : (tallyApply s n op v).mem = s.mem := by
  unfold tallyApply
  dsimp only
  split <;> simp

@[simp] theorem raiseTally_mem (s : State) (ctx h v : ℕ) : (raiseTally s ctx h v).mem = s.mem := by
  unfold raiseTally
  (repeat' split) <;> simp

@[simp] theorem fireAll_mem (s : State) (n : ℕ) (f : Watch → Bool) (status : W16) :
    (fireAll s n f status).mem = s.mem := foldl_mem _ _ _ fun _ _ => by split <;> simp

@[simp] theorem abandon_mem (s : State) (n : ℕ) : (abandon s n).mem = s.mem := by unfold abandon; simp

@[simp] theorem poolTally_mem (s : State) (n : ℕ) : (poolTally s n).mem = s.mem := by
  unfold poolTally
  dsimp only
  split <;> simp

@[simp] theorem register_mem (s : State) (n ctx threshold : ℕ) (eq : Bool) (rcv : Receiver) (arg : W32) :
    (register s n ctx threshold eq rcv arg).1.mem = s.mem := by
  unfold register
  dsimp only
  (repeat' split) <;> simp

@[simp] theorem tallyDeath_mem (s : State) (ctx : ℕ) : (tallyDeath s ctx).mem = s.mem := by unfold tallyDeath; simp

@[simp] theorem dropParked_mem (s : State) (p : Parked) : (dropParked s p).mem = s.mem := by unfold dropParked; simp

@[simp] theorem fetch_mem (s : State) (g : Grp) (k : Group) (n : ℕ) : (fetch s g k n).1.mem = s.mem := (fetch_only ..).mem

@[simp] theorem enterRunAhead_mem (g : Grp) (s : State) : (enterRunAhead g s).mem = s.mem := by
  unfold enterRunAhead
  (repeat' split) <;> simp

@[simp] theorem stallAt_mem (s : State) (g : Grp) (regs : List ℕ) : (stallAt s g regs).mem = s.mem := by unfold stallAt; simp

@[simp] theorem laneAccess_mem (s : State) (g : Grp) (k : Group) (need : Need) (n : ℕ) (attr : W64 → ℕ → Bool) (i v : ℕ) :
    (laneAccess s g k need n attr i v).1.mem = s.mem := (laneAccess_only ..).mem

@[simp] theorem lanesAccess_mem (s : State) (g : Grp) (k : Group) (need : Need) (n : ℕ) (attr : W64 → ℕ → Bool) (as : List (ℕ × ℕ)) :
    (lanesAccess s g k need n attr as).1.mem = s.mem := (lanesAccess_only ..).mem

@[simp] theorem evictLine_mem (s : State) (c l : ℕ) : (evictLine s c l).mem = s.mem := by
  unfold evictLine
  (repeat' split) <;> simp

@[simp] theorem requestLine_mem (s : State) (c l : ℕ) (excl wt : Bool) : (requestLine s c l excl wt).mem = s.mem := by
  unfold requestLine
  split <;> simp

@[simp] theorem prefetchLine_mem (s : State) (c l : ℕ) : (prefetchLine s c l).mem = s.mem := by
  unfold prefetchLine
  split <;> simp

@[simp] theorem pendLoad_mem (s : State) (g : Grp) (k : Group) (f : MWord) (scalar : Bool) (as : List (ℕ × ℕ × ℕ × W64))
    (fw : List Host.Cell) (ls : List (ℕ × Bool)) : (pendLoad s g k f scalar as fw ls).mem = s.mem := by unfold pendLoad; simp

@[simp] theorem readHomes_mem (s : State) (c : ℕ) (as : List (ℕ × ℕ × ℕ × W64)) (n : ℕ) : (readHomes s c as n).1.mem = s.mem := by
  unfold readHomes
  split
  next s1 ok heq =>
    have e : s1.mem = s.mem := mem_of_eq heq (foldl_fst_mem _ _ _ fun _ _ => claimRange_mem ..)
    split
    · simpa using e
    · exact e

@[simp] theorem demandRead_mem (s : State) (c : ℕ) (ls : List ℕ) : (demandRead s c ls).mem = s.mem := by
  unfold demandRead
  dsimp only
  split <;> simp

@[simp] theorem prefetchAddr_mem (s : State) (g : Grp) (ctx v n : ℕ) : (prefetchAddr s g ctx v n).1.mem = s.mem := by
  unfold prefetchAddr
  dsimp only
  (repeat' split) <;> simp

@[simp] theorem aheadFetch_mem (s : State) (c l : ℕ) : (aheadFetch s c l).mem = s.mem := by
  unfold aheadFetch
  split <;> simp

@[simp] theorem aheadAddr_mem (s : State) (g : Grp) (ctx v n : ℕ) : (aheadAddr s g ctx v n).1.mem = s.mem := by
  unfold aheadAddr
  split
  next heq => simpa using mem_of_eq heq (prefetchAddr_mem ..)
  · simp

@[simp] theorem loadPf_mem (f : MWord) (scalar : Bool) (s : State) (g : Grp) (gg : Group) (act : W32) :
    (loadPf f scalar s g gg act).1.mem = s.mem := by
  unfold loadPf
  dsimp only
  (repeat' split) <;> exact foldl_fst_mem _ _ _ fun _ _ => by split <;> simp

@[simp] theorem atomL1Lanes_mem (g : Grp) (f : MWord) (a0 : W64) (k : Group) (as : List (ℕ × ℕ × ℕ × W64)) (s : State) :
    (atomL1Lanes g f a0 k as s).1.mem = s.mem := foldl_fst_mem _ _ _ fun _ _ => rfl

@[simp] theorem larderPf_mem (body : State → Group → W32 → Res) (s : State) (g : Grp) (gg : Group) (act : W32) :
    (larderPf body s g gg act).1.mem = s.mem := by
  unfold larderPf
  split <;> simp

@[simp] theorem countConflicts_mem (s : State) (c : ℕ) (as : List (ℕ × ℕ × ℕ × W64)) :
    (countConflicts s c as).mem = s.mem := by unfold countConflicts; simp

@[simp] theorem parkLoss_mem (s : State) (g : Grp) (k : Group) (p : ParkReq) : (parkLoss s g k p).mem = s.mem := by
  unfold parkLoss
  split <;> simp

@[simp] theorem deliverBell_mem (s : State) (st i ix w : ℕ) (status : W16) : (deliverBell s st i ix w status).mem = s.mem := by
  unfold deliverBell
  (repeat' split) <;> simp

@[simp] theorem stopQueue_mem (s : State) (qi : ℕ) (status : W16) : (stopQueue s qi status).mem = s.mem := by
  unfold stopQueue
  (repeat' split) <;> simp

@[simp] theorem announceTail_mem (s : State) (qi t : ℕ) : (announceTail s qi t).mem = s.mem := by
  unfold announceTail
  dsimp only
  (repeat' split) <;> simp

@[simp] theorem dropEntry_mem (s : State) (c i : ℕ) : (dropEntry s c i).mem = s.mem := by unfold dropEntry; simp

@[simp] theorem storeFault_mem (s : State) (c i : ℕ) (e : SbEntry) (status : W16) :
    (storeFault s c i e status).mem = s.mem := by unfold storeFault; simp

@[simp] theorem awaitAck_mem (s : State) (c : ℕ) (e : SbEntry) : (awaitAck s c e).mem = s.mem := by unfold awaitAck; simp

@[simp] theorem lateAck_mem (s : State) (g : Grp) (req : ℕ) : (lateAck s g req).mem = s.mem := by
  unfold lateAck
  split <;> simp

@[simp] theorem discard_mem (s : State) (g : Grp) (k : Group) (w : Awaited) : (discard s g k w).mem = s.mem := by unfold discard; simp

@[simp] theorem claimPiece_mem (s : State) (need : Need) (pa n : ℕ) : (claimPiece s need pa n).1.mem = s.mem := by
  unfold claimPiece
  split
  next heq => exact mem_of_eq heq (claimRange_mem ..)
  next heq => exact mem_of_eq heq (claimRange_mem ..)

@[simp] theorem reachPiece_mem (s : State) (st : TlbStruct) (ctx : ℕ) (need : Need) (v n : ℕ) :
    (reachPiece s st ctx need v n).1.mem = s.mem := by
  unfold reachPiece
  split
  next heq => exact mem_of_eq heq (translate_mem ..)
  next heq => exact mem_of_eq heq (translate_mem ..)
  next heq =>
    have e := mem_of_eq heq (translate_mem ..)
    (repeat' split) <;> simpa using e

@[simp] theorem reachPieces_mem (s : State) (st : TlbStruct) (ctx : ℕ) (need : Need) (ps : List (ℕ × ℕ)) :
    (reachPieces s st ctx need ps).1.mem = s.mem := foldl_fst_mem _ _ _ fun _ _ => by
  split
  · rfl
  · exact reachPiece_mem ..

@[simp] theorem seePiece_mem (st : TlbStruct) (ctx : ℕ) (need : Need) (s : State) (p : ℕ × ℕ) : (seePiece st ctx need s p).mem = s.mem := by
  unfold seePiece
  (repeat' split) <;> simp

@[simp] theorem reach_mem (s : State) (st : TlbStruct) (ctx : ℕ) (need : Need) (ss : List (ℕ × ℕ)) : (reach s st ctx need ss).1.mem = s.mem := by
  unfold reach
  dsimp only
  split
  next heq => simpa using mem_of_eq heq (reachPieces_mem ..)
  · exact reachPieces_mem ..

@[simp] theorem unitReach_mem (s : State) (c ctx : ℕ) (larder : Bool) (need : Need) (ss : List (ℕ × ℕ)) :
    (unitReach s c ctx larder need ss).1.mem = s.mem := by
  unfold unitReach
  split <;> simp

@[simp] theorem readDesc_mem (s : State) (g : Grp) (k : Group) (v : ℕ) : (readDesc s g k v).1.mem = s.mem := by
  unfold readDesc
  split
  next heq => exact mem_of_eq heq (translate_mem ..)
  next heq => exact mem_of_eq heq (translate_mem ..)
  next heq =>
    have e := mem_of_eq heq (translate_mem ..)
    dsimp only
    repeat' split
    any_goals exact e
    next heq => exact (mem_of_eq heq (claimRange_mem ..)).trans e
    next heq => simpa using (mem_of_eq heq (claimRange_mem ..)).trans e

@[simp] theorem readDescs_mem (g : Grp) (k : Group) (invalid : Res) (a0 : State) (a1 : List ℕ) :
    (readDescs g k invalid a0 a1).1.mem = a0.mem := by
  induction a1 generalizing a0 with
  | nil => rfl
  | cons v vs ih =>
    unfold readDescs
    split
    · rfl
    · split
      next heq => exact mem_of_eq heq (readDesc_mem ..)
      next heq =>
        have e := mem_of_eq heq (readDesc_mem ..)
        split
        next heq => exact (mem_of_eq heq (ih _)).trans e
        next heq => exact (mem_of_eq heq (ih _)).trans e

@[simp] theorem deliverWord_mem (s : State) (g : Grp) (ctx gen : ℕ) (dst : BitVec 9) (w : W64) :
    (deliverWord s g ctx gen dst w).mem = s.mem := by
  unfold deliverWord
  split <;> simp

@[simp] theorem unitFault_mem (s : State) (g : Grp) (ctx gen : ℕ) (status : W16) (pc : VAddr) :
    (unitFault s g ctx gen status pc).mem = s.mem := by
  unfold unitFault
  split <;> simp

@[simp] theorem millReach_mem (s : State) (c : ℕ) (o : MillOp) (start : Bool) : (millReach s c o start).1.mem = s.mem := by
  unfold millReach
  extract_lets st bt ot out g held lane
  split
  · rfl
  split
  · rfl
  split
  next heq =>
    have e := mem_of_eq heq (unitReach_mem ..)
    split
    next heq => simpa using (mem_of_eq heq (unitReach_mem ..)).trans e
    next heq => simpa using e
  · exact unitReach_mem ..

@[simp] theorem endMillOp_mem (s : State) (c : ℕ) (o : MillOp) (w : W64) : (endMillOp s c o w).mem = s.mem := by unfold endMillOp; simp

@[simp] theorem cancelMill_mem (s : State) (c : ℕ) (o : MillOp) : (cancelMill s c o).mem = s.mem := by unfold cancelMill; simp

@[simp] theorem abortMill_mem (s : State) (ctx : ℕ) : (abortMill s ctx).mem = s.mem := by unfold abortMill; simp

@[simp] theorem endSieveOp_mem (s : State) (c : ℕ) (o : SieveOp) (w : W64) : (endSieveOp s c o w).mem = s.mem := by unfold endSieveOp; simp

@[simp] theorem cancelSieve_mem (s : State) (c : ℕ) (o : SieveOp) : (cancelSieve s c o).mem = s.mem := by unfold cancelSieve; simp

@[simp] theorem poisonSector_mem (s : State) (pa : ℕ) : (poisonSector s pa).mem = s.mem := by
  unfold poisonSector
  dsimp only
  (repeat' split) <;> simp

@[simp] theorem eccOutcome_mem (s : State) (pa : ℕ) (store : BitVec 8 × BitVec 8 × W16 × ℕ) (ecc : Ecc) :
    (eccOutcome s pa store ecc).mem = s.mem := by
  unfold eccOutcome
  dsimp only
  (repeat' split) <;> simp

@[simp] theorem rejectRequest_mem (s : State) (cls : RClass) (core ctx pa : ℕ) (st : W16) :
    (rejectRequest s cls core ctx pa st).mem = s.mem := by
  unfold rejectRequest
  (repeat' split) <;> simp

@[simp] theorem answerRead_mem (s : State) (core ctx pa : ℕ) : (answerRead s core ctx pa).mem = s.mem := by unfold answerRead; simp

@[simp] theorem joinFill_mem (s : State) (h l : ℕ) (j : Joined) (wb : Bool) : (joinFill s h l j wb).mem = s.mem := by unfold joinFill; simp

@[simp] theorem readMiss_mem (s : State) (cls : RClass) (core ctx h pa : ℕ) (alloc : Bool) (ecc : Ecc) :
    (readMiss s cls core ctx h pa alloc ecc).mem = s.mem := by
  unfold readMiss
  dsimp only
  (repeat' split) <;> simp

@[simp] theorem fillDone_mem (s : State) (h : ℕ) (f : Fill) : (fillDone s h f).mem = s.mem := by
  unfold fillDone
  dsimp only
  split <;> simp

@[simp] theorem State.stirUnit_mem (s : State) (u : GateUnit) : (State.stirUnit s u).mem = s.mem := by unfold State.stirUnit; simp

@[simp] theorem sealUnit_mem (s : State) (u : GateUnit) : (sealUnit s u).mem = s.mem := by
  unfold sealUnit
  split <;> simp

@[simp] theorem gateEvent_mem (s : State) (u : GateUnit) : (gateEvent s u).mem = s.mem := by
  unfold gateEvent
  split <;> simp

@[simp] theorem refuseWord_mem (s : State) (ctx : ℕ) (status : W16) (e : ℕ) :
    (refuseWord s ctx status e).mem = s.mem := by unfold refuseWord; simp

@[simp] theorem lastStatus_mem (s : State) (ctx e : ℕ) (status : W16) : (lastStatus s ctx e status).mem = s.mem := by
  unfold lastStatus
  split <;> simp

@[simp] theorem refuseCmd_mem (s : State) (p ctx : ℕ) (w : W64) (status : W16) :
    (refuseCmd s p ctx w status).mem = s.mem := by unfold refuseCmd; simp

theorem headStore_mem (s : State) (p : ℕ) {r : EpochStore × State} (hr : headStore s p = some r) : r.2.mem = s.mem := by
  unfold headStore at hr
  split at hr
  · cases hr
  · cases hr; rfl

@[simp] theorem closeEpoch_mem (s : State) (part : ℕ) (a0 : EpochStore) (commit : Bool) :
    (closeEpoch s part a0 commit).mem = s.mem := by unfold closeEpoch; simp

@[simp] theorem voidLines_mem (s : State) (h : ℕ) (es : List ℕ) : (voidLines s h es).mem = s.mem := by unfold voidLines; simp

@[simp] theorem relabel_mem (s : State) (h e : ℕ) (tag : PoolTag) : (relabel s h e tag).mem = s.mem := by unfold relabel; simp

@[simp] theorem finishEpoch_mem (s : State) (e : ℕ) (c : EpochCmd) : (finishEpoch s e c).mem = s.mem := by
  unfold finishEpoch
  dsimp only
  (repeat' split) <;> simp

@[simp] theorem discardEpochs_mem (s : State) (ctx : ℕ) : (discardEpochs s ctx).mem = s.mem := by
  unfold discardEpochs
  dsimp only
  rw [sweepEpochs_mem]
  refine (foldl_mem _ _ _ fun _ _ => ?_).trans (foldl_mem _ _ _ fun _ _ => voidLines_mem ..)
  split <;> simp

@[simp] theorem startShoot_mem (s : State) (asid lo hi : ℕ) (after : After) :
    (startShoot s asid lo hi after).mem = s.mem := by unfold startShoot; simp

@[simp] theorem dropTlb_mem (s : State) (st : TlbStruct) (asid lo hi : ℕ) : (dropTlb s st asid lo hi).mem = s.mem := by unfold dropTlb; simp

@[simp] theorem parkTentative_mem (s : State) (c asid lo hi : ℕ) :
    (parkTentative s c asid lo hi).mem = s.mem := foldl_mem _ _ _ fun _ _ => by dsimp only; (repeat' split) <;> simp

@[simp] theorem State.setSession_mem (s : State) (a0 : Session) : (State.setSession s a0).mem = s.mem := by unfold State.setSession; simp

@[simp] theorem portCount_mem (s : State) (n : ℕ) : (portCount s n).mem = s.mem := by unfold portCount; simp

@[simp] theorem wire_mem (s : State) (o : Out) : (wire s o).mem = s.mem := by unfold wire; simp

@[simp] theorem wireFrame_mem (s : State) (typ : BitVec 8) (retx resp : Bool) (session seq ack : W32) (time : ℕ) (payload : List Byte) :
    (wireFrame s typ retx resp session seq ack time payload).mem = s.mem := by unfold wireFrame; simp

@[simp] theorem emitFrame_mem (s : State) (a0 : Session) (typ : BitVec 8) (retx resp : Bool) (seq : W32) (time : ℕ) (payload : List Byte) :
    (emitFrame s a0 typ retx resp seq time payload).mem = s.mem := by unfold emitFrame; simp

@[simp] theorem pump_mem (s : State) : (pump s).mem = s.mem := by
  unfold pump
  split
  · rfl
  · refine foldl_mem _ _ _ fun _ _ => ?_
    dsimp only
    (repeat' split) <;> simp

@[simp] theorem pushTx_mem (s : State) (typ : BitVec 8) (resp : Bool) (payload : List Byte) (ctx : Option ℕ) (time : ℕ) :
    (pushTx s typ resp payload ctx time).mem = s.mem := by
  unfold pushTx
  split <;> simp

@[simp] theorem emitBare_mem (s : State) (typ : BitVec 8) (payload : List Byte) :
    (emitBare s typ payload).mem = s.mem := by unfold emitBare; simp

@[simp] theorem sendPlain_mem (s : State) (typ : BitVec 8) (payload : List Byte) : (sendPlain s typ payload).mem = s.mem := by
  unfold sendPlain
  (repeat' split) <;> simp

@[simp] theorem creditsSent_mem (s : State) (bs : List Binding) : (creditsSent s bs).mem = s.mem := by unfold creditsSent; simp

@[simp] theorem sendAck_mem (s : State) : (sendAck s).mem = s.mem := by
  unfold sendAck
  (repeat' split) <;> simp

@[simp] theorem endSession_mem (s : State) : (endSession s).mem = s.mem := by
  unfold endSession
  split <;> simp

@[simp] theorem resetSession_mem (s : State) (status : W16) : (resetSession s status).mem = s.mem := by unfold resetSession; simp

@[simp] theorem sendNack_mem (s : State) (f : Frame) (code detail : W16) : (sendNack s f code detail).mem = s.mem := by
  unfold sendNack
  split <;> simp

@[simp] theorem violate_mem (s : State) (code : W16) : (violate s code).mem = s.mem := by
  unfold violate
  dsimp only
  split <;> simp

@[simp] theorem sendMail_mem (s : State) (mb : ℕ) (m : List Byte) : (sendMail s mb m).mem = s.mem := by unfold sendMail; simp

@[simp] theorem answer_mem (s : State) (mb : ℕ) (req : List Byte) (gen : ℕ) (status : W16) (payload : List Byte) :
    (answer s mb req gen status payload).mem = s.mem := by unfold answer; simp

@[simp] theorem respondGen_mem (s : State) (mb gen : ℕ) (status : W16) (payload : List Byte) :
    (respondGen s mb gen status payload).mem = s.mem := by
  unfold respondGen
  (repeat' split) <;> simp

@[simp] theorem respond_mem (s : State) (mb : ℕ) (status : W16) (payload : List Byte) :
    (respond s mb status payload).mem = s.mem := by unfold respond; simp

@[simp] theorem respondLate_mem (s : State) (ticket : ℕ) (status : W16) (payload : List Byte) :
    (respondLate s ticket status payload).mem = s.mem := by
  unfold respondLate
  split <;> simp

@[simp] theorem haltQueues_mem (s : State) (ctx : ℕ) (status : W16) : (haltQueues s ctx status).mem = s.mem := by unfold haltQueues; simp

@[simp] theorem rasNotice_mem (s : State) (p : ℕ) (status : W16) (addr : ℕ) :
    (rasNotice s p status addr).mem = s.mem := by unfold rasNotice; simp

@[simp] theorem takeMsg_mem (s : State) (m : Msg) : (takeMsg s m).mem = s.mem := by unfold takeMsg; simp

@[simp] theorem recallVictim_mem (s : State) (l : ℕ) : (recallVictim s l).mem = s.mem := by
  unfold recallVictim
  (repeat' split) <;> simp

@[simp] theorem homeData_memory (s : State) (m : Msg) (core : ℕ) : (homeData s m core).mem = s.mem := homeData_mem ..

@[simp] theorem forgetMiss_mem (s : State) (core line : ℕ) : (forgetMiss s core line).mem = s.mem := by unfold forgetMiss; simp

@[simp] theorem rejectMiss_mem (s : State) (core line : ℕ) (excl : Bool) (st : W16) :
    (rejectMiss s core line excl st).mem = s.mem := by unfold rejectMiss; simp

@[simp] theorem inFlight_mem (s : State) (core line : ℕ) : (inFlight s core line).mem = s.mem := by unfold inFlight; simp

@[simp] theorem completeMiss_mem (s : State) (core line : ℕ) : (completeMiss s core line).mem = s.mem := by
  unfold completeMiss
  dsimp only
  (repeat' split) <;> simp

@[simp] theorem freeExtent_mem (s : State) (base : ℕ) : (freeExtent s base).mem = s.mem := by unfold freeExtent; simp

@[simp] theorem measure_mem (s : State) (kind part code : ℕ) (digest : BitVec 256) : (measure s kind part code digest).mem = s.mem := by
  unfold measure
  rfl

@[simp] theorem measureRecord_mem (s : State) (kind part code : ℕ) (r : List Byte) :
    (measureRecord s kind part code r).mem = s.mem := by unfold measureRecord; simp

@[simp] theorem resetRegs_mem (s : State) (p : ℕ) : (resetRegs s p).mem = s.mem := by unfold resetRegs; simp

@[simp] theorem dropRegs_mem (s : State) (p : ℕ) : (dropRegs s p).mem = s.mem := by unfold dropRegs; simp

@[simp] theorem saveParts_mem (s : State) : (saveParts s).mem = s.mem := by unfold saveParts; simp

@[simp] theorem policyAccess_mem (s : State) (p rec rw res : ℕ) (v : W64) (field : W16) :
    (policyAccess s p rec rw res v field).1.mem = s.mem := by
  unfold policyAccess
  dsimp only
  (repeat' split) <;> simp

@[simp] theorem takeMessage_mem (s : State) (mb : ℕ) (msg : List Byte) : (takeMessage s mb msg).mem = s.mem := by
  unfold takeMessage
  (repeat' split) <;> simp

@[simp] theorem beginWait_mem (s : State) (mb : ℕ) : (beginWait s mb).mem = s.mem := by
  unfold beginWait
  split <;> simp

@[simp] theorem allotEpochs_mem (s : State) (ctx : ℕ) (es : List ℕ) : (allotEpochs s ctx es).mem = s.mem := by unfold allotEpochs; simp

/-- What `takeGen` leaves after it has drawn a new range of generations from the lifetime counter. -/
theorem drawnGen_mem (u : State) (c v : Life) : (fun r : State × ℕ => r.1.mem = u.mem)
    (let s2 := { u with flash := { u.flash with life := tset Life.reset u.flash.life 4 v } }
    ({ s2 with genNext := c.value + 1, genEnd := v.value }, c.value)) := rfl

theorem takeGen_mem (s : State) {r : State × ℕ} (hr : takeGen s = some r) : r.1.mem = s.mem := by
  have e := lifeUp_mem s 4 (2 ^ 20)
  unfold takeGen at hr
  by_cases h : s.genNext < s.genEnd
  · rw [if_pos h] at hr
    rw [← Option.some.inj hr]
  · rw [if_neg h, ite_eq_iff] at hr
    generalize lifeUp s 4 (2 ^ 20) = u at e hr
    obtain ⟨-, hr⟩ | ⟨-, hr⟩ := hr
    · cases hr
    · rw [← e]
      exact Option.some.inj hr ▸ drawnGen_mem u _ _

@[simp] theorem addObj_mem (s : State) (i : ℕ) (o : Obj) : (addObj s i o).1.mem = s.mem := by unfold addObj; simp

@[simp] theorem freeObj_mem (s : State) (n : ℕ) (o : Obj) : (freeObj s n o).mem = s.mem := by unfold freeObj; simp

@[simp] theorem dropRef_mem (s : State) (c n : ℕ) : (dropRef s c n).mem = s.mem := by
  unfold dropRef
  dsimp only
  (repeat' split) <;> simp

@[simp] theorem freeRefGroups_mem (s : State) : (freeRefGroups s).mem = s.mem := by unfold freeRefGroups; simp

@[simp] theorem State.setQueue_mem (s : State) (n : ℕ) (q : Queue) : (State.setQueue s n q).mem = s.mem := by unfold State.setQueue; simp

@[simp] theorem abortEntries_mem (s : State) (q : Queue) : (abortEntries s q).mem = s.mem := foldl_mem _ _ _ fun _ _ => by split <;> simp

@[simp] theorem cancelWait_mem (s : State) (qi : ℕ) : (cancelWait s qi).mem = s.mem := foldl_mem _ _ _ fun _ _ => by dsimp only; split <;> simp

@[simp] theorem dmaReach_mem (s : State) (st : TlbStruct) (ctx : ℕ) (need : Need) (v : ℕ) : (dmaReach s st ctx need v).1.mem = s.mem := by
  unfold dmaReach
  split
  next heq => exact mem_of_eq heq (translate_mem ..)
  next heq => exact mem_of_eq heq (translate_mem ..)
  next heq =>
    have e := mem_of_eq heq (translate_mem ..)
    (repeat' split) <;> simpa using e

@[simp] theorem DmaSide.reach_mem (s : State) (st : TlbStruct) (ctx : ℕ) (need : Need) (off : ℕ) (a0 : DmaSide) :
    (DmaSide.reach s st ctx need off a0).1.mem = s.mem := by cases a0 <;> simp [DmaSide.reach]

@[simp] theorem carryPoison_mem (s : State) (e : Option ℕ) (pa : ℕ) : (carryPoison s e pa).mem = s.mem := by
  unfold carryPoison
  split <;> simp

@[simp] theorem reachAll_mem (s : State) (st : TlbStruct) (ctx len : ℕ) (src dst : DmaSide) :
    (reachAll s st ctx len src dst).1.mem = s.mem := foldl_fst_mem _ _ _ fun r x => by
  split
  · rfl
  · dsimp only
    split <;> simp

@[simp] theorem DmaSide.see_mem (st : TlbStruct) (ctx : ℕ) (need : Need) (limit : ℕ) (s : State) (a0 : DmaSide) :
    (DmaSide.see st ctx need limit s a0).mem = s.mem := by cases a0 <;> simp [DmaSide.see]

@[simp] theorem partBytes_mem (s : State) (st : TlbStruct) (ctx : ℕ) (src dst : DmaSide) (len off n : ℕ) :
    (partBytes s st ctx src dst len off n).1.mem = s.mem := by
  unfold partBytes
  dsimp only
  (repeat' split) <;> simp

@[simp] theorem registerWait_mem (s : State) (qi : ℕ) (q : Queue) (e : List Byte) : (registerWait s qi q e).1.mem = s.mem := by
  unfold registerWait
  split <;> simp

@[simp] theorem logBell_mem (s : State) (ctx : ℕ) (b : BellRec) : (logBell s ctx b).mem = s.mem := by unfold logBell; simp

@[simp] theorem refuse_mem (s : State) (f : Frame) (code detail : W16) : (refuse s f code detail).mem = s.mem := by
  unfold refuse
  (repeat' split) <;> simp

@[simp] theorem acked_mem (s : State) (a0 : Session) (a : W32) : (acked s a0 a).mem = s.mem := by unfold acked; simp

@[simp] theorem takeSack_mem (s : State) (f : Frame) : (takeSack s f).mem = s.mem := by
  unfold takeSack
  dsimp only
  (repeat' split) <;> simp

@[simp] theorem takeAck_mem (s : State) (f : Frame) : (takeAck s f).mem = s.mem := by
  unfold takeAck
  dsimp only
  (repeat' split) <;> simp

@[simp] theorem resendOne_mem (s : State) (g : TxFrame) : (resendOne s g).mem = s.mem := by
  unfold resendOne
  (repeat' split) <;> simp

@[simp] theorem resendRange_mem (s : State) (first last : W32) : (resendRange s first last).mem = s.mem := by
  unfold resendRange
  split <;> simp

@[simp] theorem openSession_mem (s : State) (f : Frame) : (openSession s f).mem = s.mem := by
  unfold openSession
  dsimp only
  (repeat' split) <;> simp

theorem closeSession_mem (s : State) (a0 : Session) (seq : W32) {r : State} (hr : closeSession s a0 seq = some r) : r.mem = s.mem := by
  unfold closeSession at hr
  split at hr
  · cases hr
  · cases hr; simp

@[simp] theorem pageCheck_mem (s : State) (ctx : ℕ) (need : Need) (v n : ℕ) :
    (pageCheck s ctx need v n).1.mem = s.mem := foldl_fst_mem _ _ _ fun _ _ => by
  split
  · rfl
  split
  all_goals
    next heq => exact mem_of_eq heq (translate_mem ..)

@[simp] theorem loseIf_mem (s : State) (ctx : ℕ) (st : W16) (v : ℕ) : (loseIf s ctx st v).mem = s.mem := by
  unfold loseIf
  split <;> simp

@[simp] theorem portClaim_mem (s : State) (ctx : ℕ) (need : Need) (v n : ℕ) : (portClaim s ctx need v n).1.mem = s.mem := by
  have e : ∀ (taken : List (ℕ × ℕ)), (taken.foldl (fun (acc : State × Bool) p => match acc.1.peek .folest ctx p.1 with
      | some (pa, _) => ((claimRange acc.1 pa p.2 (decide (need ≠ .r))).1, acc.2 && (claimRange acc.1 pa p.2 (decide (need ≠ .r))).2)
      | none => acc) (s, true)).1.mem = s.mem := fun taken => foldl_fst_mem _ _ _ fun _ _ => by split <;> simp
  unfold portClaim
  dsimp only
  split
  · exact (foldl_mem _ _ _ fun _ _ => seePiece_mem ..).trans (e _)
  · exact e _

@[simp] theorem acted_mem (s : State) (a0 : Session) (f : Frame) (code detail : W16) : (acted s a0 f code detail).mem = s.mem := by
  unfold acted
  dsimp only
  (repeat' split) <;> simp

@[simp] theorem State.setInst_mem (s : State) (n i : ℕ) (a0 : Inst) : (State.setInst s n i a0).mem = s.mem := by unfold State.setInst; simp

@[simp] theorem chooseCore_mem (s : State) (n : ℕ) (a0 : Station) (i : ℕ) (y : Inst) (gs : ℕ × ℕ) :
    (chooseCore s n a0 i y gs).1.mem = s.mem := by
  unfold chooseCore
  dsimp only
  (repeat' split) <;> simp

@[simp] theorem saveInst_mem (s : State) (n i : ℕ) : (saveInst s n i).mem = s.mem := by
  unfold saveInst
  (repeat' split) <;> simp

@[simp] theorem placeInst_mem (s : State) (n i c base : ℕ) : (placeInst s n i c base).mem = s.mem := by
  unfold placeInst
  (repeat' split) <;> simp

@[simp] theorem strand_mem (s : State) (n i : ℕ) : (strand s n i).mem = s.mem := by
  unfold strand
  (repeat' split) <;> simp

@[simp] theorem loadGroup_mem (s : State) (p : Parked) (g : Grp) : (loadGroup s p g).mem = s.mem := by unfold loadGroup; simp

@[simp] theorem loadInst_mem (s : State) (h i : ℕ) : (loadInst s h i).mem = s.mem := foldl_mem _ _ _ fun _ _ => by (repeat' split) <;> simp

@[simp] theorem addInsts_mem (s : State) (n : ℕ) (a0 : Station) (gen : ℕ) : (addInsts s n a0 gen).mem = s.mem := by unfold addInsts; simp

theorem placeAll_mem (s : State) (n : ℕ) (a0 : Station) {r : State} (hr : placeAll s n a0 = some r) : r.mem = s.mem := by
  refine foldl_bind_mem (fun s i => _) _ s r ?_ hr
  intro s i t ht
  dsimp only at ht
  repeat' split at ht
  any_goals cases ht
  next heq => simpa using mem_of_eq heq (chooseCore_mem ..)

@[simp] theorem State.ownOnly_mem (s : State) (ctx : ℕ) : (State.ownOnly s ctx).mem = s.mem := by unfold State.ownOnly; simp

@[simp] theorem freeStation_mem (s : State) (n : ℕ) (a0 : Station) : (freeStation s n a0).mem = s.mem := by unfold freeStation; simp

@[simp] theorem storeGroups_mem (s : State) (h i : ℕ) : (storeGroups s h i).mem = s.mem := by unfold storeGroups; simp

theorem moveAll_mem (s : State) (ns : List ℕ) (i target : ℕ) {r : State} (hr : moveAll s ns i target = some r) : r.mem = s.mem := by
  refine (foldl_bind_mem (fun s n => _) ns _ r ?_ hr).trans (foldl_mem _ _ _ fun _ _ => saveInst_mem ..)
  intro s n t ht
  beta_reduce at ht
  split at ht
  · split at ht
    · obtain ⟨z, -, rfl⟩ := Option.map_eq_some_iff.1 ht
      simp
    · cases ht
  · cases ht

@[simp] theorem migrate_mem (proposed : Bool) (station inst core : ℕ) (s : State) : (migrate proposed station inst core s).mem = s.mem := by
  have hf : ∀ (l : List ℕ) (g : State → ℕ → State), (∀ s m, (g s m).mem = s.mem) → (l.foldl g s).mem = s.mem := fun l g hg => foldl_mem g l s hg
  unfold migrate
  dsimp only
  split
  · split
    · rfl
    split
    · split
      · split
        next heq => exact moveAll_mem _ _ _ _ heq
        · split
          · rfl
          · exact hf _ _ fun _ _ => by simp
      · rfl
    split
    · split
      next heq => exact (moveAll_mem _ _ _ _ heq).trans (hf _ _ fun _ _ => by split <;> simp)
      · rfl
    · rfl
  · rfl

@[simp] theorem placedNotice_mem (s : State) (a0 : Station) (h inst : ℕ) : (placedNotice s a0 h inst).mem = s.mem := by unfold placedNotice; simp

@[simp] theorem beginEvict_mem (s : State) (ctx : ℕ) : (beginEvict s ctx).mem = s.mem := by unfold beginEvict; simp

@[simp] theorem returnInst_mem (s : State) (a0 : ℕ × ℕ) : (returnInst s a0).mem = s.mem := by
  unfold returnInst
  split
  · split
    · rfl
    split
    next heq =>
      have e := mem_of_eq heq (chooseCore_mem ..)
      dsimp only
      split <;> simpa using e
    next heq => simpa using mem_of_eq heq (chooseCore_mem ..)
  · rfl

@[simp] theorem lossEvent_mem (s : State) (l : Loss) (first : Bool) : (lossEvent s l first).mem = s.mem := by
  unfold lossEvent
  (repeat' split) <;> simp

@[simp] theorem stopCommands_mem (s : State) (ctx : ℕ) : (stopCommands s ctx).mem = s.mem := by unfold stopCommands; simp

@[simp] theorem callPage_mem (s : State) (base size : ℕ) : (callPage s base size).mem = s.mem := by unfold callPage; simp

@[simp] theorem dropPage_mem (s : State) (base size : ℕ) : (dropPage s base size).mem = s.mem := by unfold dropPage; simp

@[simp] theorem moveEvent_mem (s : State) (m : Move) : (moveEvent s m).mem = s.mem := by unfold moveEvent; simp

@[simp] theorem setGroups_mem (cellar : Bool) (e : GroupEntry) (gs : List ℕ) (s : State) : (setGroups cellar e gs s).mem = s.mem := by
  unfold setGroups
  split <;> simp

@[simp] theorem partChanged_mem (s : State) (p : ℕ) : (partChanged s p).mem = s.mem := by unfold partChanged; simp

@[simp] theorem islandReset_mem (s : State) (i : ℕ) : (islandReset s i).mem = s.mem := by unfold islandReset; simp

@[simp] theorem unconfigure_mem (s : State) (p : ℕ) : (unconfigure s p).mem = s.mem := by unfold unconfigure; simp

@[simp] theorem answerFor_mem (s : State) (partner good : Bool) (o : Out) : (answerFor s partner good o).mem = s.mem := by
  unfold answerFor
  (repeat' split) <;> simp

@[simp] theorem State.setPower_mem (s : State) (p : Power) : (State.setPower s p).mem = s.mem := by unfold State.setPower; simp

@[simp] theorem raiseAlert_mem (s : State) : (raiseAlert s).mem = s.mem := by unfold raiseAlert; simp

@[simp] theorem hold_mem (s : State) (status : W16) (unit die : BitVec 8) (index : W16) :
    (hold s status unit die index).mem = s.mem := by unfold hold; simp

@[simp] theorem markDead_mem (s : State) (e : EndPoint) : (markDead s e).mem = s.mem := by
  unfold markDead
  split <;> simp

@[simp] theorem endRequests_mem (s : State) (e : EndPoint) (c : ℕ) : (endRequests s e c).mem = s.mem := by unfold endRequests; simp

@[simp] theorem repairDead_mem (s : State) (e : EndPoint) : (repairDead s e).mem = s.mem := by unfold repairDead; simp

@[simp] theorem loseSlice_mem (s : State) (e : EndPoint) : (loseSlice s e).mem = s.mem := by
  unfold loseSlice
  split <;> simp

@[simp] theorem failRepair_mem (s : State) (n i step : ℕ) (o : Obj) : (failRepair s n i step o).mem = s.mem := by unfold failRepair; simp

@[simp] theorem coolantCheck_mem (s : State) (k : ℕ) : (coolantCheck s k).mem = s.mem := by
  unfold coolantCheck
  (repeat' split) <;> simp

@[simp] theorem setIslands_mem (s : State) (f : ℕ → Island → Island) : (setIslands s f).mem = s.mem := by unfold setIslands; simp

@[simp] theorem lowerClocks_mem (s : State) : (lowerClocks s).mem = s.mem := by
  unfold lowerClocks
  dsimp only
  (repeat' split) <;> simp

theorem raiseClocks_mem (s : State) {r : State} (hr : raiseClocks s = some r) : r.mem = s.mem := by
  unfold raiseClocks at hr
  obtain ⟨g, -, rfl⟩ := Option.map_eq_some_iff.1 hr
  simp

@[simp] theorem settleClocks_mem (s : State) : (settleClocks s).mem = s.mem := by unfold settleClocks; simp

@[simp] theorem seeIdle_mem (s : State) (u : GateUnit) : (seeIdle s u).mem = s.mem := by
  unfold seeIdle
  (repeat' split) <;> simp

@[simp] theorem flushLife_mem (s : State) : (flushLife s).mem = s.mem := by unfold flushLife; simp

@[simp] theorem loseEvents_mem (s : State) : (loseEvents s).mem = s.mem := by
  unfold loseEvents
  dsimp only
  split <;> simp

@[simp] theorem reloadLife_mem (s : State) : (reloadLife s).mem = s.mem := by unfold reloadLife; simp

@[simp] theorem restartReeve_mem (s : State) : (restartReeve s).mem = s.mem := by unfold restartReeve; simp

@[simp] theorem State.setSlot_mem (s : State) (b : Bool) (cs : List Host.Cell) :
    (State.setSlot s b cs).mem = s.mem := by unfold State.setSlot; simp

@[simp] theorem fallBack_mem (s : State) : (fallBack s).mem = s.mem := by unfold fallBack; simp

@[simp] theorem bootSlot_mem (s : State) (b : Bool) : (bootSlot s b).mem = s.mem := by
  unfold bootSlot
  split <;> simp

@[simp] theorem commitTrial_mem (s : State) : (commitTrial s).mem = s.mem := by
  unfold commitTrial
  (repeat' split) <;> simp

@[simp] theorem jtagRun_mem (s : State) (i : JtagInstr) (data : List Byte) : (jtagRun s i data).mem = s.mem := by
  unfold jtagRun
  split <;> simp

@[simp] theorem tick_mem (s : State) : (tick s).mem = s.mem := by
  unfold tick
  (repeat' split) <;> simp

@[simp] theorem stepTime_mem (s : State) (m : ℕ) : (stepTime s m).mem = s.mem := by unfold stepTime; simp

@[simp] theorem correctTime_mem (s : State) (m : ℕ) : (correctTime s m).mem = s.mem := by
  unfold correctTime
  (repeat' split) <;> simp

theorem portSet_mem (s : State) (p : Port) : ({ s with port := p } : State).mem = s.mem := rfl

/-- A time that is set is a step or a correction. The port's fields go by `portSet_mem`: to compare the states themselves, the
kernel would reduce the test of the offset, whose time of a thousand million it counts in unary. -/
@[simp] theorem ptpTime_mem (s0 : State) (master : ℕ) : (ptpTime s0 master).mem = s0.mem := by
  unfold ptpTime
  split
  · rfl
  extract_lets +onlyGivenNames p s m0 k m
  have es : s.mem = s0.mem := portSet_mem s0 _
  split
  · have e := correctTime_mem s m
    generalize correctTime s m = u at e ⊢
    exact (portSet_mem u _).trans (e.trans es)
  · have e : (if s.time < m then stepTime s m else correctTime s m).mem = s.mem := by
      split
      · exact stepTime_mem s m
      · exact correctTime_mem s m
    generalize (if s.time < m then stepTime s m else correctTime s m) = u at e ⊢
    exact (portSet_mem u _).trans (e.trans es)

@[simp] theorem reply_mem (m : SbMsg) (s : State) (code : ℕ) (st : W16) (payload : List Byte) :
    (reply m s code st payload).mem = s.mem := by unfold reply; simp

end Sys2Proof.Machine

end

section

/-! PROOFS. The operations that store keep memory in its canonical form. -/

namespace Sys2Proof.Machine

open Sys2Proof.Claims Sys2Proof.Laws

/-- A fold of operations that each keep the canonical form keeps it. -/
@[simp] theorem foldl_wf {α : Type} (f : State → α → State) (l : List α) (s : State) (h : Memory.wf s.mem = true)
    (hf : ∀ s x, Memory.wf s.mem = true → Memory.wf (f s x).mem = true) : Memory.wf (l.foldl f s).mem = true := wf_foldl f hf l h

/-- The same of a fold that gathers a result beside the state. -/
theorem foldl_fst_wf {α β : Type} (f : State × β → α → State × β) (l : List α) (r : State × β) (h : Memory.wf r.1.mem = true)
    (hf : ∀ r x, Memory.wf r.1.mem = true → Memory.wf (f r x).1.mem = true) : Memory.wf (l.foldl f r).1.mem = true := by
  induction l generalizing r with
  | nil => exact h
  | cons x t ih => exact ih _ (hf r x h)

/-- The first of a pair whose memory is canonical. -/
theorem wf_of_eq {β : Type} {p : State × β} {s : State} {x : β} (e : p = (s, x)) (h : Memory.wf p.1.mem = true) :
    Memory.wf s.mem = true := by
  subst e; exact h

@[simp] theorem recallLine_wf {s : State} (l : ℕ) (h : Memory.wf s.mem = true) : Memory.wf (recallLine s l).mem = true := wf_recallLine _ h

@[simp] theorem foldOne_wf {s : State} (p : PoolLine) (h : Memory.wf s.mem = true) : Memory.wf (foldOne s p).mem = true := wf_foldOne _ h

@[simp] theorem foldCommitted_wf {s : State} (hd l : ℕ) (h : Memory.wf s.mem = true) :
    Memory.wf (foldCommitted s hd l).mem = true := wf_foldCommitted _ _ h

@[simp] theorem State.write_wf {s : State} (pa : ℕ) (bs : List Byte) (h : Memory.wf s.mem = true) :
    Memory.wf (State.write s pa bs).mem = true := wf_write _ _ h

@[simp] theorem poolWriteLine_wf {s : State} (e l : ℕ) (mask : BitVec 128) (data : Line) (h : Memory.wf s.mem = true) :
    Memory.wf (poolWriteLine s e l mask data).1.mem = true := wf_poolWriteLine _ _ _ _ h

@[simp] theorem State.poolWrite_wf {s : State} (e pa : ℕ) (bs : List Byte) (h : Memory.wf s.mem = true) :
    Memory.wf (State.poolWrite s e pa bs).1.mem = true := wf_poolWrite _ _ _ h

@[simp] theorem State.unitWrite_wf {s : State} (e : Option ℕ) (pa : ℕ) (bs : List Byte) (h : Memory.wf s.mem = true) :
    Memory.wf (State.unitWrite s e pa bs).1.mem = true := wf_unitWrite _ _ _ h

@[simp] theorem entryWrite_wf {s0 : State} (e : SbEntry) (h : Memory.wf s0.mem = true) :
    Memory.wf (entryWrite s0 e).mem = true := wf_entryWrite _ h

@[simp] theorem performEntry_wf {s : State} (c i : ℕ) (e : SbEntry) (h : Memory.wf s.mem = true) :
    Memory.wf (performEntry s c i e).mem = true := by
  have hc : Memory.wf (claimLine s e.line true).1.mem = true := by simpa using h
  unfold performEntry
  generalize claimLine s e.line true = p at hc ⊢
  obtain ⟨s1, ok⟩ := p
  cases ok
  all_goals
    dsimp only at hc ⊢
    (repeat' split) <;> simp [h, hc]

@[simp] theorem virtWrite_wf {s : State} (st : TlbStruct) (ctx v : ℕ) (bs : List Byte) (h : Memory.wf s.mem = true) :
    Memory.wf (virtWrite s st ctx v bs).1.mem = true := by
  unfold virtWrite
  refine foldl_fst_wf _ _ _ h fun r x hr => ?_
  (repeat' split) <;> simp [hr]

@[simp] theorem unitPut_wf {s : State} (c ctx : ℕ) (larder : Bool) (v : ℕ) (bs : List Byte) (h : Memory.wf s.mem = true) :
    Memory.wf (unitPut s c ctx larder v bs).1.mem = true := by
  unfold unitPut
  split <;> simp [h]

@[simp] theorem writeOutputs_wf {s : State} (c : ℕ) (o : MillOp) (outAt : ℕ → ℕ → OutEl) (h : Memory.wf s.mem = true) :
    Memory.wf (writeOutputs s c o outAt).1.mem = true := by
  unfold writeOutputs
  refine foldl_fst_wf _ _ _ h fun r x hr => ?_
  (repeat' split) <;> simp [hr]

@[simp] theorem writeCerts_wf {s : State} (c : ℕ) (o : MillOp) (trunc : Bool) (el : ℕ → ℕ → Acc × OutEl) (h : Memory.wf s.mem = true) :
    Memory.wf (writeCerts s c o trunc el).1.mem = true := by
  unfold writeCerts
  refine foldl_fst_wf _ _ _ h fun r x hr => ?_
  (repeat' split) <;> simp [hr]

@[simp] theorem drainBlock_wf {s : State} (c : ℕ) (o : MillOp) (h : Memory.wf s.mem = true) : Memory.wf (drainBlock s c o).1.mem = true := by
  unfold drainBlock
  dsimp only
  (repeat' split) <;> simp [h]

@[simp] theorem nearApply_wf {s : State} (e : Option ℕ) (pa aop n val cmp : ℕ) (h : Memory.wf s.mem = true) :
    Memory.wf (nearApply s e pa aop n val cmp).1.mem = true := by
  unfold nearApply
  dsimp only
  split <;> simp [h]

@[simp] theorem sievePut_wf {s : State} (c ctx : ℕ) (a0 : SWrite) (h : Memory.wf s.mem = true) :
    Memory.wf (sievePut s c ctx a0).1.mem = true := by
  unfold sievePut
  dsimp only
  (repeat' split) <;> simp [h]

@[simp] theorem sievePuts_wf {s : State} (c ctx : ℕ) (ws : List SWrite) (h : Memory.wf s.mem = true) :
    Memory.wf (sievePuts s c ctx ws).1.mem = true := by
  unfold sievePuts
  refine foldl_fst_wf _ _ _ h fun r x hr => ?_
  (repeat' split) <;> simp [hr]

/-- Memory is nothing that reading and claiming change. -/
theorem mem_blind : BlindToReads State.mem := fun _ _ _ _ _ _ _ _ _ _ _ _ _ _ => rfl

@[simp] theorem sieveRun_mem (s : State) (c : ℕ) (op : SieveOp) : (sieveRun s c op).s.mem = s.mem := mem_blind.sieveRun ..

@[simp] theorem sentWrites_wf (c : ℕ) (o : SieveOp) {r : SRun} (h : Memory.wf r.s.mem = true) : Memory.wf (sentWrites c o r).mem = true :=
  foldl_wf _ _ _ (by simp [h]) fun _ _ hs => sievePut_wf _ _ _ hs

@[simp] theorem stopSieve_wf {s : State} (c : ℕ) (o : SieveOp) (h : Memory.wf s.mem = true) : Memory.wf (stopSieve s c o).mem = true := by
  unfold stopSieve
  simp [h]

@[simp] theorem abortSieve_wf {s : State} (ctx : ℕ) (h : Memory.wf s.mem = true) :
    Memory.wf (abortSieve s ctx).mem = true := foldl_wf _ _ _ h fun s x hs => foldl_wf _ _ _ hs fun s x hs => by split <;> simp [hs]

@[simp] theorem writeDone_wf {s : State} (core ctx p : ℕ) (data : List Byte) (h : Memory.wf s.mem = true) :
    Memory.wf (writeDone s core ctx p data).mem = true := by unfold writeDone; simp [h]

@[simp] theorem homeWriteMiss_wf {s : State} (cls : RClass) (core ctx attr p : ℕ) (data : List Byte) (h : Memory.wf s.mem = true) :
    Memory.wf (homeWriteMiss s cls core ctx attr p data).mem = true := by
  unfold homeWriteMiss
  split <;> simp [h]

@[simp] theorem answerJoined_wf (l : ℕ) (got : BitVec 4) {a0 : State} (a1 : List Joined) (h : Memory.wf a0.mem = true) :
    Memory.wf (answerJoined l got a0 a1).1.mem = true := by
  induction a1 generalizing a0 with
  | nil => exact h
  | cons j t ih =>
    cases j with
    | read c x k =>
      unfold answerJoined
      split
      · exact ih (by simpa using h)
      · exact ih h
    | write c x p d =>
      unfold answerJoined
      split
      · exact ih (by simp [h])
      · exact h

@[simp] theorem nsTry_wf {s : State} (r : NsReq) (h : Memory.wf s.mem = true) : Memory.wf (nsTry s r).1.mem = true := by
  unfold nsTry
  dsimp only
  (repeat' split) <;> simp [h]

@[simp] theorem ungateUnit_wf {s : State} (u : GateUnit) (h : Memory.wf s.mem = true) :
    Memory.wf (ungateUnit s u).mem = true := wf_ungateUnit _ h

@[simp] theorem scrubReference_wf {s : State} (n i : ℕ) (h : Memory.wf s.mem = true) : Memory.wf (scrubReference s n i).mem = true := by
  unfold scrubReference
  (repeat' split) <;> simp [h]

@[simp] theorem wakePools_wf {s : State} (part : ℕ) (h : Memory.wf s.mem = true) : Memory.wf (wakePools s part).mem = true := by
  unfold wakePools
  refine foldl_wf _ _ _ h fun s x hs => ?_
  (repeat' split) <;> simp [hs]

@[simp] theorem drainRange_wf {s : State} (c asid lo hi : ℕ) (h : Memory.wf s.mem = true) :
    Memory.wf (drainRange s c asid lo hi).mem = true := by
  unfold drainRange
  refine foldl_wf _ _ _ h fun s x hs => ?_
  (repeat' split) <;> simp [hs]

@[simp] theorem finishEntry_wf {s : State} (qi k : ℕ) (q : Queue) (status : W16) (h : Memory.wf s.mem = true) :
    Memory.wf (finishEntry s qi k q status).mem = true := by unfold finishEntry; simp [h]

@[simp] theorem completeTransfers_wf {s : State} (ctx : ℕ) (status : W16) (h : Memory.wf s.mem = true) :
    Memory.wf (completeTransfers s ctx status).mem = true := foldl_wf _ _ _ h fun s x hs => by
  extract_lets s1
  have e : s1.mem = s.mem := by
    show (match x.2.2 with | .larder c n => _ | _ => s : State).mem = _
    split <;> simp
  split <;> simp [e, hs]

@[simp] theorem takeDown_wf {s : State} (p : ℕ) (status : W16) (addr : ℕ) (h : Memory.wf s.mem = true) :
    Memory.wf (takeDown s p status addr).mem = true := by
  unfold takeDown
  extract_lets pt cs ours s1 s2 s3 mine s4 s5
  have e2 : Memory.wf s2.mem = true := foldl_wf _ _ _ h fun _ _ hs => by simp [hs]
  have e3 : Memory.wf s3.mem = true := foldl_wf _ _ _ e2 fun _ _ hs => hs
  have e5 : Memory.wf s5.mem = true := foldl_wf _ _ _ e3 fun _ _ hs => by simp [hs]
  split
  · simpa using e5
  · exact e5

@[simp] theorem coherenceDown_wf {s : State} (p hall line : ℕ) (h : Memory.wf s.mem = true) :
    Memory.wf (coherenceDown s p hall line).mem = true := by
  unfold coherenceDown
  dsimp only
  split <;> simp [h]

@[simp] theorem badMessage_wf {s : State} (core line : ℕ) (h : Memory.wf s.mem = true) : Memory.wf (badMessage s core line).mem = true := by
  unfold badMessage
  split <;> simp [h]

@[simp] theorem beginTxn_wf {s : State} (l c : ℕ) (m : Msg) (h : Memory.wf s.mem = true) : Memory.wf (beginTxn s l c m).mem = true := by
  unfold beginTxn
  dsimp only
  (repeat' split) <;> simp [h]

@[simp] theorem serveList_wf (l : ℕ) (a0 : List Msg) {a1 : State} (h : Memory.wf a1.mem = true) : Memory.wf (serveList l a0 a1).mem = true := by
  induction a0 generalizing a1 with
  | nil => simpa [serveList] using h
  | cons m t ih =>
    unfold serveList
    dsimp only
    split
    · exact ih (by simpa using h)
    split
    · exact ih (by simpa using h)
    · simp [h]

@[simp] theorem tryServe_wf {s : State} (l : ℕ) (h : Memory.wf s.mem = true) : Memory.wf (tryServe s l).mem = true := by
  unfold tryServe
  dsimp only
  (repeat' split) <;> simp [h]

@[simp] theorem settleDir_wf {s : State} (l : ℕ) (st : DirState) (h : Memory.wf s.mem = true) : Memory.wf (settleDir s l st).mem = true := by
  unfold settleDir
  dsimp only
  (repeat' split) <;> simp +contextual [h]

@[simp] theorem sliceTakes_wf {s : State} (l : ℕ) (d : Line) (h : Memory.wf s.mem = true) :
    Memory.wf (sliceTakes s l d).mem = true := wf_sliceTakes _ _ h

@[simp] theorem progress_wf {s : State} (l : ℕ) (t : Txn) (h : Memory.wf s.mem = true) : Memory.wf (progress s l t).mem = true := by
  unfold progress
  split <;> simp [h]

@[simp] theorem zeroRange_wf {s : State} (base n : ℕ) (h : Memory.wf s.mem = true) :
    Memory.wf (zeroRange s base n).mem = true := wf_zeroRange _ _ h

@[simp] theorem wakeUnits_wf {s : State} (pa : ℕ) (h : Memory.wf s.mem = true) : Memory.wf (wakeUnits s pa).mem = true := by
  have hw : ∀ (u : GateUnit) {s : State}, Memory.wf s.mem = true → Memory.wf
      (if (s.stirUnit u).seal? u = some .gated then ungateUnit (s.stirUnit u) u
       else if (s.stirUnit u).seal? u = some .closed then (s.stirUnit u).setSeal u none else s.stirUnit u).mem = true := by
    intro u s h
    (repeat' split) <;> simp [h]
  unfold wakeUnits
  dsimp only
  split
  · exact hw _ h
  · exact foldl_wf _ _ _ h fun s x hs => hw _ hs
  · exact h

theorem takeIn_wf {s : State} (mode g need align : ℕ) (ctx : Option ℕ) (h : Memory.wf s.mem = true) {r : State × ℕ}
    (hr : takeIn s mode g need align ctx = some r) : Memory.wf r.1.mem = true := by
  obtain ⟨a, -, rfl⟩ := Option.map_eq_some_iff.1 hr
  simp [h]

/-- The search, with its recursion in view: to check its equations the kernel would evaluate `takeIn`. -/
theorem takeFirst_eq_brecOn (s : State) (mode need align : ℕ) (ctx : Option ℕ) (l : List ℕ) : takeFirst s mode need align ctx l =
    List.brecOn (motive := fun _ => Option (State × ℕ × ℕ)) l (takeFirst._f s mode need align ctx) := by
  delta takeFirst
  rfl

theorem takeFirst_wf {s : State} (mode need align : ℕ) (ctx : Option ℕ) (a0 : List ℕ) (h : Memory.wf s.mem = true) {r : State × ℕ × ℕ}
    (hr : takeFirst s mode need align ctx a0 = some r) : Memory.wf r.1.mem = true := by
  have hin : ∀ g x, takeIn s mode g need align ctx = some x → Memory.wf x.1.mem = true := fun g x hx => takeIn_wf _ _ _ _ _ h hx
  rw [takeFirst_eq_brecOn] at hr
  obtain ⟨T, hT⟩ : ∃ T, takeIn s mode = T := ⟨_, rfl⟩
  obtain ⟨F, hF⟩ : ∃ F, takeFirst._f s mode need align ctx = F := ⟨_, rfl⟩
  rw [hF] at hr
  delta takeFirst._f at hF
  rw [hT] at hF hin
  subst hF
  induction a0 with
  | nil => cases hr
  | cons g t ih =>
    cases hg : T g need align ctx with
    | none => exact ih (by simpa only [List.brecOn, hg] using hr)
    | some x =>
      simp only [hg] at hr
      rw [← Option.some.inj hr]
      exact hin g x hg

theorem takePage_wf {s : State} (p mode size : ℕ) (h : Memory.wf s.mem = true) {r : State × ℕ} (hr : takePage s p mode size = some r) :
    Memory.wf r.1.mem = true := by
  obtain ⟨a, ha, rfl⟩ := Option.map_eq_some_iff.1 hr
  exact takeFirst_wf _ _ _ _ _ h ha

theorem takePages_wf (p mode size a0 : ℕ) {a1 : State} (h : Memory.wf a1.mem = true) {r : State × List ℕ}
    (hr : takePages p mode size a0 a1 = some r) : Memory.wf r.1.mem = true := by
  induction a0 generalizing a1 r with
  | zero => cases hr; exact h
  | succ n ih =>
    obtain ⟨a, ha, hr⟩ := Option.bind_eq_some_iff.1 hr
    obtain ⟨q, hq, rfl⟩ := Option.map_eq_some_iff.1 hr
    exact ih (r := q) (takePage_wf _ _ _ h ha) hq

theorem takeOwn_wf {s : State} (ctx need align : ℕ) (h : Memory.wf s.mem = true) {r : State × ℕ} (hr : takeOwn s ctx need align = some r) :
    Memory.wf r.1.mem = true := by
  unfold takeOwn at hr
  dsimp only at hr
  split at hr
  all_goals
    obtain ⟨a, ha, rfl⟩ := Option.map_eq_some_iff.1 hr
    simp [takeFirst_wf _ _ _ _ _ h ha]

theorem takeBin_wf {s : State} (hd : ℕ) (h : Memory.wf s.mem = true) {r : State × ℕ} (hr : takeBin s hd = some r) :
    Memory.wf r.1.mem = true := by
  obtain ⟨a, -, rfl⟩ := Option.map_eq_some_iff.1 hr
  exact wakeUnits_wf _ h

theorem takeBins_wf (hs : List ℕ) (a0 a1 : ℕ) {a2 : State} (h : Memory.wf a2.mem = true) {r : State × List ℕ}
    (hr : takeBins hs a0 a1 a2 = some r) : Memory.wf r.1.mem = true := by
  induction a0 generalizing a1 a2 r with
  | zero => cases hr; exact h
  | succ n ih =>
    unfold takeBins at hr
    dsimp only at hr
    split at hr
    · cases hr
    next heq =>
      obtain ⟨d, hd⟩ := List.exists_of_findSome?_eq_some heq
      obtain ⟨y, hy, e⟩ := Option.map_eq_some_iff.1 hd.2
      cases e
      obtain ⟨q, hq, rfl⟩ := Option.map_eq_some_iff.1 hr
      exact ih (r := q) _ (takeBin_wf _ h hy) hq

@[simp] theorem writeWord_wf {s : State} (pa : ℕ) (e : W64) (h : Memory.wf s.mem = true) :
    Memory.wf (writeWord s pa e).mem = true := by unfold writeWord; simp [h]

theorem entryFor_wf {s : State} (ctx v target : ℕ) (a0 : List ℕ) (a1 : ℕ) (h : Memory.wf s.mem = true) {r : State × ℕ}
    (hr : entryFor s ctx v target a0 a1 = some r) : Memory.wf r.1.mem = true := by
  induction a0 generalizing s a1 with
  | nil => cases hr; exact h
  | cons level rest ih =>
    unfold entryFor at hr
    dsimp only at hr
    split at hr
    · cases hr; exact h
    split at hr
    · exact ih _ h hr
    · split at hr
      · cases hr
      next heq => exact ih _ (writeWord_wf _ _ (takeOwn_wf _ _ _ h heq)) hr

theorem setLeaf_wf {s : State} (ctx v level : ℕ) (leaf : W64) (obj : Option ℕ) (page : ℕ) (h : Memory.wf s.mem = true) {r : State}
    (hr : setLeaf s ctx v level leaf obj page = some r) : Memory.wf r.mem = true := by
  unfold setLeaf at hr
  split at hr
  · cases hr
  · obtain ⟨a, ha, rfl⟩ := Option.map_eq_some_iff.1 hr
    exact writeWord_wf _ _ (entryFor_wf _ _ _ _ _ h ha)

@[simp] theorem clearLeaves_wf {s : State} (ls : List LeafRec) (h : Memory.wf s.mem = true) :
    Memory.wf (clearLeaves s ls).mem = true := by unfold clearLeaves; simp +contextual [h]

@[simp] theorem reLeaf_wf {s : State} (l : LeafRec) (f : W64 → W64) (h : Memory.wf s.mem = true) :
    Memory.wf (reLeaf s l f).mem = true := by unfold reLeaf; simp [h]

@[simp] theorem capChanged_wf {s : State} (h : Memory.wf s.mem = true) :
    Memory.wf (capChanged s).mem = true := by unfold capChanged; simp +contextual [h]

theorem buildContext_wf {s : State} (c : ℕ) (a0 : Context) (h : Memory.wf s.mem = true) {r : State} (hr : buildContext s c a0 = some r) :
    Memory.wf r.mem = true := by
  obtain ⟨r1, h1, hr⟩ := Option.bind_eq_some_iff.1 hr
  obtain ⟨q, hq, hr⟩ := Option.bind_eq_some_iff.1 hr
  have e1 := takeOwn_wf _ _ _ (show Memory.wf (s.setCtx c _).mem = true from h) h1
  have e2 := takeOwn_wf _ _ _ e1 hq
  obtain ⟨s2, h2, hr⟩ := Option.bind_eq_some_iff.1 hr
  obtain ⟨s3, h3, hr⟩ := Option.bind_eq_some_iff.1 hr
  exact setLeaf_wf _ _ _ _ _ _ (setLeaf_wf _ _ _ _ _ _ (setLeaf_wf _ _ _ _ _ _ (State.write_wf _ _ (by simpa using e2)) h2) h3) hr

theorem mapPages_wf (ctx level obj : ℕ) (o : Obj) (leaf : ℕ → W64) (a0 : List (ℕ × ℕ)) {a1 : State} (h : Memory.wf a1.mem = true)
    {r : State} (hr : mapPages ctx level obj o leaf a0 a1 = some r) : Memory.wf r.mem = true := by
  induction a0 generalizing a1 with
  | nil => cases hr; exact h
  | cons x t ih =>
    obtain ⟨s1, h1, hr⟩ := Option.bind_eq_some_iff.1 hr
    exact ih (setLeaf_wf _ _ _ _ _ _ (wakeUnits_wf _ h) h1) hr

theorem takeCommons_wf {s : State} (n : ℕ) (h : Memory.wf s.mem = true) {r : State × List ℕ × List ℕ × ℕ} (hr : takeCommons s n = some r) :
    Memory.wf r.1.mem = true := by
  obtain ⟨r1, h1, hr⟩ := Option.bind_eq_some_iff.1 hr
  obtain ⟨q, hq, hr⟩ := Option.bind_eq_some_iff.1 hr
  obtain ⟨d, hd, rfl⟩ := Option.map_eq_some_iff.1 hr
  have e1 := takePages_wf _ _ _ _ (by exact h) h1
  have e2 := takePages_wf _ _ _ _ (by exact e1) hq
  exact takeFirst_wf _ _ _ _ _ e2 hd

@[simp] theorem copyBytes_wf {s : State} (e : Option ℕ) (src dst n : ℕ) (h : Memory.wf s.mem = true) :
    Memory.wf (copyBytes s e src dst n).1.mem = true := by unfold copyBytes; simp [h]

@[simp] theorem grantSlot_wf {s : State} (qi slot : ℕ) (h : Memory.wf s.mem = true) : Memory.wf (grantSlot s qi slot).mem = true := by
  unfold grantSlot
  dsimp only
  (repeat' split) <;> simp [h]

theorem withdrawSlot_wf {s : State} (qi : ℕ) (h : Memory.wf s.mem = true) {r : State} (hr : withdrawSlot s qi = some r) :
    Memory.wf r.mem = true := by
  unfold withdrawSlot at hr
  split at hr
  · cases hr
  split at hr
  · dsimp only at hr
    split at hr
    · cases hr
    · obtain ⟨q, -, rfl⟩ := Option.map_eq_some_iff.1 hr
      rw [State.setQueue_mem]
      exact foldl_wf _ _ _ (by simp [h]) fun s x hs => by simp [hs]
  · cases hr

@[simp] theorem giveSlots_wf {s : State} (p : ℕ) (h : Memory.wf s.mem = true) : Memory.wf (giveSlots s p).mem = true := by
  unfold giveSlots
  refine foldl_wf _ _ _ h fun s x hs => ?_
  (repeat' split) <;> simp [hs]

@[simp] theorem freeQueue_wf {s : State} (qi : ℕ) (q : Queue) (h : Memory.wf s.mem = true) : Memory.wf (freeQueue s qi q).mem = true := by
  unfold freeQueue
  split <;> simp [h]

@[simp] theorem DmaSide.write_wf {s : State} (st : TlbStruct) (ctx off : ℕ) (bs : List Byte) (bad : Bool) (a0 : DmaSide)
    (h : Memory.wf s.mem = true) : Memory.wf (DmaSide.write s st ctx off bs bad a0).1.mem = true := by
  unfold DmaSide.write
  dsimp only
  (repeat' split) <;> simp [h]

@[simp] theorem moveBytes_wf {s : State} (st : TlbStruct) (ctx len limit : ℕ) (src dst : DmaSide) (h : Memory.wf s.mem = true) :
    Memory.wf (moveBytes s st ctx len limit src dst).1.mem = true := by
  unfold moveBytes
  refine foldl_fst_wf _ _ _ h fun r x hr => ?_
  (repeat' split) <;> simp [hr]

@[simp] theorem passBytes_wf {s : State} (st : TlbStruct) (ctx len limit : ℕ) (src dst : DmaSide) (h : Memory.wf s.mem = true) :
    Memory.wf (passBytes s st ctx len limit src dst).1.mem = true := by unfold passBytes; simp [h]

@[simp] theorem transfer_wf {s : State} (st : TlbStruct) (ctx len : ℕ) (src dst : DmaSide) (h : Memory.wf s.mem = true) :
    Memory.wf (transfer s st ctx len src dst).1.mem = true := by
  unfold transfer
  split
  next heq => exact wf_of_eq heq (by simpa using h)
  next heq => exact passBytes_wf _ _ _ _ _ _ (wf_of_eq heq (by simpa using h))
  next heq => exact passBytes_wf _ _ _ _ _ _ (wf_of_eq heq (by simpa using h))

@[simp] theorem larderEntry_wf (into : Bool) {s : State} (q : Queue) (st : TlbStruct) (e : List Byte) (h : Memory.wf s.mem = true) :
    Memory.wf (larderEntry into s q st e).1.mem = true := by
  unfold larderEntry
  dsimp only
  split
  · exact h
  split
  · exact h
  split
  · exact h
  split
  · exact h
  split
  · exact h
  split
  · exact h
  split
  next heq => exact wf_of_eq heq (transfer_wf _ _ _ _ _ h)
  next heq =>
    have e := wf_of_eq heq (transfer_wf _ _ _ _ _ h)
    split <;> simpa using e

@[simp] theorem completeEntry_wf {s : State} (qi k : ℕ) (q : Queue) (status : W16) (addr : ℕ) (h : Memory.wf s.mem = true) :
    Memory.wf (completeEntry s qi k q status addr).mem = true := by
  unfold completeEntry
  dsimp only
  split
  next heq => exact wf_of_eq heq (by simpa using h)
  next heq => simpa using wf_of_eq heq (by simpa using h)
  next heq =>
    have e := wf_of_eq heq (by simpa using h)
    (repeat' split) <;> simp [e]

@[simp] theorem writeRange_wf {s : State} (ctx v : ℕ) (data : List Byte) (h : Memory.wf s.mem = true) :
    Memory.wf (writeRange s ctx v data).1.mem = true := by
  unfold writeRange
  refine foldl_fst_wf _ _ _ h fun r x hr => ?_
  (repeat' split) <;> simp [hr]

/-! ### Frames that are acted on -/

theorem ingestRecords_wf {s : State} (f : Frame) (b : Binding) (n : ℕ) (h : Memory.wf s.mem = true) :
    Memory.wf (ingestRecords s f b n).1.mem = true := by
  unfold ingestRecords
  extract_lets p slot bytes checked
  have hc : Memory.wf checked.1.mem = true := foldl_fst_wf _ _ _ h fun r _ hr => by
    split <;> simp [hr]
  clear_value checked
  split
  · exact hc
  · simpa using hc
  · dsimp only
    have h2 := fun l : List ℕ => foldl_fst_wf (fun (acc : State × Bool) i =>
      ((portClaim acc.1 b.ctx .w (slot i) b.size).1, acc.2 && (portClaim acc.1 b.ctx .w (slot i) b.size).2)) l (_, true) hc
      fun r _ hr => by simp [hr]
    have h3 := fun u hu l => foldl_fst_wf (fun (acc : State × W16) i =>
      if acc.2 = 0 then writeRange acc.1 b.ctx (slot i) (bytes i) else acc) l (u, 0) hu fun r _ hr => by
        split <;> simp [hr]
    split
    · exact h2 _
    split
    · simpa using h3 _ (h2 _) _
    · simpa using h3 _ (h2 _) _

theorem ingestBound_wf {s : State} (f : Frame) (b : Binding) (h : Memory.wf s.mem = true) : Memory.wf (ingestBound s f b).1.mem = true := by
  unfold ingestBound
  dsimp only
  (repeat' split) <;> simp [h, ingestRecords_wf]

theorem actIngest_wf {s : State} (f : Frame) (h : Memory.wf s.mem = true) : Memory.wf (actIngest s f).1.mem = true := by
  unfold actIngest
  extract_lets q c gen rv det s0
  split
  · exact h
  dsimp only
  split
  · exact ingestBound_wf _ _ h
  split
  · exact h
  split
  next heq => exact wf_of_eq heq (by simpa using h)
  next heq =>
    have e := wf_of_eq heq (by simpa using h)
    dsimp only
    split <;> simpa using e
  next heq =>
    have e := wf_of_eq heq (by simpa using h)
    split
    · exact e
    · exact ingestBound_wf _ _ e

theorem actDma_wf {s : State} (f : Frame) (x : Session) (h : Memory.wf s.mem = true) : Memory.wf (actDma s f x).1.mem = true := by
  unfold actDma
  extract_lets p c v n read det
  split
  · exact h
  split
  · exact h
  split
  next heq => exact wf_of_eq heq (by simpa using h)
  next heq => simpa using wf_of_eq heq (by simpa using h)
  next heq =>
    have e := wf_of_eq heq (by simpa using h)
    split
    · exact e
    split
    next heq => exact wf_of_eq heq (by simpa using e)
    next heq =>
      have e := wf_of_eq heq (by simpa using e)
      dsimp only
      (repeat' split) <;> simp [e]

theorem act_wf {s : State} (x : Session) (f : Frame) (h : Memory.wf s.mem = true) : Memory.wf (act s x f).1.mem = true := by
  unfold act
  dsimp only
  split
  · split
    · split
      next heq => rw [closeSession_mem _ _ _ heq]; exact h
      · exact h
    · split <;> exact h
  · split <;> simp [h]
  · exact actIngest_wf _ h
  · exact actDma_wf _ _ h

@[simp] theorem drainHeld_wf (a0 : ℕ) {a1 : State} (h : Memory.wf a1.mem = true) : Memory.wf (drainHeld a0 a1).mem = true := by
  induction a0 generalizing a1 with
  | zero => exact h
  | succ n ih =>
    unfold drainHeld
    split
    · exact h
    split
    · exact h
    split
    next heq => exact wf_of_eq heq (act_wf _ _ h)
    next heq => exact ih (by simpa using wf_of_eq heq (act_wf _ _ h))

@[simp] theorem resumeFolest_wf {s : State} (h : Memory.wf s.mem = true) :
    Memory.wf (resumeFolest s).mem = true := by unfold resumeFolest; simp [h]

@[simp] theorem sequenced_wf {s : State} (f : Frame) (h : Memory.wf s.mem = true) : Memory.wf (sequenced s f).mem = true := by
  unfold sequenced
  split
  · exact h
  dsimp only
  split
  · simp [h]
  split
  · simp [h]
  split
  · split
    next heq => simpa using resumeFolest_wf (by simpa using wf_of_eq heq (act_wf _ _ h))
    next heq =>
      have e := wf_of_eq heq (act_wf _ _ h)
      split <;> simpa using e
  · split <;> simp [h]

@[simp] theorem inSession_wf {s0 : State} (f : Frame) (h : Memory.wf s0.mem = true) : Memory.wf (inSession s0 f).mem = true := by
  unfold inSession
  (repeat' split) <;> simp [h]

@[simp] theorem accept_wf {s : State} (f : Frame) (h : Memory.wf s.mem = true) : Memory.wf (accept s f).mem = true := by
  unfold accept
  dsimp only
  (repeat' split) <;> simp [h]

@[simp] theorem becomeResident_wf {s : State} (ctx : ℕ) (h : Memory.wf s.mem = true) : Memory.wf (becomeResident s ctx).mem = true := by
  have e := fun l u hu => foldl_wf (fun (s : State) (e : GateUnit × SealState) => if e.2 = SealState.gated then ungateUnit s e.1
    else if e.2 = SealState.closed then s.setSeal e.1 none else s) l u hu fun s x hs => by (repeat' split) <;> simp [hs]
  unfold becomeResident
  dsimp only
  rw [State.modCtx_mem]
  exact e _ _ h

theorem takeSaves_wf (ctx need a0 : ℕ) {a1 : State} (h : Memory.wf a1.mem = true) {r : State × List ℕ} (hr : takeSaves ctx need a0 a1 = some r) :
    Memory.wf r.1.mem = true := by
  induction a0 generalizing a1 r with
  | zero => cases hr; exact h
  | succ n ih =>
    obtain ⟨a, ha, hr⟩ := Option.bind_eq_some_iff.1 hr
    obtain ⟨q, hq, rfl⟩ := Option.map_eq_some_iff.1 hr
    exact ih (r := q) (takeOwn_wf _ _ _ h ha) hq

theorem makeStation_wf {s : State} (c : ℕ) (d : List Byte) (n loc : ℕ) (h : Memory.wf s.mem = true) {r : Station × State}
    (hr : makeStation s c d n loc = some r) : Memory.wf r.2.mem = true := by
  obtain ⟨a, ha, hr⟩ := Option.bind_eq_some_iff.1 hr
  obtain ⟨q, hq, hr⟩ := Option.bind_eq_some_iff.1 hr
  obtain ⟨s1, h1, rfl⟩ := Option.map_eq_some_iff.1 hr
  have e := setLeaf_wf _ _ _ _ _ _ (State.write_wf _ _ (takeSaves_wf _ _ _ (takeOwn_wf _ _ _ h ha) hq)) h1
  simpa using e

@[simp] theorem removeNow_wf {s : State} (mb n : ℕ) (a0 : Station) (h : Memory.wf s.mem = true) :
    Memory.wf (removeNow s mb n a0).mem = true := by
  unfold removeNow
  dsimp only
  split <;> simp [h]

@[simp] theorem removeStep_wf {s : State} (mb n : ℕ) (a0 : Station) (h : Memory.wf s.mem = true) :
    Memory.wf (removeStep s mb n a0).mem = true := by
  unfold removeStep
  (repeat' split) <;> simp [h]

@[simp] theorem endEvict_wf {s : State} (ctx : ℕ) (h : Memory.wf s.mem = true) : Memory.wf (endEvict s ctx).mem = true := by
  unfold endEvict
  dsimp only
  split
  · exact h
  · refine foldl_wf _ _ _ (by simp [h]) fun s x hs => ?_
    cases hw : withdrawSlot s x.1 with
    | none => exact hs
    | some t => exact withdrawSlot_wf _ hs hw

@[simp] theorem doReturn_wf {s : State} (ctx : ℕ) (h : Memory.wf s.mem = true) :
    Memory.wf (doReturn s ctx).mem = true := by unfold doReturn; simp [h]

@[simp] theorem closeDoorbells_wf {s : State} (ctx : ℕ) (h : Memory.wf s.mem = true) : Memory.wf (closeDoorbells s ctx).mem = true := by
  unfold closeDoorbells
  refine foldl_wf _ _ _ h fun s x hs => ?_
  (repeat' split) <;> simp [hs]

@[simp] theorem carryLoss_wf {s : State} (l : Loss) (c : Context) (h : Memory.wf s.mem = true) :
    Memory.wf (carryLoss s l c).mem = true := by unfold carryLoss; simp [h]

@[simp] theorem startDestroy_wf {s : State} (ctx : ℕ) (ticket : Option ℕ) (h : Memory.wf s.mem = true) :
    Memory.wf (startDestroy s ctx ticket).mem = true := by
  unfold startDestroy
  split <;> simp [h]

@[simp] theorem stopMoves_wf {s : State} (h : Memory.wf s.mem = true) : Memory.wf (stopMoves s).mem = true := by
  unfold stopMoves
  dsimp only
  split <;> simp [h]

@[simp] theorem finishDestroy_wf {s : State} (ctx : ℕ) (h : Memory.wf s.mem = true) : Memory.wf (finishDestroy s ctx).mem = true := by
  unfold finishDestroy
  (repeat' split) <;> simp [h]

@[simp] theorem afterShoot_wf {s : State} (a : After) (h : Memory.wf s.mem = true) : Memory.wf (afterShoot s a).mem = true := by
  unfold afterShoot
  (repeat' split) <;> simp [h]

@[simp] theorem startMove_wf {s : State} (f dst size p : ℕ) (promote : Bool) (h : Memory.wf s.mem = true) :
    Memory.wf (startMove s f dst size p promote).mem = true := by unfold startMove; simp +contextual [h]

@[simp] theorem abandonMove_wf {s : State} (m : Move) (h : Memory.wf s.mem = true) :
    Memory.wf (abandonMove s m).mem = true := resumeFolest_wf (by
  rw [moveEvent_mem]
  show Memory.wf (freeExtent _ m.dst.toNat).mem = true
  rw [freeExtent_mem]
  exact foldl_wf _ _ _ h fun _ _ hs => reLeaf_wf _ _ hs)

@[simp] theorem splitSlice_wf (all tent : Bool) (binWays : ℕ) (masks : BitVec 128) {s : State} (hd : ℕ) (h : Memory.wf s.mem = true) :
    Memory.wf (splitSlice all tent binWays masks s hd).mem = true := by
  have e := fun l : List CLine => foldl_mem (fun s x => dropLine s hd x.line) l s fun _ _ => dropLine_mem ..
  unfold splitSlice
  dsimp only
  (repeat' split) <;> simp [e, h]

@[simp] theorem configure_wf {s : State} (p : ℕ) (a0 : Partition) (h : Memory.wf s.mem = true) : Memory.wf (configure s p a0).mem = true := by
  unfold configure
  extract_lets old fresh pol s1 s2 held give s3 free more s4 s5 s6
  have e2 : s2.mem = s.mem := foldl_mem _ _ _ fun _ _ => by simp
  have e4 : s4.mem = s.mem := by simp only [s4, s3, setGroups_mem, e2]
  have e5 : Memory.wf s5.mem = true := foldl_wf _ _ _ (e4 ▸ h) fun _ _ hs => by simp [hs]
  split
  · simpa using e5
  · exact e5

@[simp] theorem quiesceStep_wf {s : State} (mb p : ℕ) (h : Memory.wf s.mem = true) : Memory.wf (quiesceStep s mb p).mem = true := by
  have e := fun l : List ℕ => foldl_wf (fun s c => match s.ctx? c with
    | some x => if x.state = .active then endEvict s c else s
    | none => s) l s h fun s x hs => by (repeat' split) <;> simp [hs]
  unfold quiesceStep
  dsimp only
  split
  · rw [respond_mem, saveParts_mem, State.setPart_mem]
    exact e _
  · exact e _

@[simp] theorem resetDone_wf {s : State} (p : ℕ) (h : Memory.wf s.mem = true) :
    Memory.wf (resetDone s p).mem = true := by unfold resetDone; simp +contextual [h]

@[simp] theorem resetStep_wf {s : State} (mb p : ℕ) (h : Memory.wf s.mem = true) : Memory.wf (resetStep s mb p).mem = true := by
  unfold resetStep
  split <;> simp [h]

@[simp] theorem resetBegin_wf {s : State} (p : ℕ) (h : Memory.wf s.mem = true) : Memory.wf (resetBegin s p).mem = true := by
  unfold resetBegin
  extract_lets pt s1 s2
  have e2 : Memory.wf s2.mem = true := by
    show Memory.wf (match (s.part p).quiesceMb with | some t => _ | none => s1 : State).mem = true
    split
    · simpa [s1] using h
    · simpa [s1] using h
  refine foldl_wf _ _ _ e2 fun s c hs => ?_
  dsimp only
  (repeat' split) <;> simp [hs]

@[simp] theorem flushPart_wf {s : State} (p : ℕ) (h : Memory.wf s.mem = true) :
    Memory.wf (flushPart s p).mem = true := by unfold flushPart; simp +contextual [h]

@[simp] theorem moveHalls_wf {s : State} (src : ℕ) (tgt : Option ℕ) (mask : BitVec 12) (hs : List ℕ) (h : Memory.wf s.mem = true) :
    Memory.wf (moveHalls s src tgt mask hs).mem = true := by
  unfold moveHalls
  extract_lets s1 s2 s3 clear left s4
  have e2 : Memory.wf s2.mem = true := by
    show Memory.wf (match tgt with | some t => _ | none => s1 : State).mem = true
    split <;> simp [s1, h]
  have e3 : s3.mem = s2.mem := foldl_mem _ _ _ fun _ _ => foldl_mem _ _ _ fun _ _ => by
    dsimp only
    split <;> simp
  have e4 : Memory.wf s4.mem = true := by simpa [s4, e3] using e2
  have e5 := fun (a b : Bool) (n : ℕ) (m : BitVec 128) u (hu : Memory.wf u.mem = true) =>
    foldl_wf (splitSlice a b n m) hs u hu fun _ _ hs => by simp [hs]
  split
  · split <;> simpa using e5 _ _ _ _ _ e4
  · split <;> simpa using e5 _ _ _ _ _ (by simpa using e4)

@[simp] theorem failModule_wf {s : State} (status : W16) (h : Memory.wf s.mem = true) : Memory.wf (failModule s status).mem = true := by
  unfold failModule
  dsimp only
  (repeat' split) <;> simp +contextual [h]

@[simp] theorem rewriteBlock_wf {s : State} (o : Obj) (i pa : ℕ) (h : Memory.wf s.mem = true) :
    Memory.wf (rewriteBlock s o i pa).mem = true := by unfold rewriteBlock; simp +contextual [h]

@[simp] theorem relocateBlock_wf {s : State} (n : ℕ) (o : Obj) (i pa : ℕ) (h : Memory.wf s.mem = true) :
    Memory.wf (relocateBlock s n o i pa).mem = true := by unfold relocateBlock; simp +contextual [h]

@[simp] theorem moduleReset_wf (s : State) (warm : Bool) : Memory.wf (moduleReset s warm).mem = true := rfl

@[simp] theorem startUp_wf (s : State) : Memory.wf (startUp s).mem = true := by unfold startUp; simp

@[simp] theorem railsOff_wf (s : State) : Memory.wf (railsOff s).mem = true := by unfold railsOff; simp

@[simp] theorem reeveReset_wf {s : State} (h : Memory.wf s.mem = true) : Memory.wf (reeveReset s).mem = true := by
  unfold reeveReset
  (repeat' split) <;> simp [h]

@[simp] theorem restorePart_wf {s : State} (p : ℕ) (a0 : Partition) (h : Memory.wf s.mem = true) :
    Memory.wf (restorePart s p a0).mem = true := by
  unfold restorePart
  dsimp only
  (repeat' split) <;> simp [h]

end Sys2Proof.Machine

end

section

/-! PROOFS. The shared shapes of commands, and the commands whose own work stores, keep memory in its canonical form. -/

namespace Sys2Proof.Machine

open Sys2Proof.Claims Sys2Proof.Laws

/-- Memory is in its canonical form in the state that the command ends in. -/
def Canon (o : Host.Outcome State Fault Refusal) : Prop := ∀ t, o = .next t → Memory.wf t.mem = true

@[simp] theorem canon_next {t : State} : Canon (.next t) ↔ Memory.wf t.mem = true :=
  ⟨fun h => h t rfl, fun h _ ht => Host.Outcome.next.inj ht ▸ h⟩

/-! ## What issue keeps -/

/-- Memory is in its canonical form in every state that the result carries. -/
def Res.Canon : Res → Prop
  | .stall t | .done t | .jump t => Memory.wf t.mem = true
  | .wait | .fault _ _ _ | .park _ _ => True

@[simp] theorem Res.canon_wait : Res.Canon .wait := trivial
@[simp] theorem Res.canon_fault (st : W16) (a : ℕ) (x : W64) : Res.Canon (.fault st a x) := trivial
@[simp] theorem Res.canon_park (r : BitVec 8) (a : ℕ) : Res.Canon (.park r a) := trivial
@[simp] theorem Res.canon_stall (t : State) : Res.Canon (.stall t) ↔ Memory.wf t.mem = true := .rfl
@[simp] theorem Res.canon_done (t : State) : Res.Canon (.done t) ↔ Memory.wf t.mem = true := .rfl
@[simp] theorem Res.canon_jump (t : State) : Res.Canon (.jump t) ↔ Memory.wf t.mem = true := .rfl

@[simp] theorem poisonRes_canon (s : State) (commons : Bool) (pa addr : ℕ) : (poisonRes s commons pa addr).Canon := by
  unfold poisonRes
  (repeat' split) <;> trivial

theorem fetch_canon {s s1 : State} {g : Grp} {k : Group} {n : ℕ} {r : Res} (h : fetch s g k n = (s1, some r)) : r.Canon := by
  unfold fetch at h
  dsimp only at h
  (repeat' split at h) <;> cases h <;> simp

theorem applyRes_wf {s s1 : State} {r : Res} (g : Grp) (ext : Option W64) (h : Memory.wf s.mem = true) (h1 : Memory.wf s1.mem = true)
    (hr : r.Canon) : Memory.wf (applyRes s s1 g ext r).mem = true := by
  cases r <;> simp_all [applyRes]

theorem runAheadIssue_wf {x : Iss} {g : Grp} {k : Group} {r : RunAhead} {body : State → Group → W32 → Res}
    {pf : State → Grp → Group → W32 → State × Ahead} {s : State} (h : Memory.wf s.mem = true)
    (hpf : ∀ gg act, Memory.wf (pf s g gg act).1.mem = true) : Memory.wf (runAheadIssue x g k r body pf s).mem = true := by
  unfold runAheadIssue
  extract_lets stop gg act hold keep skip
  have hhold : ∀ (u : State) gg ws inv, Memory.wf u.mem = true → Memory.wf (hold u gg ws inv).mem = true := fun u _ _ _ hu => by
    simpa [hold] using hu
  have hstop : Memory.wf stop.mem = true := by simpa [stop] using h
  have hp := hpf gg act
  have hkeep : ∀ (u : State) gg inv, Memory.wf u.mem = true → Memory.wf (keep u gg inv).mem = true := fun u _ _ hu => hhold u _ _ _ hu
  split
  · exact hstop
  split
  · exact hstop
  split
  · exact hhold _ _ _ _ h
  split
  · exact hhold _ _ _ _ h
  split
  · exact hkeep _ _ _ h
  split
  · exact hkeep _ _ _ h
  · exact hkeep _ _ _ h
  · split
    next heq => exact hkeep _ _ _ (wf_of_eq heq hp)
    next heq => exact hkeep _ _ _ (wf_of_eq heq hp)
    next heq => simpa using wf_of_eq heq hp
  · split
    · split
      · exact hkeep _ _ _ h
      · exact hstop
    · split
      · exact hkeep _ _ _ h
      · exact hstop
    · exact h
    · exact hstop

theorem issuePf_wf {x : Iss} {g : Grp} {body : State → Group → W32 → Res} {pf : State → Grp → Group → W32 → State × Ahead} {s : State}
    (h : Memory.wf s.mem = true) (hb : ∀ s k act, Memory.wf s.mem = true → (body s k act).Canon)
    (hpf : ∀ gg act, Memory.wf (pf s g gg act).1.mem = true) : Memory.wf (issuePf x g body pf s).mem = true := by
  unfold issuePf
  split
  · exact h
  split
  · exact h
  split
  · exact runAheadIssue_wf h hpf
  split
  next s1 _ heq => exact applyRes_wf _ _ h (wf_of_eq heq (by simpa using h)) (fetch_canon heq)
  next s1 heq =>
    have h1 : Memory.wf s1.mem = true := wf_of_eq heq (by simpa using h)
    split
    · exact applyRes_wf _ _ h h1 trivial
    split
    · simpa using h
    dsimp only
    split
    · exact applyRes_wf _ _ h h1 h1
    · exact applyRes_wf _ _ h h1 (hb _ _ _ h1)

theorem issue_canon {x : Iss} {g : Grp} {body : State → Group → W32 → Res} {s : State} (h : Memory.wf s.mem = true)
    (hb : ∀ s k act, Memory.wf s.mem = true → (body s k act).Canon) : Canon (issue x g body s) :=
  canon_next.2 (issuePf_wf h hb fun _ _ => h)

/-! ## What the instructions of memory, the units and the tallies do -/

theorem lanesRes_canon {ls : List Lane} {r : Res} (h : lanesRes ls = some r) : r.Canon := by
  unfold lanesRes at h
  split at h
  next heq =>
    obtain ⟨l, -, hl⟩ := List.exists_of_findSome?_eq_some (h ▸ heq)
    unfold laneFault at hl
    split at hl <;> cases hl
    trivial
  · obtain ⟨l, -, hl⟩ := List.exists_of_findSome?_eq_some h
    unfold lanePark at hl
    split at hl <;> cases hl
    trivial

theorem loadBody_canon {g : Grp} {f : MWord} {scalar : Bool} {s : State} {k : Group} {act : W32} (h : Memory.wf s.mem = true) :
    (loadBody g f scalar s k act).Canon := by
  unfold loadBody
  extract_lets n
  split
  next s1 ls heq =>
  have e : Memory.wf s1.mem = true := wf_of_eq heq (by simpa using h)
  split
  next heq => exact lanesRes_canon heq
  dsimp only
  split
  · split <;> simp [e]
  split
  · trivial
  split
  · split
    · exact poisonRes_canon ..
    split
    next heq => simpa using wf_of_eq heq (by simpa using e)
    next heq => simpa using wf_of_eq heq (by simpa using e)
  · simp [e]

theorem storeBody_canon {g : Grp} {f : MWord} {scalar : Bool} {s : State} {k : Group} {act : W32} (h : Memory.wf s.mem = true) :
    (storeBody g f scalar s k act).Canon := by
  unfold storeBody
  extract_lets n
  split
  next s1 ls heq =>
  have e : Memory.wf s1.mem = true := wf_of_eq heq (by simpa using h)
  split
  next heq => exact lanesRes_canon heq
  dsimp only
  (repeat' split) <;> simp [e]

theorem atomL1_canon {g : Grp} {f : MWord} {scalar : Bool} {x : W64} {as : List (ℕ × ℕ × ℕ × W64)} {s : State} {k : Group}
    (h : Memory.wf s.mem = true) : (atomL1 g f scalar x as s k).Canon := by
  unfold atomL1
  extract_lets ls
  split
  · split
    · trivial
    split
    next heq => simpa [foldl_mem] using wf_of_eq heq (by simpa using h)
  · refine (Res.canon_stall _).2 (foldl_wf _ _ _ h fun s l hs => ?_)
    split <;> simp [hs]

theorem atomLarder_canon {g : Grp} {f : MWord} {scalar : Bool} {x : W64} {s : State} {k : Group} {act : W32} (h : Memory.wf s.mem = true) :
    (atomLarder g f scalar x s k act).Canon := by
  unfold atomLarder
  dsimp only
  split
  next heq => exact lanesRes_canon heq
  (repeat' split) <;> simp [h]

theorem atomBody_canon {g : Grp} {f : MWord} {scalar : Bool} {s : State} {k : Group} {act : W32} (h : Memory.wf s.mem = true) :
    (atomBody g f scalar s k act).Canon := by
  unfold atomBody
  extract_lets x
  split
  · trivial
  split
  · exact atomLarder_canon h
  split
  next s1 ls heq =>
  have e : Memory.wf s1.mem = true := wf_of_eq heq (by simpa using h)
  split
  next heq => exact lanesRes_canon heq
  dsimp only
  split
  · trivial
  split
  · exact atomL1_canon e
  split
  · trivial
  · simpa [atomNear] using e

theorem lldBody_canon {g : Grp} {f : MWord} {s : State} {k : Group} {act : W32} (h : Memory.wf s.mem = true) :
    (lldBody g f s k act).Canon := by
  unfold lldBody
  dsimp only
  split
  next heq => exact lanesRes_canon heq
  (repeat' split) <;> simp [h]

theorem larderLane_canon {n i v : ℕ} {r : Res} (h : larderLane n i v = .bad r) : r.Canon := by
  unfold larderLane at h
  split at h
  · cases h; trivial
  split at h
  · cases h; trivial
  · cases h

theorem lldRBody_canon {g : Grp} {f : MWord} {s : State} {k : Group} {act : W32} (h : Memory.wf s.mem = true) :
    (lldRBody g f s k act).Canon := by
  unfold lldRBody
  dsimp only
  split
  next heq => exact larderLane_canon heq
  (repeat' split) <;> simp [h]

theorem readDesc_canon {s s1 : State} {g : Grp} {k : Group} {v : ℕ} {r : Res} (h : Memory.wf s.mem = true)
    (hr : readDesc s g k v = (s1, .inl r)) : r.Canon := by
  unfold readDesc at hr
  split at hr
  · cases hr; trivial
  · cases hr; trivial
  next heq =>
    have e := wf_of_eq heq (by simpa using h)
    dsimp only at hr
    split at hr
    · cases hr; trivial
    split at hr
    · cases hr; trivial
    split at hr
    · cases hr; trivial
    split at hr
    · cases hr; exact poisonRes_canon ..
    split at hr
    next heq => cases hr; exact wf_of_eq heq (by simpa using e)
    · cases hr

theorem readDescs_canon {g : Grp} {k : Group} {invalid : Res} (hi : invalid.Canon) : ∀ {vs : List ℕ} {s s1 : State} {r : Res},
    Memory.wf s.mem = true → readDescs g k invalid s vs = (s1, .inl r) → r.Canon
  | [], _, _, _, _, hr => by cases hr
  | v :: vs, s, s1, r, h, hr => by
    unfold readDescs at hr
    split at hr
    · cases hr; exact hi
    split at hr
    next heq => cases hr; exact readDesc_canon h heq
    next s2 _ heq =>
      have e : Memory.wf s2.mem = true := (readDesc_mem s g k v ▸ congrArg (·.1.mem) heq : s.mem = s2.mem) ▸ h
      split at hr
      next heq => cases hr; exact readDescs_canon hi e heq
      · cases hr

theorem millBody_canon {fn : ℕ} {g : Grp} {f : RWord} {s : State} {k : Group} {act : W32} (h : Memory.wf s.mem = true) :
    (millBody fn g f s k act).Canon := by
  unfold millBody
  extract_lets invalid v
  split
  · trivial
  split
  next heq => exact readDescs_canon (Res.canon_fault ..) h heq
  next s1 _ heq =>
  have e : Memory.wf s1.mem = true := wf_of_eq heq (by simpa using h)
  dsimp only
  split
  · trivial
  split
  next heq => exact readDescs_canon (Res.canon_fault ..) e heq
  next s2 _ heq =>
  have e2 : Memory.wf s2.mem = true := wf_of_eq heq (by simpa using e)
  split
  · trivial
  split
  · trivial
  · simpa using e2

theorem sieveBody_canon {fn : ℕ} {g : Grp} {f : RWord} {s : State} {k : Group} {act : W32} (h : Memory.wf s.mem = true) :
    (sieveBody fn g f s k act).Canon := by
  unfold sieveBody
  extract_lets invalid v
  split
  · trivial
  split
  next heq => exact readDescs_canon (Res.canon_fault ..) h heq
  next s1 _ heq =>
  have e : Memory.wf s1.mem = true := wf_of_eq heq (by simpa using h)
  dsimp only
  split
  · trivial
  split
  next heq => exact readDescs_canon (Res.canon_fault ..) e heq
  next s2 _ heq =>
  have e2 : Memory.wf s2.mem = true := wf_of_eq heq (by simpa using e)
  split
  · trivial
  split
  · trivial
  · simpa using e2

theorem maccBody_canon {need : Need} {act : State → Grp → Group → ℕ → ℕ → State} {g : Grp} {f : RWord} {s : State} {k : Group} {m : W32}
    (h : Memory.wf s.mem = true) (ha : ∀ s k v t, Memory.wf s.mem = true → Memory.wf (act s g k v t).mem = true) :
    (maccBody need act g f s k m).Canon := by
  unfold maccBody
  dsimp only
  split
  · trivial
  split
  · trivial
  split
  · trivial
  split
  next heq => exact wf_of_eq heq (by simpa using h)
  · trivial
  next heq => exact ha _ _ _ _ (wf_of_eq heq (by simpa using h))

theorem withTally_canon {s : State} {k : Group} {f : RWord} {body : ℕ → Res} (hb : ∀ n, (body n).Canon) : (withTally s k f body).Canon := by
  unfold withTally
  dsimp only
  split
  · trivial
  split
  · trivial
  · exact hb _

theorem targetFault_canon {k : Group} {f : RWord} {i : ℕ} {r : Res} (h : targetFault k f i = some r) : r.Canon := by
  unfold targetFault at h
  dsimp only at h
  (repeat' split at h) <;> cases h <;> trivial

theorem xBranch_canon {g : Grp} {f : RWord} {reconv : VAddr} {link : Bool} {s : State} {k : Group} {act : W32} (h : Memory.wf s.mem = true) :
    (xBranch g f reconv link s k act).Canon := by
  unfold xBranch
  split
  next heq =>
    obtain ⟨i, -, hi⟩ := List.exists_of_findSome?_eq_some heq
    exact targetFault_canon hi
  split
  · simpa [backStall] using h
  · simpa using h

theorem execLd_canon (g : Grp) (f : MWord) {s : State} (h : Memory.wf s.mem = true) : Canon (execLd g f s) :=
  canon_next.2 (issuePf_wf h (fun _ _ _ h => loadBody_canon h) fun _ _ => (loadPf_mem ..).symm ▸ h)

theorem execSld_canon (g : Grp) (f : MWord) {s : State} (h : Memory.wf s.mem = true) : Canon (execSld g f s) :=
  canon_next.2 (issuePf_wf h (fun _ _ _ h => loadBody_canon h) fun _ _ => (loadPf_mem ..).symm ▸ h)

theorem execPf_canon (g : Grp) (f : MWord) {s : State} (h : Memory.wf s.mem = true) : Canon (execPf g f s) :=
  canon_next.2 (issuePf_wf h (fun _ _ _ h => foldl_wf _ _ _ h fun _ _ hs => by simp [hs])
    fun _ _ => foldl_wf _ _ _ h fun _ _ hs => by simp [hs])

theorem execLld_canon (g : Grp) (f : MWord) {s : State} (h : Memory.wf s.mem = true) : Canon (execLld g f s) :=
  canon_next.2 (issuePf_wf h (fun _ _ _ h => lldBody_canon h) fun _ _ => (larderPf_mem ..).symm ▸ h)

theorem execLldR_canon (g : Grp) (f : MWord) {s : State} (h : Memory.wf s.mem = true) : Canon (execLldR g f s) :=
  canon_next.2 (issuePf_wf h (fun _ _ _ h => lldRBody_canon h) fun _ _ => (larderPf_mem ..).symm ▸ h)

theorem execLst_canon (g : Grp) (f : MWord) {s : State} (h : Memory.wf s.mem = true) : Canon (execLst g f s) :=
  issue_canon h fun s k act h => by
    dsimp only
    split
    next heq => exact lanesRes_canon heq
    split <;> simp [h]

theorem execLstR_canon (g : Grp) (f : MWord) {s : State} (h : Memory.wf s.mem = true) : Canon (execLstR g f s) :=
  issue_canon h fun s k act h => by
    split
    next heq => exact larderLane_canon heq
    (repeat' split) <;> simp [h]

theorem execMaccRd_canon (g : Grp) (f : RWord) {s : State} (h : Memory.wf s.mem = true) : Canon (execMaccRd g f s) :=
  issue_canon h fun _ _ _ h => maccBody_canon h fun _ _ _ _ hs => virtWrite_wf _ _ _ _ hs

theorem execMaccWr_canon (g : Grp) (f : RWord) {s : State} (h : Memory.wf s.mem = true) : Canon (execMaccWr g f s) :=
  issue_canon h fun s k act h => maccBody_canon h fun _ _ _ _ hs => by simpa using hs

theorem tlyArith_canon (op : TallyOp) (g : Grp) (f : RWord) {s : State} (h : Memory.wf s.mem = true) : Canon (tlyArith op g f s) :=
  issue_canon h fun s k act h => by
    split
    · trivial
    · exact withTally_canon fun n => by simp [h]

theorem execTlyRead_canon (g : Grp) (f : RWord) {s : State} (h : Memory.wf s.mem = true) : Canon (execTlyRead g f s) :=
  issue_canon h fun s k act h => withTally_canon fun n => by simp [h]

theorem execTlyWatch_canon (g : Grp) (f : RWord) {s : State} (h : Memory.wf s.mem = true) : Canon (execTlyWatch g f s) :=
  issue_canon h fun s k act h => withTally_canon fun n => by
    have hreg : ∀ {r a s1 o}, register s n k.ctx (k.opS f.ext f.b).toNat (tlyCmp f.mod) r a = (s1, o) → Memory.wf s1.mem = true :=
      fun heq => wf_of_eq heq (by simpa using h)
    dsimp only
    split
    · split
      next heq => simpa using hreg heq
      next heq => split <;> simpa using hreg heq
    · split
      · simpa using h
      split
      next heq => simpa using hreg heq
      next heq => simpa using hreg heq
    · split
      next heq => simpa using hreg heq
      next heq => simpa using hreg heq
    · split
      next heq => simpa using hreg heq
      next heq => simpa using hreg heq

theorem laneAccess_canon {s s1 : State} {g : Grp} {k : Group} {need : Need} {n : ℕ} {attr : W64 → ℕ → Bool} {i v : ℕ} {r : Res}
    (h : laneAccess s g k need n attr i v = (s1, .bad r)) : r.Canon := by
  unfold laneAccess at h
  (repeat' split at h) <;> cases h <;> trivial

theorem execSpin_canon (g : Grp) (f : RWord) {s : State} (h : Memory.wf s.mem = true) : Canon (execSpin g f s) :=
  issue_canon h fun s k act h => by
    extract_lets v
    split
    next heq => exact laneAccess_canon heq
    next s1 _ _ _ _ heq =>
    have e : Memory.wf s1.mem = true := wf_of_eq heq (by simpa using h)
    split
    · trivial
    split
    · exact poisonRes_canon ..
    split
    · exact (Res.canon_stall _).2 (foldl_wf _ _ _ e fun _ _ hs => by simp [hs])
    split
    next heq => exact wf_of_eq heq (by simpa using e)
    next heq =>
      have e2 := wf_of_eq heq (by simpa using e)
      split <;> simpa using e2

theorem fenceIssue_canon (hold : State → Group → Bool) (g : Grp) (f : RWord) {s : State} (h : Memory.wf s.mem = true) :
    Canon (fenceIssue hold g f s) :=
  issue_canon h fun s k act h => by
    (repeat' split) <;> simp [fencePass, h]

theorem execIllegalOpcode_canon (g : Grp) (w : W64) (x : Option W64) {s : State} (h : Memory.wf s.mem = true) :
    Canon (execIllegalOpcode g w x s) := by
  fun_cases execIllegalOpcode g w x s with
  | case1 => simpa using h
  | case2 => exact issue_canon h fun _ _ _ _ => trivial

theorem execWrcr_canon (g : Grp) (f : IWord) {s : State} (h : Memory.wf s.mem = true) : Canon (execWrcr g f s) :=
  issue_canon h fun s k act h => by
    split
    · simpa using h
    · trivial

theorem execBra_canon (g : Grp) (f : BWord) {s : State} (h : Memory.wf s.mem = true) : Canon (execBra g f s) :=
  issue_canon h fun s k act h => by
    dsimp only
    (repeat' split) <;> simp [backStall, h]

theorem execCall_canon (g : Grp) (f : BWord) {s : State} (h : Memory.wf s.mem = true) : Canon (execCall g f s) :=
  issue_canon h fun s k act h => by
    (repeat' split) <;> simp [backStall, h]

theorem execExitOp_canon (g : Grp) (f : RWord) {s : State} (h : Memory.wf s.mem = true) : Canon (execExitOp g f s) :=
  issue_canon h fun s k act h => by
    dsimp only
    (repeat' split) <;> simp [h]

theorem execTlyCancel_canon (g : Grp) (f : RWord) {s : State} (h : Memory.wf s.mem = true) : Canon (execTlyCancel g f s) :=
  issue_canon h fun s k act h => by
    dsimp only
    (repeat' split) <;> simp [h]

/-! ## The commands -/

theorem runCmd_canon {cmd mb : ℕ} {s : State} {body : State → ℕ → List Byte → State} (h : Memory.wf s.mem = true)
    (hb : ∀ s c pl, Memory.wf s.mem = true → Memory.wf (body s c pl).mem = true) : Canon (runCmd cmd mb s body) := by
  fun_cases runCmd cmd mb s body <;> simp [h, hb]

theorem sideband_canon {code : ℕ} {m : SbMsg} {fits : List Byte → Bool} {s : State} {body : State → List Byte → State}
    (h : Memory.wf s.mem = true)
    (hb : ∀ s pl, Memory.wf s.mem = true → Memory.wf (body s pl).mem = true) : Canon (sideband code m fits s body) := by
  fun_cases sideband code m fits s body <;> simp [h, hb]

theorem receive_canon {typ code : ℕ} {f : Frame} {s : State} (h : Memory.wf s.mem = true) : Canon (receive typ code f s) := by
  fun_cases receive typ code f s <;> simp [h]

theorem startEntry_canon {op qi k : ℕ} {s : State} {body : State → Queue → TlbStruct → List Byte → State × Option EntryPhase}
    (h : Memory.wf s.mem = true)
    (hb : ∀ s q st e, Memory.wf s.mem = true → Memory.wf (body s q st e).1.mem = true) : Canon (startEntry op qi k s body) := by
  unfold startEntry
  split
  · simpa using h
  extract_lets +onlyGivenNames st v
  split
  · simpa using h
  split
  next heq => simpa [mem_of_eq heq (reach_mem ..)] using h
  next heq => simpa [mem_of_eq heq (reach_mem ..)] using h
  next s1 heq =>
    have e : Memory.wf s1.mem = true := by simpa [mem_of_eq heq (reach_mem ..)] using h
    extract_lets en eop busy put
    have hput : ∀ (u : State) p, (put u p).mem = u.mem := fun u p => by
      simp only [put]
      split <;> simp
    split
    · simpa using e
    split
    · simpa [hput] using e
    split
    next heq => simpa using wf_of_eq heq (hb _ _ _ _ e)
    next heq => simpa [hput] using wf_of_eq heq (hb _ _ _ _ e)

theorem headStore_wf {s s1 : State} {p : ℕ} {x : EpochStore} (h : Memory.wf s.mem = true) (heq : headStore s p = some (x, s1)) :
    Memory.wf s1.mem = true :=
  (headStore_mem s p heq : s1.mem = s.mem) ▸ h

theorem onCommand_canon {s : State} {p op : ℕ} {act : State → EpochStore → State} (h : Memory.wf s.mem = true)
    (hb : ∀ s x, Memory.wf s.mem = true → Memory.wf (act s x).mem = true) : Canon (onCommand s p op act) := by
  fun_cases onCommand s p op act with
  | case1 => simpa using h
  | case2 => simpa using h
  | case3 x s1 heq => simpa using headStore_wf h heq
  | case4 x s1 heq => simpa using hb s1 x (headStore_wf h heq)

theorem atHome_canon {kind : MsgKind} {core line : ℕ} {s : State} {act : State → Msg → State} (h : Memory.wf s.mem = true)
    (hb : ∀ s m, Memory.wf s.mem = true → Memory.wf (act s m).mem = true) : Canon (atHome kind core line s act) := by
  fun_cases atHome kind core line s act <;> simp [h, hb]

theorem atCore_canon {kind : MsgKind} {core line : ℕ} {s : State} {act : State → Msg → State} (h : Memory.wf s.mem = true)
    (hb : ∀ s m, Memory.wf s.mem = true → Memory.wf (act s m).mem = true) : Canon (atCore kind core line s act) := by
  fun_cases atCore kind core line s act <;> simp [h, hb]

theorem requestAtHome_canon {kind : MsgKind} {core line : ℕ} {s : State} (h : Memory.wf s.mem = true) :
    Canon (requestAtHome kind core line s) := by
  unfold requestAtHome
  dsimp only
  (repeat' split) <;> simp [h]

theorem onRunning_canon {s : State} {g : Grp} {f : Group → Group} (h : Memory.wf s.mem = true) : Canon (onRunning s g f) := by
  fun_cases onRunning s g f <;> simp [h]

theorem resumed_canon {r : Host.Outcome State Fault Refusal} (h : Canon r) : Canon (resumed r) := by
  cases r with
  | next s => exact canon_next.2 (resumeFolest_wf (canon_next.1 h))
  | fault _ => intro t ht; cases ht
  | refused _ => intro t ht; cases ht

theorem execPathSwitch_canon (g : Grp) (entry : Nat) {s : State} (h : Memory.wf s.mem = true) :
    Canon (execPathSwitch g entry s) := onRunning_canon h

theorem execSpinTimeout_canon (g : Grp) (entry : Nat) {s : State} (h : Memory.wf s.mem = true) :
    Canon (execSpinTimeout g entry s) := onRunning_canon h

theorem capIfChanged_wf {s new : State} (h : Memory.wf new.mem = true) : Memory.wf (capIfChanged s new).mem = true := by
  unfold capIfChanged
  split <;> simp [h]

theorem ownTally_wf {s : State} {mb c t : ℕ} {act : ℕ → State} (h : Memory.wf s.mem = true) (ha : ∀ n, Memory.wf (act n).mem = true) :
    Memory.wf (ownTally s mb c t act).mem = true := by
  unfold ownTally
  (repeat' split) <;> simp [h, ha]

theorem execLoadDataArrival_canon (g : Grp) (load : Nat) {s : State} (h : Memory.wf s.mem = true) : Canon (execLoadDataArrival g load s) := by
  fun_cases execLoadDataArrival g load s with
  | case8 =>
    next heq => simpa [mem_of_eq heq (readHomes_mem ..)] using h
  | case9 =>
    next heq => simpa [mem_of_eq heq (readHomes_mem ..)] using h
  | _ => simp [h]

theorem execMillOpStart_canon (core : Nat) {s : State} (h : Memory.wf s.mem = true) : Canon (execMillOpStart core s) := by
  unfold execMillOpStart
  split
  · simpa using h
  dsimp only
  split
  next heq =>
    have e := mem_of_eq heq (millReach_mem ..)
    split <;> simp [e, h]
  next heq => simpa [mem_of_eq heq (millReach_mem ..)] using h
  · simpa using h

theorem execMillBlockDrain_canon (core : Nat) {s : State} (h : Memory.wf s.mem = true) : Canon (execMillBlockDrain core s) := by
  unfold execMillBlockDrain
  split
  · simpa using h
  split
  · simpa using h
  split
  next heq =>
    have e : Memory.wf _ = true := (mem_of_eq heq (millReach_mem ..)).symm ▸ h
    split
    · simpa using e
    split
    next heq =>
      have e2 := wf_of_eq heq (drainBlock_wf core _ e)
      rw [canon_next]
      split <;> assumption
  next heq => simpa [mem_of_eq heq (millReach_mem ..)] using h
  · simpa using h

theorem execEpochCommandRefused_canon (part : Nat) {s : State} (h : Memory.wf s.mem = true) : Canon (execEpochCommandRefused part s) := by
  fun_cases execEpochCommandRefused part s with
  | case1 => simpa using h
  | case2 x s1 heq => simpa using headStore_wf h heq
  | case3 x s1 heq => simpa using headStore_wf h heq
  | case4 => simpa using h

theorem execPoolFold_canon (hall : Nat) {s : State} (h : Memory.wf s.mem = true) : Canon (execPoolFold hall s) := by
  have e := foldl_wf (fun s l => foldCommitted s hall l) (distinct ((s.slice hall).pool.map (·.line))) s h fun s l hs => by simp [hs]
  unfold execPoolFold
  simpa using e

theorem execPageMoveRequest_canon (frame : BitVec 48) (group : Nat) {s : State} (h : Memory.wf s.mem = true) :
    Canon (execPageMoveRequest frame group s) := by
  unfold execPageMoveRequest
  extract_lets f
  split
  · simpa using h
  split
  · simpa using h
  split
  · simpa using h
  split
  · simpa using h
  next heq => simpa using startMove_wf _ _ _ _ _ (takeIn_wf _ _ _ _ _ h heq)

theorem execPageCopyDone_canon (move : Nat) {s : State} (h : Memory.wf s.mem = true) : Canon (execPageCopyDone move s) := by
  unfold execPageCopyDone
  split
  · simpa using h
  split
  · simpa using h
  split
  · simp [h]
  split
  · simp [h]
  extract_lets +onlyGivenNames f ls s0 s1 frame s2 swap n old s3
  have e1 : Memory.wf s1.mem = true := copyBytes_wf _ _ _ _ (by simpa [s0] using h)
  have e2 : Memory.wf s2.mem = true := foldl_wf _ _ _ e1 fun _ _ hs => by simp [hs]
  have e3 : Memory.wf s3.mem = true := (freeExtent_mem s2 f).symm ▸ e2
  exact canon_next.2 (resumeFolest_wf (by simpa using e3))

theorem execPutm_canon (core line : Nat) {s : State} (h : Memory.wf s.mem = true) : Canon (execPutm core line s) := by
  unfold execPutm
  dsimp only
  split
  · simpa using h
  refine atHome_canon h fun s m h => ?_
  (repeat' split) <;> simp [h]

theorem execCtxCreate_canon (mb : Nat) {s : State} (h : Memory.wf s.mem = true) : Canon (execCtxCreate mb s) := runCmd_canon h fun s c pl h => by
  dsimp only
  split
  · simp [h]
  split
  · simp [h]
  split
  · simp [h]
  split
  · simp [h]
  next s1 _ heq =>
    have hgen : s1.mem = s.mem := takeGen_mem _ heq
    have e : Memory.wf s1.mem = true := hgen ▸ h
    split
    · simp [h]
    split
    · simp [h]
    split
    · simp [h]
    next heq => simpa using buildContext_wf _ _ e heq

theorem execMemCreate_canon (mb : Nat) {s : State} (h : Memory.wf s.mem = true) : Canon (execMemCreate mb s) := runCmd_canon h fun s c pl h => by
  extract_lets p bytes kind page nomove mask hs badBin size n room
  split
  · simp [h]
  split
  · simp [h]
  split
  · simp [h]
  next s1 ps heq =>
    have e : Memory.wf s1.mem = true := by
      split at heq
      · cases heq
      split at heq
      · exact takeBins_wf _ _ _ h heq
      · exact takePages_wf _ _ _ _ h heq
    have e2 := foldl_wf (fun s a => zeroRange s a size) ps s1 e fun _ _ hs => by simp [hs]
    simpa using e2

theorem execMemMap_canon (mb : Nat) {s : State} (h : Memory.wf s.mem = true) : Canon (execMemMap mb s) := runCmd_canon h fun s c pl h => by
  dsimp only
  split
  · exact h
  split
  · simp [h]
  split
  · simp [h]
  split
  · simp [h]
  (iterate 6 (split; · simp [h]))
  split
  · simp [h]
  next heq => simpa using mapPages_wf _ _ _ _ _ _ h heq

theorem execCommonsCreate_canon (mb : Nat) {s : State} (h : Memory.wf s.mem = true) :
    Canon (execCommonsCreate mb s) := runCmd_canon h fun s c pl h => by
  extract_lets +onlyGivenNames n
  obtain ⟨r, hr⟩ : ∃ r, (if (s.groupsOfMode 12 4).length * groupBytes < n * 65536 then none else takeCommons s n) = r := ⟨_, rfl⟩
  rw [hr]
  have hnone : ∀ st out, Memory.wf (respond s mb st out).mem = true := fun st out => (respond_mem ..).symm ▸ h
  cases s.freeObjIndex with
  | none => exact hnone _ _
  | some i =>
  cases r with
  | none => exact hnone _ _
  | some x =>
    have e : Memory.wf x.1.mem = true := by
      by_cases hroom : (s.groupsOfMode 12 4).length * groupBytes < n * 65536
      · rw [if_pos hroom] at hr; cases hr
      · rw [if_neg hroom] at hr; exact takeCommons_wf _ h hr
    have e2 := foldl_wf (fun s a => zeroRange s a 65536) (x.2.1 ++ x.2.2.1) x.1 e fun _ _ hs => by simp [hs]
    simpa using e2

theorem execCommonsFill_canon (mb : Nat) {s : State} (h : Memory.wf s.mem = true) :
    Canon (execCommonsFill mb s) := runCmd_canon h fun s c pl h => by
  split
  · exact h
  split
  · simp [h]
  next o _ =>
  dsimp only
  split
  · simp [h]
  split
  · simp [h]
  split
  · exact h
  have e := fun l => foldl_fst_wf (fun (acc : State × W16) (p : ℕ × ℕ × ℕ) =>
          if acc.2 ≠ 0 then acc else match stewardRead acc.1 c p.1 with
            | .ok pa e => if acc.1.homeStatus pa ≠ 0 then (acc.1, acc.1.homeStatus pa)
              else ((copyBytes acc.1 (acc.1.epochOf c e) pa (o.addr p.2.1) p.2.2).1, 0)
            | .fault st => (acc.1, st)
            | .moving => acc) l (s, 0) h fun r x hr => by
    (repeat' split) <;> simp [hr]
  rw [respond_mem]
  split
  · exact e _
  · exact h

theorem execCommonsSeal_canon (mb : Nat) {s : State} (h : Memory.wf s.mem = true) :
    Canon (execCommonsSeal mb s) := runCmd_canon h fun s c pl h => by
  dsimp only
  split
  · simp [h]
  split
  · simp [h]
  next o _ _ =>
  have e := fun l => foldl_wf (fun (s : State) i => (copyBytes s none (o.addr (65536 * i)) (((nth? o.refPages i).map (·.toNat)).getD 0) 65536).1) l s h
    fun _ _ hs => by simp [hs]
  rw [respond_mem, measure_mem]
  exact State.write_wf _ _ (e _)

theorem execQueueCreate_canon (mb : Nat) {s : State} (h : Memory.wf s.mem = true) :
    Canon (execQueueCreate mb s) := runCmd_canon h fun s c pl h => by
  dsimp only
  split
  · simp [h]
  split
  · split
    · simp [h]
    split
    · simp [h]
    split
    next heq => simpa using setLeaf_wf _ _ _ _ _ _ (by simpa using h) heq
    · simp [h]
  · simp [h]

theorem execQueueDestroy_canon (mb : Nat) {s : State} (h : Memory.wf s.mem = true) :
    Canon (execQueueDestroy mb s) := runCmd_canon h fun s c pl h => by
  dsimp only
  split
  · simp [h]
  split
  · exact h
  next s2 heq =>
    have e : Memory.wf s2.mem = true := by
      split at heq
      · exact withdrawSlot_wf _ h heq
      · cases heq; exact h
    simp [e]

theorem execStationDeclare_canon (mb : Nat) {s : State} (h : Memory.wf s.mem = true) :
    Canon (execStationDeclare mb s) := runCmd_canon h fun s c pl h => by
  dsimp only
  split
  · simp [h]
  split
  · simp [h]
  split
  · simp [h]
  split
  · simp [h]
  split
  · simp [h]
  next heq =>
    have e := makeStation_wf _ _ _ _ h heq
    split
    · split
      next heq =>
        have e2 : Memory.wf _ = true := (placeAll_mem _ _ _ heq).symm ▸ becomeResident_wf _ e
        simp [e2]
      · simp [h]
    · simpa using e

theorem execStationRemove_canon (mb : Nat) {s : State} (h : Memory.wf s.mem = true) : Canon (execStationRemove mb s) := by
  fun_cases execStationRemove mb s with
  | case5 =>
    refine runCmd_canon h fun s c pl h => ?_
    dsimp only
    split
    · simp [h]
    · exact removeStep_wf _ _ _ (by simpa using h)
  | _ => simp [h]

theorem execTallyFree_canon (mb : Nat) {s : State} (h : Memory.wf s.mem = true) :
    Canon (execTallyFree mb s) := runCmd_canon h fun s c pl h => ownTally_wf h fun n => by
  dsimp only
  split <;> simp [h]

theorem execTallySet_canon (mb : Nat) {s : State} (h : Memory.wf s.mem = true) :
    Canon (execTallySet mb s) := runCmd_canon h fun s c pl h => ownTally_wf h fun n => by simp [h]

theorem execTallyExport_canon (mb : Nat) {s : State} (h : Memory.wf s.mem = true) :
    Canon (execTallyExport mb s) := runCmd_canon h fun s c pl h => ownTally_wf h fun n => by
  dsimp only
  split <;> simp [h]

theorem execPartQuiesce_canon (mb : Nat) {s : State} (h : Memory.wf s.mem = true) : Canon (execPartQuiesce mb s) := by
  fun_cases execPartQuiesce mb s with
  | case1 => simpa using h
  | case2 =>
    rw [canon_next]
    split
    · exact quiesceStep_wf _ _ h
    · exact h
  | case3 =>
    refine runCmd_canon h fun s c pl h => ?_
    dsimp only
    split
    · simp [h]
    split
    · simp [h]
    · simp [h]
    · simp [h]
    split
    · simp [h]
    · refine quiesceStep_wf _ _ (foldl_wf _ _ _ (by simpa using h) fun s c hs => ?_)
      (repeat' split) <;> simp [hs]

theorem execPartReset_canon (mb : Nat) {s : State} (h : Memory.wf s.mem = true) : Canon (execPartReset mb s) := by
  fun_cases execPartReset mb s with
  | case1 => simpa using h
  | case2 => simp [h]
  | case3 =>
    refine runCmd_canon h fun s c pl h => ?_
    dsimp only
    (repeat' split) <;> simp [h]

theorem execQueueCopy_canon (queue entry : Nat) {s : State} (h : Memory.wf s.mem = true) :
    Canon (execQueueCopy queue entry s) := startEntry_canon h fun _ _ _ _ h => transfer_wf _ _ _ _ _ h

theorem execQueueFill_canon (queue entry : Nat) {s : State} (h : Memory.wf s.mem = true) :
    Canon (execQueueFill queue entry s) := startEntry_canon h fun _ _ _ _ h => transfer_wf _ _ _ _ _ h

theorem execQueueSlotRotate_canon (part : Nat) {s : State} (h : Memory.wf s.mem = true) : Canon (execQueueSlotRotate part s) := by
  unfold execQueueSlotRotate
  extract_lets back s1 s2
  have e1 : Memory.wf s1.mem = true := foldl_wf _ _ _ h fun s e hs => by
    cases hw : withdrawSlot s e.1 with
    | none => exact hs
    | some u => exact withdrawSlot_wf _ hs hw
  have e2 : Memory.wf s2.mem = true := giveSlots_wf _ e1
  rw [canon_next]
  refine foldl_wf _ _ _ e2 fun s e hs => ?_
  split
  · exact hs
  split
  next heq => exact grantSlot_wf _ _ (withdrawSlot_wf _ hs heq)
  · exact hs

theorem execNotifyBellWrite_canon (watch : Nat) {s : State} (h : Memory.wf s.mem = true) : Canon (execNotifyBellWrite watch s) := by
  fun_cases execNotifyBellWrite watch s with
  | case5 =>
    rw [canon_next, freeWatch_mem, tallyApply_mem]
    exact foldl_wf _ _ _ h fun _ _ hs => State.write_wf _ _ hs
  | _ => simp [h]

theorem execSessionGraceExpiry_canon {s : State} (h : Memory.wf s.mem = true) : Canon (execSessionGraceExpiry s) := by
  fun_cases execSessionGraceExpiry s with
  | case1 => simpa using h
  | case2 =>
    rw [canon_next]
    exact foldl_wf _ _ _ h fun _ _ hs => startDestroy_wf _ _ hs

theorem execPowerCapInterval_canon (watts : Nat) {s : State} (h : Memory.wf s.mem = true) : Canon (execPowerCapInterval watts s) := by
  unfold execPowerCapInterval
  split
  · simpa using h
  dsimp only
  split
  · simp [h]
  split
  · simp [h]
  split
  · split
    · simp [h]
    split
    next heq =>
      rw [canon_next, raiseClocks_mem _ heq]
      simp [h]
    · simp [h]
  · simp [h]

theorem execCommonsRepaired_canon (obj block : Nat) {s : State} (h : Memory.wf s.mem = true) : Canon (execCommonsRepaired obj block s) := by
  unfold execCommonsRepaired
  split
  · simpa using h
  split
  · simpa using h
  split
  · simp [h]
  dsimp only
  split
  · simp [h]
  split
  · simp [h]
  next s1 _ _ heq =>
    have e : Memory.wf s1.mem = true := takeFirst_wf _ _ _ _ _ (by exact h) heq
    rw [canon_next]
    exact resumeFolest_wf (by simpa using rewriteBlock_wf _ _ _ (relocateBlock_wf _ _ _ _ e))

theorem execEndpointDead_canon (e : EndPoint) {s : State} (h : Memory.wf s.mem = true) : Canon (execEndpointDead e s) := by
  unfold execEndpointDead
  split
  · simpa using h
  extract_lets +onlyGivenNames n s1 s2 s3 s4 s5
  have e1 : s1.mem = s.mem := markDead_mem ..
  have e2 : s2.mem = s1.mem := foldl_mem _ _ _ fun _ _ => endRequests_mem ..
  have e3 : s3.mem = s.mem := (foldl_mem _ _ _ fun _ _ => loseCtx_mem ..).trans ((loseSlice_mem ..).trans (e2.trans e1))
  have e4 : Memory.wf s4.mem = true := capIfChanged_wf (by simpa [e3] using h)
  simpa [s5] using e4

theorem execMemoryTrainingDone_canon (badGroups badDies : List Nat) {s : State} (h : Memory.wf s.mem = true) :
    Canon (execMemoryTrainingDone badGroups badDies s) := by
  unfold execMemoryTrainingDone
  split
  · simpa using h
  extract_lets +onlyGivenNames gs ds old s1 s2
  have e2 : s2.mem = s1.mem := foldl_mem _ _ _ fun _ _ => event_mem ..
  rw [canon_next, foldl_mem _ _ _ fun _ _ => event_mem .., e2]
  rfl

theorem execPartitionRestore_canon {s : State} (h : Memory.wf s.mem = true) : Canon (execPartitionRestore s) := by
  unfold execPartitionRestore
  split
  · simpa using h
  have e := foldl_wf (fun s (e : ℕ × Partition) => restorePart s e.1 e.2) s.flash.parts s h fun _ _ hs => restorePart_wf _ _ hs
  simpa using e

theorem execQueueWaitRetry_canon (queue : Nat) {s : State} (h : Memory.wf s.mem = true) : Canon (execQueueWaitRetry queue s) := by
  unfold execQueueWaitRetry
  split
  · simpa using h
  split
  · simpa using h
  split
  · simpa using h
  extract_lets st
  split
  next heq => simpa [mem_of_eq heq (reach_mem ..)] using h
  next heq => simpa [mem_of_eq heq (reach_mem ..)] using h
  next heq => simpa [mem_of_eq heq (reach_mem ..)] using h

end Sys2Proof.Machine

end

section

/-! PROOFS. Every command, and so every step, keeps memory in its canonical form. -/

namespace Sys2Proof.Machine

open Sys2Proof.Claims Sys2Proof.Laws

/-! ## The commands of the coherence messages and of the mailboxes -/

theorem victimAccepted_canon (hall line : ℕ) {s : State} (h : Memory.wf s.mem = true) : Canon (victimAccepted hall line s) := by
  unfold victimAccepted
  dsimp only
  (repeat' split) <;> simp [h]

theorem invAckArrives_canon (core line : ℕ) {s : State} (h : Memory.wf s.mem = true) : Canon (invAckArrives core line s) := by
  fun_cases invAckArrives core line s with
  | case1 =>
    rw [canon_next]
    (repeat' split) <;> simp +zetaDelta [h]
  | case2 =>
    refine atCore_canon h fun s m h => ?_
    split <;> simp [h]

theorem dataHomeArrives_canon (core line : ℕ) {s : State} (h : Memory.wf s.mem = true) : Canon (dataHomeArrives core line s) := by
  unfold dataHomeArrives
  split
  · simpa using h
  refine atHome_canon h fun s m h => ?_
  (repeat' split) <;> simp [h]

theorem dataInFlightArrives_canon (core line : ℕ) {s : State} (h : Memory.wf s.mem = true) : Canon (dataInFlightArrives core line s) := by
  unfold dataInFlightArrives
  split
  · simpa using h
  refine atHome_canon h fun s m h => ?_
  split
  · simp [h]
  extract_lets +onlyGivenNames s1 t1
  have e : Memory.wf s1.mem = true := by
    simp only [s1]
    split <;> simp [h]
  split <;> simp [e]

theorem doneArrives_canon (core line : ℕ) {s : State} (h : Memory.wf s.mem = true) : Canon (doneArrives core line s) := by
  refine atHome_canon h fun s m h => ?_
  (repeat' split) <;> simp [h]

theorem execCtxSet_canon (mb) {s : State} (h : Memory.wf s.mem = true) : Canon (execCtxSet mb s) :=
  runCmd_canon h fun s c pl h => by
    dsimp only
    (repeat' split) <;> simp [h]

theorem execBellLogRead_canon (mb) {s : State} (h : Memory.wf s.mem = true) : Canon (execBellLogRead mb s) :=
  runCmd_canon h fun s c pl h => by
    dsimp only
    (repeat' split) <;> simp [h]

theorem execParkRead_canon (mb) {s : State} (h : Memory.wf s.mem = true) : Canon (execParkRead mb s) :=
  runCmd_canon h fun s c pl h => by
    dsimp only
    (repeat' split) <;> simp [h]

theorem execMemUnmap_canon (mb) {s : State} (h : Memory.wf s.mem = true) : Canon (execMemUnmap mb s) :=
  runCmd_canon h fun s c pl h => by
    dsimp only
    (repeat' split) <;> simp [h]

theorem execMemShare_canon (mb) {s : State} (h : Memory.wf s.mem = true) : Canon (execMemShare mb s) :=
  runCmd_canon h fun s c pl h => by
    dsimp only
    (repeat' split) <;> simp [h]

theorem execQueueDoorbell_canon (mb) {s : State} (h : Memory.wf s.mem = true) : Canon (execQueueDoorbell mb s) :=
  runCmd_canon h fun s c pl h => by
    dsimp only
    (repeat' split) <;> simp [h]

theorem execTallyAlloc_canon (mb) {s : State} (h : Memory.wf s.mem = true) : Canon (execTallyAlloc mb s) :=
  runCmd_canon h fun s c pl h => by
    dsimp only
    (repeat' split) <;> simp [h]

theorem execTallyImport_canon (mb) {s : State} (h : Memory.wf s.mem = true) : Canon (execTallyImport mb s) :=
  runCmd_canon h fun s c pl h => by
    dsimp only
    (repeat' split) <;> simp [h]

theorem execEpochAllot_canon (mb) {s : State} (h : Memory.wf s.mem = true) : Canon (execEpochAllot mb s) :=
  runCmd_canon h fun s c pl h => by
    dsimp only
    (repeat' split) <;> simp [h]

theorem execEpochReturn_canon (mb) {s : State} (h : Memory.wf s.mem = true) : Canon (execEpochReturn mb s) :=
  runCmd_canon h fun s c pl h => by
    dsimp only
    (repeat' split) <;> simp [h]

theorem execPartPolicy_canon (mb) {s : State} (h : Memory.wf s.mem = true) : Canon (execPartPolicy mb s) :=
  runCmd_canon h fun s c pl h => by
    dsimp only
    (repeat' split) <;> simp [h]

theorem execPartConfig_canon (mb) {s : State} (h : Memory.wf s.mem = true) : Canon (execPartConfig mb s) :=
  runCmd_canon h fun s c pl h => by
    dsimp only
    (repeat' split) <;> simp [h]

theorem execPartResume_canon (mb) {s : State} (h : Memory.wf s.mem = true) : Canon (execPartResume mb s) :=
  runCmd_canon h fun s c pl h => by
    dsimp only
    (repeat' split) <;> simp [h]

theorem execPartMoveHalls_canon (mb) {s : State} (h : Memory.wf s.mem = true) : Canon (execPartMoveHalls mb s) :=
  runCmd_canon h fun s c pl h => by
    dsimp only
    (repeat' split) <;> simp [h]

theorem execDebugDump_canon (mb) {s : State} (h : Memory.wf s.mem = true) : Canon (execDebugDump mb s) :=
  runCmd_canon h fun s c pl h => by
    dsimp only
    (repeat' split) <;> simp [h]

theorem execModuleReset_canon (m) {s : State} (h : Memory.wf s.mem = true) : Canon (execModuleReset m s) :=
  sideband_canon h fun s pl h => by
    dsimp only
    (repeat' split) <;> simp [h]

theorem execSensorRead_canon (m) {s : State} (h : Memory.wf s.mem = true) : Canon (execSensorRead m s) :=
  sideband_canon h fun s pl h => by
    dsimp only
    (repeat' split) <;> simp [h]

theorem execPowerCap_canon (m) {s : State} (h : Memory.wf s.mem = true) : Canon (execPowerCap m s) :=
  sideband_canon h fun s pl h => by
    dsimp only
    (repeat' split) <;> simp [h]

theorem execPolicy_canon (m) {s : State} (h : Memory.wf s.mem = true) : Canon (execPolicy m s) :=
  sideband_canon h fun s pl h => by
    dsimp only
    (repeat' split) <;> simp [h]

theorem execPolicyState_canon (m) {s : State} (h : Memory.wf s.mem = true) : Canon (execPolicyState m s) :=
  sideband_canon h fun s pl h => by
    dsimp only
    (repeat' split) <;> simp [h]

theorem execCounterRead_canon (m) {s : State} (h : Memory.wf s.mem = true) : Canon (execCounterRead m s) :=
  sideband_canon h fun s pl h => by
    dsimp only
    (repeat' split) <;> simp [h]

theorem execLifetimeRead_canon (m) {s : State} (h : Memory.wf s.mem = true) : Canon (execLifetimeRead m s) :=
  sideband_canon h fun s pl h => by
    dsimp only
    (repeat' split) <;> simp [h]

theorem execHistogramRead_canon (m) {s : State} (h : Memory.wf s.mem = true) : Canon (execHistogramRead m s) :=
  sideband_canon h fun s pl h => by
    dsimp only
    (repeat' split) <;> simp [h]

theorem execLogRead_canon (m) {s : State} (h : Memory.wf s.mem = true) : Canon (execLogRead m s) :=
  sideband_canon h fun s pl h => by
    dsimp only
    (repeat' split) <;> simp [h]

theorem execProvision_canon (m) {s : State} (h : Memory.wf s.mem = true) : Canon (execProvision m s) :=
  sideband_canon h fun s pl h => by
    dsimp only
    (repeat' split) <;> simp [h]

theorem execMacsecKey_canon (m) {s : State} (h : Memory.wf s.mem = true) : Canon (execMacsecKey m s) :=
  sideband_canon h fun s pl h => by
    dsimp only
    (repeat' split) <;> simp [h]

theorem execTimeSet_canon (m) {s : State} (h : Memory.wf s.mem = true) : Canon (execTimeSet m s) :=
  sideband_canon h fun s pl h => by
    dsimp only
    (repeat' split) <;> simp [h]

theorem execFwWrite_canon (m) {s : State} (h : Memory.wf s.mem = true) : Canon (execFwWrite m s) :=
  sideband_canon h fun s pl h => by
    dsimp only
    (repeat' split) <;> simp [h]

theorem execFwVerify_canon (m sig) {s : State} (h : Memory.wf s.mem = true) : Canon (execFwVerify m sig s) :=
  sideband_canon h fun s pl h => by
    dsimp only
    (repeat' split) <;> simp [h]

theorem execAttestQuote_canon (m) {s : State} (h : Memory.wf s.mem = true) : Canon (execAttestQuote m s) :=
  sideband_canon h fun s pl h => by
    dsimp only
    (repeat' split) <;> simp [h]

theorem execMeasureRead_canon (m) {s : State} (h : Memory.wf s.mem = true) : Canon (execMeasureRead m s) :=
  sideband_canon h fun s pl h => by
    dsimp only
    (repeat' split) <;> simp [h]

theorem execPute_canon (core line) {s : State} (h : Memory.wf s.mem = true) : Canon (execPute core line s) :=
  atHome_canon h fun s m h => by
    dsimp only
    (repeat' split) <;> simp [h]

theorem execMillFault_canon (core status) {s : State} (h : Memory.wf s.mem = true) : Canon (execMillFault core status s) := by
  unfold execMillFault
  dsimp only
  (repeat' split) <;> simp [h]

theorem execSieveComplete_canon (core) {s : State} (h : Memory.wf s.mem = true) : Canon (execSieveComplete core s) := by
  unfold execSieveComplete
  dsimp only
  (repeat' split) <;> simp [h]

theorem execFillSectorArrival_canon (hall line sector ecc) {s : State} (h : Memory.wf s.mem = true) :
    Canon (execFillSectorArrival hall line sector ecc s) := by
  unfold execFillSectorArrival
  dsimp only
  (repeat' split) <;> simp [h]

theorem execPoolWrite_canon (ctx epoch pa data) {s : State} (h : Memory.wf s.mem = true) : Canon (execPoolWrite ctx epoch pa data s) := by
  unfold execPoolWrite
  dsimp only
  (repeat' split) <;> simp [h]

theorem execPatrolScrub_canon (pa pool ecc) {s : State} (h : Memory.wf s.mem = true) : Canon (execPatrolScrub pa pool ecc s) := by
  unfold execPatrolScrub
  dsimp only
  (repeat' split) <;> simp [h]

theorem execPageWalk_canon (st ctx va) {s : State} (h : Memory.wf s.mem = true) : Canon (execPageWalk st ctx va s) := by
  unfold execPageWalk
  dsimp only
  (repeat' split) <;> simp [h]

theorem execShootdown_canon (id st) {s : State} (h : Memory.wf s.mem = true) : Canon (execShootdown id st s) := by
  unfold execShootdown
  dsimp only
  (repeat' split) <;> simp [h]

theorem execRegulatorWindow_canon (resource part held) {s : State} (h : Memory.wf s.mem = true) :
    Canon (execRegulatorWindow resource part held s) := by
  unfold execRegulatorWindow
  dsimp only
  (repeat' split) <;> simp [h]

theorem execDataMsg_canon (core line evict) {s : State} (h : Memory.wf s.mem = true) : Canon (execDataMsg core line evict s) := by
  unfold execDataMsg
  dsimp only
  (repeat' split) <;> simp [h]

theorem execCoreStateLost_canon (core) {s : State} (h : Memory.wf s.mem = true) : Canon (execCoreStateLost core s) := by
  unfold execCoreStateLost
  dsimp only
  (repeat' split) <;> simp [h]

theorem execModPwrEnRise_canon {s : State} (h : Memory.wf s.mem = true) : Canon (execModPwrEnRise s) := by
  unfold execModPwrEnRise
  dsimp only
  (repeat' split) <;> simp [h]

theorem execInputRecovered_canon {s : State} (h : Memory.wf s.mem = true) : Canon (execInputRecovered s) := by
  unfold execInputRecovered
  dsimp only
  (repeat' split) <;> simp [h]

theorem execJtagSamplePreload_canon {s : State} (h : Memory.wf s.mem = true) : Canon (execJtagSamplePreload s) := by
  unfold execJtagSamplePreload
  dsimp only
  simp [h]

theorem execInputPowerApplied_canon {s : State} (h : Memory.wf s.mem = true) : Canon (execInputPowerApplied s) := by
  unfold execInputPowerApplied
  dsimp only
  (repeat' split) <;> simp [h]

/-! ## The table of commands -/

/-- Every command keeps memory in its canonical form: the commands that store go through `Memory.write` alone, by the lemmas
above and those about the shared shapes; every other one leaves memory as it is on each of its branches. -/
theorem exec_canon (i : Instr) {s : State} (h : Memory.wf s.mem = true) : Canon (exec i s) := by
  cases i with
  | sadd _ _ | ssub _ _ | smul _ _ | smulhu _ _ | smulhs _ _ | sdivu _ _ | sdivs _ _ | sremu _ _ | srems _ _ | sand _ _ | sor _ _ | sxor _ _
    | sandn _ _ | sshl _ _ | sshr _ _ | ssar _ _ | sror _ _ | smin _ _ | smax _ _ | sminu _ _ | smaxu _ _ | sslt _ _ | ssltu _ _ | sseq _ _
    | smov _ _ | spopc _ _ | sclz _ _ | sctz _ _ | spget _ _ | spset _ _ | srdcr _ _ | vadd _ _ | vsub _ _ | vmul _ _ | vmulhu _ _
    | vmulhs _ _ | vmin _ _ | vmax _ _ | vminu _ _ | vmaxu _ _ | vand _ _ | vor _ _ | vxor _ _ | vandn _ _ | vshl _ _ | vshr _ _ | vsar _ _
    | vpopc _ _ | vclz _ _ | vbrev _ _ | vfadd _ _ | vfsub _ _ | vfmul _ _ | vffma _ _ | vfmin _ _ | vfmax _ _ | vfabs _ _ | vfneg _ _
    | vfcpys _ _ | vcmp _ _ _ | vcvt _ _ _ | vmov _ _ | vsel _ _ | vlane _ _ | vget _ _ | vshfl _ _ | vbcast _ _ | vany _ _ | vall _ _
    | vballot _ _ | vredAdd _ _ | vredFadd _ _ | vdadd _ _ | vdsub _ _ | vdmul _ _ | vdfma _ _ | vdmin _ _ | vdmax _ _ | vdabs _ _
    | vdneg _ _ | vfdiv _ _ | vfsqrt _ _ | vddiv _ _ | vdsqrt _ _ | vidivu _ _ | vidivs _ _ | viremu _ _ | virems _ _ | vdcvt _ _ _
    | vdcmp _ _ _ | yield _ _ | barG _ _ | brk _ _ =>
      exact issue_canon h fun s k act h => by simpa using h
  | wrcr _ _ => exact execWrcr_canon _ _ h
  | ld _ _ => exact execLd_canon _ _ h
  | sld _ _ => exact execSld_canon _ _ h
  | pf _ _ => exact execPf_canon _ _ h
  | lld _ _ => exact execLld_canon _ _ h
  | lst _ _ => exact execLst_canon _ _ h
  | lldR _ _ => exact execLldR_canon _ _ h
  | lstR _ _ => exact execLstR_canon _ _ h
  | maccRd _ _ => exact execMaccRd_canon _ _ h
  | maccWr _ _ => exact execMaccWr_canon _ _ h
  | tlyRead _ _ => exact execTlyRead_canon _ _ h
  | tlyWatch _ _ => exact execTlyWatch_canon _ _ h
  | tlyCancel _ _ => exact execTlyCancel_canon _ _ h
  | bra _ _ => exact execBra_canon _ _ h
  | call _ _ => exact execCall_canon _ _ h
  | exitOp _ _ => exact execExitOp_canon _ _ h
  | spin _ _ => exact execSpin_canon _ _ h
  | pathSwitch _ _ => exact execPathSwitch_canon _ _ h
  | spinTimeout _ _ => exact execSpinTimeout_canon _ _ h
  | loadDataArrival _ _ => exact execLoadDataArrival_canon _ _ h
  | millOpStart _ => exact execMillOpStart_canon _ h
  | millBlockDrain _ => exact execMillBlockDrain_canon _ h
  | epochCommandRefused _ => exact execEpochCommandRefused_canon _ h
  | poolFold _ => exact execPoolFold_canon _ h
  | pageMoveRequest _ _ => exact execPageMoveRequest_canon _ _ h
  | pageCopyDone _ => exact execPageCopyDone_canon _ h
  | putm _ _ => exact execPutm_canon _ _ h
  | ctxCreate _ => exact execCtxCreate_canon _ h
  | memCreate _ => exact execMemCreate_canon _ h
  | memMap _ => exact execMemMap_canon _ h
  | commonsCreate _ => exact execCommonsCreate_canon _ h
  | commonsFill _ => exact execCommonsFill_canon _ h
  | commonsSeal _ => exact execCommonsSeal_canon _ h
  | queueCreate _ => exact execQueueCreate_canon _ h
  | queueDestroy _ => exact execQueueDestroy_canon _ h
  | stationDeclare _ => exact execStationDeclare_canon _ h
  | stationRemove _ => exact execStationRemove_canon _ h
  | tallyFree _ => exact execTallyFree_canon _ h
  | tallySet _ => exact execTallySet_canon _ h
  | tallyExport _ => exact execTallyExport_canon _ h
  | partQuiesce _ => exact execPartQuiesce_canon _ h
  | partReset _ => exact execPartReset_canon _ h
  | queueCopy _ _ => exact execQueueCopy_canon _ _ h
  | queueFill _ _ => exact execQueueFill_canon _ _ h
  | queueSlotRotate _ => exact execQueueSlotRotate_canon _ h
  | notifyBellWrite _ => exact execNotifyBellWrite_canon _ h
  | sessionGraceExpiry => exact execSessionGraceExpiry_canon h
  | powerCapInterval _ => exact execPowerCapInterval_canon _ h
  | commonsRepaired _ _ => exact execCommonsRepaired_canon _ _ h
  | endpointDead _ => exact execEndpointDead_canon _ h
  | memoryTrainingDone _ _ => exact execMemoryTrainingDone_canon _ _ h
  | partitionRestore => exact execPartitionRestore_canon h
  | illegalOpcode _ _ _ => exact execIllegalOpcode_canon _ _ _ h
  | queueWaitRetry _ => exact execQueueWaitRetry_canon _ h
  | st _ _ | sst _ _ => exact issue_canon h fun _ _ _ h => storeBody_canon h
  | atom _ _ | satom _ _ => exact issue_canon h fun _ _ _ h => atomBody_canon h
  | brx _ _ | callx _ _ | ret _ _ => exact issue_canon h fun _ _ _ h => xBranch_canon h
  | tlyAdd _ _ | tlySub _ _ | tlySetmax _ _ => exact tlyArith_canon _ _ _ h
  | fenceOrd _ _ | fenceSeq _ _ | fenceDone _ _ => exact fenceIssue_canon _ _ _ h
  | mldS _ _ | mmaW _ _ | mmaA _ _ => exact issue_canon h fun _ _ _ h => millBody_canon h
  | sivIsect _ _ | sivUnion _ _ | sivDiff _ _ | sivProbe _ _ | sivGather _ _ | sivScatter _ _ => exact issue_canon h fun _ _ _ h => sieveBody_canon h
  | folestOpen _ | folestClose _ | folestReset _ | folestNop _ | mailboxFrame _ | dmaWrite _ | dmaRead _ | ingest _ | ackFrame _
    | nackFrame _ | keepalive _ => simp only [exec]; exact receive_canon h
  | gets _ _ | getm _ _ | upgrade _ _ => simp only [exec]; exact requestAtHome_canon h
  | victimWriteAccepted _ _ => exact resumed_canon (victimAccepted_canon _ _ h)
  | invack _ _ => exact resumed_canon (invAckArrives_canon _ _ h)
  | datahome _ _ => exact resumed_canon (dataHomeArrives_canon _ _ h)
  | datainflight _ _ => exact resumed_canon (dataInFlightArrives_canon _ _ h)
  | doneMsg _ _ => exact resumed_canon (doneArrives_canon _ _ h)
  | capRead _ | sessionGrace _ | ctxDestroy _ => simp only [exec]; exact runCmd_canon h fun s c pl h => by simp [h]
  | noticeAck _ | ctxQuery _ | memRelease _ | memQuery _ | commonsFree _ | queueQuery _ | tallyRelease _ | tallyQuery _ | debugResume _
    | tableRead _ =>
      simp only [exec]
      exact runCmd_canon h fun s c pl h => by
        (repeat' split) <;> simp [h]
  | ctxSet _ => exact execCtxSet_canon _ h
  | bellLogRead _ => exact execBellLogRead_canon _ h
  | parkRead _ => exact execParkRead_canon _ h
  | memUnmap _ => exact execMemUnmap_canon _ h
  | memShare _ => exact execMemShare_canon _ h
  | queueDoorbell _ => exact execQueueDoorbell_canon _ h
  | tallyAlloc _ => exact execTallyAlloc_canon _ h
  | tallyImport _ => exact execTallyImport_canon _ h
  | epochAllot _ => exact execEpochAllot_canon _ h
  | epochReturn _ => exact execEpochReturn_canon _ h
  | partPolicy _ => exact execPartPolicy_canon _ h
  | partConfig _ => exact execPartConfig_canon _ h
  | partResume _ => exact execPartResume_canon _ h
  | partMoveHalls _ => exact execPartMoveHalls_canon _ h
  | debugDump _ => exact execDebugDump_canon _ h
  | identify _ | stateRead _ | attestCert _ => simp only [exec]; exact sideband_canon h fun s pl h => by simp [h]
  | fwBegin _ | fwActivate _ | fwStatus _ =>
      simp only [exec]
      exact sideband_canon h fun s pl h => by
        (repeat' split) <;> simp [h]
  | moduleReset _ => exact execModuleReset_canon _ h
  | sensorRead _ => exact execSensorRead_canon _ h
  | powerCap _ => exact execPowerCap_canon _ h
  | policy _ => exact execPolicy_canon _ h
  | policyState _ => exact execPolicyState_canon _ h
  | counterRead _ => exact execCounterRead_canon _ h
  | lifetimeRead _ => exact execLifetimeRead_canon _ h
  | histogramRead _ => exact execHistogramRead_canon _ h
  | logRead _ => exact execLogRead_canon _ h
  | provision _ => exact execProvision_canon _ h
  | macsecKey _ => exact execMacsecKey_canon _ h
  | timeSet _ => exact execTimeSet_canon _ h
  | fwWrite _ => exact execFwWrite_canon _ h
  | fwVerify _ _ => exact execFwVerify_canon _ _ h
  | attestQuote _ => exact execAttestQuote_canon _ h
  | measureRead _ => exact execMeasureRead_canon _ h
  | queueToLarder _ _ | queueFromLarder _ _ | queueWait _ _ | queueRaise _ _ | queueNop _ _ => simp only [exec]; exact startEntry_canon h fun s q st e h => by simp [h]
  | epochOpen _ | epochCommit _ | epochDiscard _ => simp only [exec]; exact onCommand_canon h fun s x h => by simp [h]
  | pute _ _ => exact execPute_canon _ _ h
  | invMsg _ _ | fwdgets _ _ | fwdgetm _ _ =>
      simp only [exec]
      exact atCore_canon h fun s m h => by
        (repeat' split) <;> simp [h]
  | barrierStall g bar => simp only [exec]; fun_cases execBarrierStall g bar s <;> simp [h]
  | missNotice g load => simp only [exec]; fun_cases execMissNotice g load s <;> simp [h]
  | runAheadLimit g => simp only [exec]; fun_cases execRunAheadLimit g s <;> simp [h]
  | parkComplete g => simp only [exec]; fun_cases execParkComplete g s <;> simp +zetaDelta [*]
  | groupWake watch => simp only [exec]; fun_cases execGroupWake watch s <;> simp [h]
  | replay station inst index g => simp only [exec]; fun_cases execReplay station inst index g s <;> simp [h]
  | instanceMigrate station inst core => simp only [exec]; fun_cases execInstanceMigrate station inst core s; simp [h]
  | coreRetire core => simp only [exec]; fun_cases execCoreRetire core s <;> simp +zetaDelta [*]
  | storeDrain core entry => simp only [exec]; fun_cases execStoreDrain core entry s <;> simp [h]
  | writeAck g req => simp only [exec]; fun_cases execWriteAck g req s <;> simp [h]
  | fenceEndpointLost g w => simp only [exec]; fun_cases execFenceEndpointLost g w s <;> simp [h]
  | millRescaleRetry core => simp only [exec]; fun_cases execMillRescaleRetry core s <;> simp [h]
  | millComplete core cycles => simp only [exec]; fun_cases execMillComplete core cycles s <;> simp [h]
  | millFault _ _ => exact execMillFault_canon _ _ h
  | sieveComplete _ => exact execSieveComplete_canon _ h
  | sieveFault core status => simp only [exec]; unfold execSieveFault; (repeat' split) <;> simp [h]
  | dmaTransferComplete queue entry => simp only [exec]; fun_cases execDmaTransferComplete queue entry s <;> simp +zetaDelta [*]
  | nearStoreAtomic core hall => simp only [exec]; fun_cases execNearStoreAtomic core hall s <;> simp +zetaDelta [*]
  | homeRead cls core ctx attr pa ecc => simp only [exec]; fun_cases execHomeRead cls core ctx attr pa ecc s <;> simp [h]
  | homeWrite cls core ctx attr pa data => simp only [exec]; fun_cases execHomeWrite cls core ctx attr pa data s <;> simp [h]
  | fillSectorArrival _ _ _ _ => exact execFillSectorArrival_canon _ _ _ _ h
  | poolWrite _ _ _ _ => exact execPoolWrite_canon _ _ _ _ h
  | epochSliceApply part epoch hall => simp only [exec]; fun_cases execEpochSliceApply part epoch hall s <;> simp +zetaDelta [*]
  | epochSliceAck part epoch hall => simp only [exec]; fun_cases execEpochSliceAck part epoch hall s <;> simp [h]
  | unitSeal u => simp only [exec]; unfold execUnitSeal; (repeat' split) <;> simp [h]
  | unitDrainDone u => simp only [exec]; unfold execUnitDrainDone; (repeat' split) <;> simp [h]
  | unitUngate u => simp only [exec]; unfold execUnitUngate; (repeat' split) <;> simp [h]
  | patrolScrub _ _ _ => exact execPatrolScrub_canon _ _ _ h
  | pageWalk _ _ _ => exact execPageWalk_canon _ _ _ h
  | shootdown _ _ => exact execShootdown_canon _ _ h
  | shootdownAck id st => simp only [exec]; fun_cases execShootdownAck id st s <;> simp [h]
  | moveAbandoned move => simp only [exec]; unfold execMoveAbandoned; (repeat' split) <;> simp [h]
  | tierInterval part => simp only [exec]; fun_cases execTierInterval part s <;> simp +zetaDelta [*]
  | refreshAdjust stack => simp only [exec]; fun_cases execRefreshAdjust stack s <;> simp [h]
  | regulatorWindow _ _ _ => exact execRegulatorWindow_canon _ _ _ h
  | dataMsg _ _ _ => exact execDataMsg_canon _ _ _ h
  | coherenceError part die line => simp only [exec]; unfold execCoherenceError; (repeat' split) <;> simp [h]
  | noticeSend => simp only [exec]; fun_cases execNoticeSend s <;> simp [h]
  | doorbellStore queue tail => simp only [exec]; unfold execDoorbellStore; (repeat' split) <;> simp [h]
  | queueEntryComplete queue entry => simp only [exec]; fun_cases execQueueEntryComplete queue entry s <;> simp [h]
  | bellToSteward watch => simp only [exec]; fun_cases execBellToSteward watch s <;> simp +zetaDelta [*]
  | contextEvict ctx => simp only [exec]; fun_cases execContextEvict ctx s <;> simp [h]
  | residencyReturn ctx => simp only [exec]; fun_cases execResidencyReturn ctx s <;> simp [h]
  | contextLoss ctx => simp only [exec]; fun_cases execContextLoss ctx s <;> simp +zetaDelta [*]
  | destroyOverrun ctx => simp only [exec]; unfold execDestroyOverrun; (repeat' split) <;> simp [h]
  | instancePlaced station inst core => simp only [exec]; fun_cases execInstancePlaced station inst core s <;> simp [h]
  | linkDown => simp only [exec]; fun_cases execLinkDown s; simp [h]
  | linkUp mode => simp only [exec]; fun_cases execLinkUp mode s <;> simp [h]
  | foreignFrame => simp only [exec]; unfold execForeignFrame; (repeat' split) <;> simp [h]
  | arpRequest partner ip => simp only [exec]; fun_cases execArpRequest partner ip s; simp [h]
  | ndSolicit partner ip => simp only [exec]; fun_cases execNdSolicit partner ip s; simp [h]
  | icmpEcho partner data => simp only [exec]; fun_cases execIcmpEcho partner data s <;> simp [h]
  | lldpTimer => simp only [exec]; unfold execLldpTimer; (repeat' split) <;> simp [h]
  | eapolMka sak => simp only [exec]; fun_cases execEapolMka sak s <;> simp +zetaDelta [*]
  | ptpSync master => simp only [exec]; fun_cases execPtpSync master s; simp [h]
  | ptpFollowUp master => simp only [exec]; fun_cases execPtpFollowUp master s; simp [h]
  | ptpDelayResp delay => simp only [exec]; unfold execPtpDelayResp; (repeat' split) <;> simp [h]
  | ptpAnnounce interval => simp only [exec]; unfold execPtpAnnounce; (repeat' split) <;> simp [h]
  | ptpHoldover => simp only [exec]; fun_cases execPtpHoldover s <;> simp [h]
  | retransmitTimeout => simp only [exec]; fun_cases execRetransmitTimeout s <;> simp [h]
  | delayedAck => simp only [exec]; unfold execDelayedAck; (repeat' split) <;> simp [h]
  | keepaliveTimer => simp only [exec]; fun_cases execKeepaliveTimer s <;> simp [h]
  | sessionTimeout => simp only [exec]; fun_cases execSessionTimeout s <;> simp [h]
  | bindingIdle tally => simp only [exec]; fun_cases execBindingIdle tally s; simp [h]
  | egressPost ctx line data => simp only [exec]; fun_cases execEgressPost ctx line data s <;> simp [h]
  | eventFrameSend ctx => simp only [exec]; fun_cases execEventFrameSend ctx s <;> simp [h]
  | mctpControl data => simp only [exec]; unfold execMctpControl; (repeat' split) <;> simp [h]
  | getPdr id => simp only [exec]; unfold execGetPdr; (repeat' split) <;> simp [h]
  | getSensorReading id => simp only [exec]; unfold execGetSensorReading; (repeat' split) <;> simp [h]
  | getStateSensorReadings id => simp only [exec]; unfold execGetStateSensorReadings; (repeat' split) <;> simp [h]
  | sensorSample sensor value => simp only [exec]; unfold execSensorSample; (repeat' split) <;> simp [h]
  | thermalThrottle => simp only [exec]; fun_cases execThermalThrottle s <;> simp +zetaDelta [*]
  | runAheadPolicy => simp only [exec]; fun_cases execRunAheadPolicy s <;> simp [h]
  | placementProposal station inst core => simp only [exec]; fun_cases execPlacementProposal station inst core s <;> simp [h]
  | gatingInterval u => simp only [exec]; unfold execGatingInterval; (repeat' split) <;> simp [h]
  | reeveRestart => simp only [exec]; unfold execReeveRestart; (repeat' split) <;> simp [h]
  | lifetimeFlush => simp only [exec]; unfold execLifetimeFlush; (repeat' split) <;> simp [h]
  | histogramTick => simp only [exec]; fun_cases execHistogramTick s <;> simp +zetaDelta [*]
  | coreStateLost _ => exact execCoreStateLost_canon _ h
  | tallyCorrupt tally => simp only [exec]; fun_cases execTallyCorrupt tally s <;> simp +zetaDelta [*]
  | moduleFailed status => simp only [exec]; unfold execModuleFailed; (repeat' split) <;> simp [h]
  | resetOverrun part => simp only [exec]; fun_cases execResetOverrun part s <;> simp [h]
  | modPwrEnRise => exact execModPwrEnRise_canon h
  | modPwrEnFall => simp only [exec]; unfold execModPwrEnFall; (repeat' split) <;> simp [h]
  | modResetAssert => simp only [exec]; unfold execModResetAssert; (repeat' split) <;> simp [h]
  | modResetRelease => simp only [exec]; unfold execModResetRelease; (repeat' split) <;> simp [h]
  | bootVerify sigA sigB => simp only [exec]; fun_cases execBootVerify sigA sigB s <;> simp [h]
  | railGroupUp group => simp only [exec]; fun_cases execRailGroupUp group s <;> simp [h]
  | railFault rail => simp only [exec]; fun_cases execRailFault rail s <;> simp [h]
  | linkTrain link ok => simp only [exec]; fun_cases execLinkTrain link ok s <;> simp [h]
  | linkRetry link => simp only [exec]; fun_cases execLinkRetry link s; simp [h]
  | coreTestDone bad => simp only [exec]; fun_cases execCoreTestDone bad s <;> simp +zetaDelta [*]
  | bootTrialTimeout => simp only [exec]; fun_cases execBootTrialTimeout s <;> simp [h]
  | refclkLost => simp only [exec]; fun_cases execRefclkLost s <;> simp +zetaDelta [*]
  | ethrefLost => simp only [exec]; fun_cases execEthrefLost s; simp [h]
  | ethrefReturn => simp only [exec]; fun_cases execEthrefReturn s; simp [h]
  | inputFault => simp only [exec]; unfold execInputFault; (repeat' split) <;> simp [h]
  | inputRecovered => exact execInputRecovered_canon h
  | bladeLost blade => simp only [exec]; fun_cases execBladeLost blade s <;> simp +zetaDelta [*]
  | bladeReturn blade => simp only [exec]; fun_cases execBladeReturn blade s <;> simp +zetaDelta [*]
  | thermalTrip sensor => simp only [exec]; fun_cases execThermalTrip sensor s <;> simp +zetaDelta [*]
  | ppsInEdge => simp only [exec]; fun_cases execPpsInEdge s <;> simp [h]
  | ppsOutPulse => simp only [exec]; fun_cases execPpsOutPulse s <;> simp [h]
  | jtagBypass => simp only [exec]; fun_cases execJtagBypass s; simp [h]
  | jtagIdcode => simp only [exec]; fun_cases execJtagIdcode s; simp [h]
  | jtagSamplePreload => exact execJtagSamplePreload_canon h
  | jtagExtest pins => simp only [exec]; unfold execJtagExtest; (repeat' split) <;> simp [h]
  | delayReqTimer => simp only [exec]; unfold execDelayReqTimer; (repeat' split) <;> simp [h]
  | mkaPeerLost => simp only [exec]; fun_cases execMkaPeerLost s; simp [h]
  | inputPowerApplied => exact execInputPowerApplied_canon h
  | dynamicAddressAssignment addr => simp only [exec]; unfold execDynamicAddressAssignment; (repeat' split) <;> simp [h]
  | rxFrameDropped cause => simp only [exec]; fun_cases execRxFrameDropped cause s <;> simp [h]
  | jtagTrst => simp only [exec]; fun_cases execJtagTrst s; simp [h]

/-! ## The step -/

/-- Settles O28: with a command waiting the step carries it out, and every command keeps the form; with none, only device
time and the counters of power and port move. -/
theorem stepKeepsMemoryCanonical : Obligations.StepKeepsMemoryCanonical := by
  intro s t h hs
  unfold step at hs
  split at hs
  · cases hs
    unfold tick
    (repeat' split) <;> exact h
  next c rest _ => exact exec_canon c (s := s.withPending rest) h t hs

end Sys2Proof.Machine

end
